-- ==== Sys2Proof/Word.lean ====
section
/-! DEFINITION. The word types of the Ikiroth and the sparse stores that memories, stores and register files are held
in. A store is a list of (address, content) pairs in one canonical form: addresses strictly rising, no content equal to
the zero an unlisted address reads as (R315 zeroes a site's memory before it joins a polder, R325 zeroes a core's
stores before a context's first bundle). -/

namespace Sys2Proof

abbrev Byte := BitVec 8
abbrev W12 := BitVec 12
abbrev W16 := BitVec 16
abbrev W32 := BitVec 32
abbrev W64 := BitVec 64

/-- A sparse store of `w`-bit cells; an unlisted address holds zero. -/
abbrev Store (w : Nat) := List (Nat × BitVec w)

/-- A table of records by number; an unlisted number holds the record the reader names. -/
abbrev Tbl (α : Type) := List (Nat × α)

end Sys2Proof
end

