-- ==== Sys2Proof/Syntax.lean ====
section
/-! DEFINITION. The commands the Ikiroth takes, one constructor of `Instr` for each row of the opcode table, with the
row's operands. Fields of a bundle's slots are raw bit vectors of the widths the spec gives them, so that reserved and
undefined values can be written and are met by the checks of the meanings. -/

namespace Sys2Proof

/-- Where one slot of a bundle stands: the issuing core, the slot number of R53, the guard of R54, and whether it is the
last slot that the sender gives of this bundle (a bundle's other slots are no-operations). -/
structure SlotAt where
  core : Byte
  slot : BitVec 3
  pred : BitVec 4
  pneg : Bool
  last : Bool
  deriving DecidableEq, Repr

/-- The S slot's fields (table under R57). -/
structure SFields where
  dst : BitVec 6
  srcA : BitVec 6
  srcB : BitVec 6
  pdst : BitVec 4
  imm : W64
  deriving DecidableEq, Repr

/-- The A slot's fields (table under R59). `A.SAMPLE` (R271) uses `tag`, `gBase` and `wsLine`. -/
structure AFields where
  ag : BitVec 3
  tag : BitVec 4
  gBase : BitVec 6
  desc : BitVec 13
  wsLine : W16
  imm : W64
  deriving DecidableEq, Repr

/-- The A slot's fields as `A.KVLOAD` and `A.KVAPPEND` lay them out (R237). -/
structure KFields where
  tag : BitVec 4
  gSeq : BitVec 6
  gPos : BitVec 6
  wsLine : W16
  count : BitVec 11
  headFirst : BitVec 6
  headCount : BitVec 7
  parts : BitVec 2
  deriving DecidableEq, Repr

/-- The A slot's fields as `A.UPDATE` lays them out (R280); the row gives `FUNC`. -/
structure UFields where
  tag : BitVec 4
  gOff : BitVec 6
  wsLine : W16
  deriving DecidableEq, Repr

/-- The M slot's fields (table under R60); the row gives `ATTN`. -/
structure MFields where
  agA : BitVec 3
  agB : BitVec 3
  agOut : BitVec 3
  bank : Bool
  fmtA : BitVec 4
  fmtB : BitVec 4
  sparse : Bool
  chain : BitVec 5
  accClear : Bool
  tag : BitVec 4
  gParam : BitVec 6
  deriving DecidableEq, Repr

/-- The M slot's fields as `M.GSTREAM` lays them out (R150). -/
structure GFields where
  m : MFields
  attn : Bool
  colFirst : BitVec 7
  colCount : BitVec 8
  deriving DecidableEq, Repr

/-- The V slot's fields (table under R61) with those of R170; a `V.RSUM` row gives `FN`. -/
structure VFields where
  vd : BitVec 6
  va : BitVec 6
  vb : BitVec 6
  vc : BitVec 6
  ty : BitVec 3
  rnd : BitVec 3
  immSel : Bool
  wsLine : W16
  gOff : BitVec 6
  sfmt : BitVec 3
  dfmt : BitVec 3
  spart : BitVec 2
  dpart : BitVec 2
  ofmt : BitVec 3
  fn : BitVec 3
  imm32 : W32
  deriving DecidableEq, Repr

/-- The V slot's fields as `V.WIN` lays them out (R153); the row gives `OP`. -/
structure WFields where
  vd : BitVec 6
  gW : BitVec 6
  ty : BitVec 3
  rnd : BitVec 3
  immSel : Bool
  wsLine : W16
  gOff : BitVec 6
  rowPitch : W16
  colPitch : Byte
  kw : BitVec 6
  kh : BitVec 6
  dilX : BitVec 5
  dilY : BitVec 5
  deriving DecidableEq, Repr

/-- The V slot's fields as `V.SLUICE` lays them out (R248); the row gives `SOP`. -/
structure LFields where
  va : BitVec 6
  vb : BitVec 6
  ty : BitVec 3
  rnd : BitVec 3
  immSel : Bool
  wsLine : W16
  gOff : BitVec 6
  pdst : BitVec 4
  block : Byte
  deriving DecidableEq, Repr

/-- The V slot's fields as `V.RNG` lays them out (R263); the row gives `RFN`. -/
structure RFields where
  vd : BitVec 6
  va : BitVec 6
  gIdx : BitVec 6
  ty : BitVec 3
  rnd : BitVec 3
  immSel : Bool
  wsLine : W16
  gOff : BitVec 6
  imm32 : W32
  deriving DecidableEq, Repr

/-- The X slot's fields (table under R61's V slots). For an `X.SEQ` row the row gives `IMM`[3:0] (R236). -/
structure XFields where
  target : BitVec 11
  gA : BitVec 6
  gB : BitVec 6
  gDst : BitVec 6
  scope : Bool
  tag : BitVec 4
  imm : W64
  deriving DecidableEq, Repr

/-- The two paths of Tsusen (R41): the management segment, and port 0 in-band. -/
inductive MgmtPath where
  | mgmt
  | inband
  deriving DecidableEq, Repr

/-- The header of a Tsusen request (R43) as far as its row does not give it. `edition` is what `EDITION` holds,
`otherType` a `TYPE` that the message holds in place of its row's (R438). `tagDiff` is its authentication tag, as the
exclusive or with the tag that the session key gives for the message, so that 0 is a tag that verifies. -/
structure Hdr where
  path : MgmtPath
  session : W16
  seq : W16
  tagDiff : BitVec 128
  edition : Byte := 1
  otherType : Option Byte := none
  deriving DecidableEq, Repr

/-- Whether a message's tag verifies (R43). -/
def Hdr.tagOk (h : Hdr) : Bool := h.tagDiff == 0

/-- One fragment of a handshake message (R411): the message's total length, the fragment's offset, its bytes. -/
structure Fragment where
  total : W32
  offset : W32
  bytes : List Byte
  deriving DecidableEq, Repr

/-- What an `OPEN` or `ASSOC` request carries (R411): a fragment of H1, or the wanted offset of H2. -/
inductive HsPart where
  | h1 (frag : Fragment)
  | readH2 (offset : W32)
  deriving DecidableEq, Repr

/-- The paths on which a handshake is carried (R411): in frames or datagrams those of a port's MACsec channel to a peer
station, by its MAC address, and of a fabric link. -/
inductive HsPath where
  | tsusen
  | host
  | port (p : BitVec 3) (peer : BitVec 48)
  | fabric (peer : W16)
  deriving DecidableEq, Repr

/-- The header of a host-transport request (R350), whether it came over IPv6, and for a `GET` how often each 256-byte
segment of its reply fails its check on the way out (R365). -/
structure HostHdr where
  ipv6 : Bool := false
  crcFails : List Nat := []
  edition : Byte
  flags : Byte
  assoc : W32
  request : W32
  context : W16
  slot : W16
  item : W64
  offset : W32
  length : W32
  deriving DecidableEq, Repr

/-- What a protected frame holds, as far as the port itself acts on it (R346, R41). -/
inductive FrameInner where
  | arpRequest (target : W32) (sender : BitVec 48)
  | neighbourSolicit (target : BitVec 128) (sender : BitVec 48)
  | ipFragment
  | tsusen
  | other
  deriving DecidableEq, Repr

/-- How a frame is protected (R347): MACsec under a secure channel with its packet number, a key-handshake frame of
EtherType 0x88B5, or neither. -/
inductive FrameKind where
  | macsec (channel : Byte) (pn : W64) (icvOk : Bool) (underNewKey : Bool) (inner : FrameInner)
  | handshake
  | unprotected
  deriving DecidableEq, Repr

/-- A frame as a port receives it (R346): its length from destination address to FCS, whether it carries an IEEE 802.1Q
tag, whether its FCS and its FEC code words are good, and what it is. -/
structure Frame where
  length : Nat
  vlan : Bool
  fcsOk : Bool
  fecCorrected : Nat
  fecBad : Nat
  kind : FrameKind
  deriving DecidableEq, Repr

/-- A fabric packet as it arrives (R369, R370, R374): a PUT, a part of a node from element `first` on, a part of a result
from byte `offset` on. `packet` is the sender's number for it, `arrived` what has come to the memory controller of the
data that its segments were checked over (R363). -/
inductive FabricPacket where
  | put (src : W16) (group : W64) (member : W32) (packet : Nat) (addr : W64) (data arrived : List Byte)
  | node (src : W16) (group : W64) (collId : W64) (packet : Nat) (firstLeaf leaves : W32) (first : Nat)
      (elements : List W32)
  | result (src : W16) (group : W64) (collId : W64) (packet : Nat) (offset : Nat) (data arrived : List Byte)
  | ack (packet : Nat)
  | refusal (packet : Nat)
  deriving DecidableEq, Repr

/-- The readings of one evaluation of the power manager (R420, R421, R435, R436): F32 values, and one entry a site. -/
structure PowerReading where
  power : W32
  voltage : W32
  current : W32
  junction : List W32
  sitePower : List W32
  vcore : List W16
  deriving DecidableEq, Repr

/-- The readings of a freeboard check (R400): V0 and V1 in microvolts, the discharge time in nanoseconds. -/
structure HoldReading where
  v0 : Nat
  v1 : Nat
  t : Nat
  deriving DecidableEq, Repr

/-- A fabric packet that is not acknowledged in time (R372), and how many frames of its last sending ended with an inverted
FCS because a segment's check failed (R365). -/
structure Unacked where
  packet : Nat
  crcFails : Nat := 0
  deriving DecidableEq, Repr

/-- The commands: one constructor a row of the opcode table. -/
inductive Instr where
  /-- DISCOVER (R43): A Tsusen DISCOVER datagram is answered with the 0x0000 identity record in plain text. -/
  | discover (path : MgmtPath)
  /-- OPEN (R411): A Tsusen OPEN request carries a fragment of handshake message H1 or reads a fragment of H2. -/
  | tsusenOpen (path : MgmtPath) (session seq : W16) (msg : HsPart)
  /-- OPEN_FINISH (R411): A Tsusen OPEN_FINISH request carries a fragment of H3; the last fragment completes the handshake and is answered with OPEN_ACK. -/
  | openFinish (path : MgmtPath) (session seq : W16) (frag : Fragment)
  /-- READ (R437): A Tsusen READ of one subindex is checked in order and answered with its value or a status code. -/
  | read (h : Hdr) (index : W16) (sub : Byte)
  /-- WRITE (R437): A Tsusen WRITE of one subindex is checked in order and stores the value; this row also covers writes to entries that have no row of their own. -/
  | write (h : Hdr) (index : W16) (sub : Byte) (data : List Byte)
  /-- SEG_READ (R35): Reads one segment of a DOMAIN entry, checked against its generation. -/
  | segRead (h : Hdr) (index : W16) (sub : Byte) (offset : W32) (length : W16) (gen : W32)
  /-- SEG_WRITE (R36): Writes one segment of a DOMAIN entry; a LAST segment replaces the content and advances the generation. -/
  | segWrite (h : Hdr) (index : W16) (sub : Byte) (offset : BitVec 31) (last : Bool) (data : List Byte)
  /-- SUBSCRIBE (R438): Asks for NOTIFY on one status record, or cancels the subscription. -/
  | subscribe (h : Hdr) (index : W16) (on : Byte)
  /-- RECORD_READ (R439): Reads every subindex of a RECORD as it stood at the end of one slow cycle. -/
  | recordRead (h : Hdr) (index : W16)
  /-- BATCH_WRITE (R440): Checks up to 32 items and writes them atomically in payload order. -/
  | batchWrite (h : Hdr) (payload : List Byte)
  /-- CLOSE (R43): Ends a Tsusen session and its subscriptions. -/
  | tsusenClose (h : Hdr)
  /-- SESSION_IDLE_EXPIRY (R46): A session with no request for SESSION_IDLE_LIMIT slow cycles is closed and its subscriptions end. -/
  | sessionIdleExpiry (session : W16)
  /-- SEG_WRITE_GAP_EXPIRY (R36): A gap of more than SESSION_IDLE_LIMIT slow cycles between segments discards the SEG_WRITE sequence. -/
  | segWriteGapExpiry (session : W16)
  /-- EVENT_POST (R30): Events that arrived from fast domains set their status flags and advance their counters at a slow-cycle edge, driving ALERT_N. -/
  | eventPost
  /-- FLAGS_CLEAR (R31): An RWC write to FLAGS clears each bit written 1; a hardware set in the same slow cycle wins. -/
  | flagsClear (h : Hdr) (record : W16) (mask : W32)
  /-- S_ADD (R58): Scalar 64-bit add. -/
  | sAdd (h : SlotAt) (f : SFields)
  /-- S_SUB (R58): Scalar 64-bit subtract. -/
  | sSub (h : SlotAt) (f : SFields)
  /-- S_MUL (R58): Scalar multiply, keeping the low 64 bits. -/
  | sMul (h : SlotAt) (f : SFields)
  /-- S_AND (R58): Scalar bitwise AND. -/
  | sAnd (h : SlotAt) (f : SFields)
  /-- S_OR (R58): Scalar bitwise OR. -/
  | sOr (h : SlotAt) (f : SFields)
  /-- S_XOR (R58): Scalar bitwise exclusive OR. -/
  | sXor (h : SlotAt) (f : SFields)
  /-- S_SHL (R58): Scalar shift left by b mod 64. -/
  | sShl (h : SlotAt) (f : SFields)
  /-- S_SHR (R58): Scalar logical shift right by b mod 64. -/
  | sShr (h : SlotAt) (f : SFields)
  /-- S_SAR (R58): Scalar arithmetic shift right by b mod 64. -/
  | sSar (h : SlotAt) (f : SFields)
  /-- S_MIN (R58): Scalar signed minimum. -/
  | sMin (h : SlotAt) (f : SFields)
  /-- S_MAX (R58): Scalar signed maximum. -/
  | sMax (h : SlotAt) (f : SFields)
  /-- S_CMP_EQ (R58): Writes the predicate PDST with a equal to b. -/
  | sCmpEq (h : SlotAt) (f : SFields)
  /-- S_CMP_NE (R58): Writes the predicate PDST with a not equal to b. -/
  | sCmpNe (h : SlotAt) (f : SFields)
  /-- S_CMP_LT (R58): Writes the predicate PDST with signed a below b. -/
  | sCmpLt (h : SlotAt) (f : SFields)
  /-- S_CMP_LTU (R58): Writes the predicate PDST with unsigned a below b. -/
  | sCmpLtu (h : SlotAt) (f : SFields)
  /-- S_CMP_LE (R58): Writes the predicate PDST with signed a at most b. -/
  | sCmpLe (h : SlotAt) (f : SFields)
  /-- S_CMP_LEU (R58): Writes the predicate PDST with unsigned a at most b. -/
  | sCmpLeu (h : SlotAt) (f : SFields)
  /-- S_LD (R58): Loads a scalar word from the scalar data store. -/
  | sLd (h : SlotAt) (f : SFields)
  /-- S_ST (R58): Stores a scalar word into the scalar data store. -/
  | sSt (h : SlotAt) (f : SFields)
  /-- S_SYS (R59): Reads a system value selected by IMM. -/
  | sSys (h : SlotAt) (f : SFields)
  /-- A_LOOP (R83): Checks a descriptor table, copies it into an address generator and resets its walk. -/
  | aLoop (h : SlotAt) (f : AFields)
  /-- A_LOAD (R88): Starts a walk that loads memory into the working store. -/
  | aLoad (h : SlotAt) (f : AFields)
  /-- A_LOAD_DONE (R94): The load walk finishes its reads and zero fills and frees its tag. -/
  | aLoadDone (core : Byte) (tag : BitVec 4)
  /-- A_STORE (R88): Starts a walk that stores working-store data to memory. -/
  | aStore (h : SlotAt) (f : AFields)
  /-- A_STORE_DONE (R93): The store walk issues its last complete code word and frees its tag. -/
  | aStoreDone (core : Byte) (tag : BitVec 4)
  /-- A_WAIT (R65): The bundle waits at issue until the named tag is free. -/
  | aWait (h : SlotAt) (f : AFields)
  /-- M_STREAM (R126): Streams operands A and B into a bank in Meridian order. -/
  | mStream (h : SlotAt) (f : MFields)
  /-- M_STREAM_ATTN (R215): Runs one query block through its key blocks in attention mode. -/
  | mStreamAttn (h : SlotAt) (f : MFields)
  /-- M_STREAM_DONE (R129): The last beat of a stream is taken, and the stream completes and frees its tag. -/
  | mStreamDone (core : Byte) (tag : BitVec 4)
  /-- M_DRAIN (R139): Drains a bank through the epilogue of its chain. -/
  | mDrain (h : SlotAt) (f : MFields)
  /-- M_DRAIN_ATTN (R218): Drains bank B divided by the running sum and writes each row's statistic. -/
  | mDrainAttn (h : SlotAt) (f : MFields)
  /-- M_DRAIN_DONE (R140): A drain writes its last row and histogram and frees its tag. -/
  | mDrainDone (core : Byte) (tag : BitVec 4)
  /-- M_WAIT (R65): The bundle waits at issue until the named tag is free. -/
  | mWait (h : SlotAt) (f : MFields)
  /-- M_GSTREAM (R151): Streams into a group of active columns with a group size of 1. -/
  | mGstream (h : SlotAt) (f : GFields)
  /-- V_FMA (R171): Vector fused multiply-add. -/
  | vFma (h : SlotAt) (f : VFields)
  /-- V_ADD (R171): Vector add. -/
  | vAdd (h : SlotAt) (f : VFields)
  /-- V_MUL (R171): Vector multiply. -/
  | vMul (h : SlotAt) (f : VFields)
  /-- V_MAX (R172): Vector maximum. -/
  | vMax (h : SlotAt) (f : VFields)
  /-- V_MIN (R172): Vector minimum. -/
  | vMin (h : SlotAt) (f : VFields)
  /-- V_EXP2 (R178): Vector base-2 exponential. -/
  | vExp2 (h : SlotAt) (f : VFields)
  /-- V_LOG2 (R179): Vector base-2 logarithm. -/
  | vLog2 (h : SlotAt) (f : VFields)
  /-- V_CVT (R173): Vector format conversion between parts. -/
  | vCvt (h : SlotAt) (f : VFields)
  /-- V_LD (R168): Loads eight working-store lines into a vector register. -/
  | vLd (h : SlotAt) (f : VFields)
  /-- V_ST (R168): Stores a vector register to eight working-store lines. -/
  | vSt (h : SlotAt) (f : VFields)
  /-- V_SEL (R172): Selects elements from VA or VB by the mask in VC. -/
  | vSel (h : SlotAt) (f : VFields)
  /-- V_CMP (R172): Compares elements under FN and writes all-ones or all-zeros masks. -/
  | vCmp (h : SlotAt) (f : VFields)
  /-- V_RSUM_SUM (R183): Sums lanes by the Meridian tree. -/
  | vRsumSum (h : SlotAt) (f : VFields)
  /-- V_RSUM_MAX (R183): Takes the largest lane. -/
  | vRsumMax (h : SlotAt) (f : VFields)
  /-- V_RSUM_STAT (R183): Forms a statistics node shifted by lane 0. -/
  | vRsumStat (h : SlotAt) (f : VFields)
  /-- V_RSUM_STAT0 (R183): Forms a statistics node with shift +0. -/
  | vRsumStat0 (h : SlotAt) (f : VFields)
  /-- V_RSUM_COMBINE (R184): Combines a left statistics node with a right node. -/
  | vRsumCombine (h : SlotAt) (f : VFields)
  /-- V_RSUM_FINISH (R185): Computes the mean and variance from a statistics node. -/
  | vRsumFinish (h : SlotAt) (f : VFields)
  /-- V_WIN_MAC (R154): Sliding-window multiply-accumulate for one output pixel. -/
  | vWinMac (h : SlotAt) (f : WFields)
  /-- V_WIN_MAX (R154): Sliding-window maximum for one output pixel. -/
  | vWinMax (h : SlotAt) (f : WFields)
  /-- V_WIN_SUM (R154): Sliding-window sum for one output pixel. -/
  | vWinSum (h : SlotAt) (f : WFields)
  /-- SLUICE_CLEAR (R249): Resets the comparator's tile state. -/
  | sluiceClear (h : SlotAt) (f : LFields)
  /-- SLUICE_ACCUM (R250): Accumulates the change and magnitude maxima over a pair of registers. -/
  | sluiceAccum (h : SlotAt) (f : LFields)
  /-- SLUICE_DECIDE (R251): Decides a tile's gate, writes the predicate and posts a closed gate. -/
  | sluiceDecide (h : SlotAt) (f : LFields)
  /-- SLUICE_SETUP (R249): Loads the job state from 17 lines and clears the tile state. -/
  | sluiceSetup (h : SlotAt) (f : LFields)
  /-- SLUICE_POST_SERVED (R254): The sluice home sets a gate-map bit by read-modify-write. -/
  | sluicePostServed (polder : BitVec 4)
  /-- LOADSTATE (R263): Loads SEED and STEP of the generator state from one line. -/
  | rngLoadstate (h : SlotAt) (f : RFields)
  /-- BITS (R267): Writes raw counter-stream words. -/
  | rngBits (h : SlotAt) (f : RFields)
  /-- UNIFORM (R263): Writes uniform FP32 samples drawn from counter-stream words. -/
  | rngUniform (h : SlotAt) (f : RFields)
  /-- NORMAL (R269): Writes normal samples drawn from counter-stream words. -/
  | rngNormal (h : SlotAt) (f : RFields)
  /-- DROP (R266): Applies a data-hash dropout mask to VA. -/
  | rngDrop (h : SlotAt) (f : RFields)
  /-- XSET (R263): Sets the coordinate base of the issuing pipe. -/
  | rngXset (h : SlotAt) (f : RFields)
  /-- DSET (R263): Sets the coordinate base and row pitch used by drains. -/
  | rngDset (h : SlotAt) (f : RFields)
  /-- X_JMP (R57): Jumps to TARGET. -/
  | xJmp (h : SlotAt) (f : XFields)
  /-- X_BR (R57): Jumps to TARGET when the guard holds. -/
  | xBr (h : SlotAt) (f : XFields)
  /-- X_CALL (R57): Pushes the return address and jumps. -/
  | xCall (h : SlotAt) (f : XFields)
  /-- X_RET (R57): Pops the return address and jumps. -/
  | xRet (h : SlotAt) (f : XFields)
  /-- X_BAR (R68): Arrives at a barrier of context or site scope. -/
  | xBar (h : SlotAt) (f : XFields)
  /-- BARRIER_RELEASE (R69): The barrier tree releases every core of the scope once the last core has arrived. -/
  | barrierRelease (ctx : W12) (scope : Bool) (site : BitVec 4)
  /-- X_FETCHADD (R72): Sends a fetch-and-add request to a work counter. -/
  | xFetchadd (h : SlotAt) (f : XFields)
  /-- X_CSET (R72): Sends a set request to a work counter. -/
  | xCset (h : SlotAt) (f : XFields)
  /-- COUNTER_SERVED (R72): A controller serves one counter request indivisibly, in arrival order, and returns the old value. -/
  | counterServed (site channel : BitVec 4)
  /-- X_PUT (R67): Sends lines to a receive posted by another core. -/
  | xPut (h : SlotAt) (f : XFields)
  /-- X_RECV (R67): Posts a receive under a tag. -/
  | xRecv (h : SlotAt) (f : XFields)
  /-- EXCHANGE_DONE (R67): The last line of a put reaches the receiving working store, and both tags become free. -/
  | exchangeDone (core : Byte) (tag : BitVec 4)
  /-- X_FENCE (R65): The bundle waits until every tag of the core is free. -/
  | xFence (h : SlotAt) (f : XFields)
  /-- X_ILOAD (R64): Starts an asynchronous load of bundles into the instruction store. -/
  | xIload (h : SlotAt) (f : XFields)
  /-- ILOAD_DONE (R64): An instruction-store load completes and frees its tag. -/
  | iloadDone (core : Byte) (tag : BitVec 4)
  /-- X_WAIT (R65): The bundle waits at issue until the named tag is free. -/
  | xWait (h : SlotAt) (f : XFields)
  /-- X_HALT (R70): The core arrives at the package's closing barrier. -/
  | xHalt (h : SlotAt) (f : XFields)
  /-- SEQ_OPEN (R236): Opens a sequence with an empty page table. -/
  | seqOpen (h : SlotAt) (f : XFields)
  /-- SEQ_FORK (R236): Opens a sequence that shares the source sequence's pages. -/
  | seqFork (h : SlotAt) (f : XFields)
  /-- SEQ_CLOSE (R236): Invalidates a sequence's entries and closes it. -/
  | seqClose (h : SlotAt) (f : XFields)
  /-- SEQ_SETLEN (R236): Sets a sequence's committed length. -/
  | seqSetlen (h : SlotAt) (f : XFields)
  /-- SEQ_QUERY (R236): Returns a sequence's length without changing it. -/
  | seqQuery (h : SlotAt) (f : XFields)
  /-- SEQ_SERVED (R234): The cache home serves a sequence operation, including one held under R242, and frees its tag. -/
  | seqServed (polder : BitVec 4)
  /-- A_KVLOAD (R239): Takes a snapshot, pins pages and gathers cache rows into the working store. -/
  | aKvload (h : SlotAt) (f : KFields)
  /-- KV_PIN_RELEASE (R239): The home releases a load's pins after its last read, and the load frees its tag. -/
  | kvPinRelease (core : Byte) (tag : BitVec 4)
  /-- A_KVAPPEND (R240): Resolves page entries, allocating or copying as needed, and writes token rows. -/
  | aKvappend (h : SlotAt) (f : KFields)
  /-- COW_SWITCH (R241): When a page copy completes, the page-table entry switches to the new page. -/
  | cowSwitch (core : Byte) (tag : BitVec 4)
  /-- KVAPPEND_DONE (R240): An append's last write completes and it frees its tag. -/
  | kvappendDone (core : Byte) (tag : BitVec 4)
  /-- A_SAMPLE (R274): Chooses a token from logits under the sampling descriptor. -/
  | aSample (h : SlotAt) (f : AFields)
  /-- SAMPLE_DONE (R276): The sampler writes the result line and completes. -/
  | sampleDone (core : Byte) (tag : BitVec 4)
  /-- UPDATE_NORM (R289): Update pass 1: writes the leaf sums of squares. -/
  | updateNorm (h : SlotAt) (f : UFields)
  /-- UPDATE_APPLY (R291): Update pass 2: applies the sign rule to weights and moments. -/
  | updateApply (h : SlotAt) (f : UFields)
  /-- UPDATE_SCALE (R293): Updates the history record and computes a delayed-scaling exponent. -/
  | updateScale (h : SlotAt) (f : UFields)
  /-- UPDATE_DONE (R281): An update completes, writes the result bytes of its descriptor and frees its tag. -/
  | updateDone (core : Byte) (tag : BitVec 4)
  /-- FABRIC_PUT (R369): Sends bytes to a fabric group member. -/
  | fabricPut (h : SlotAt) (f : XFields)
  /-- FABRIC_ALLREDUCE (R370): Combines leaves across members in Meridian order and writes the root at every member. -/
  | fabricAllreduce (h : SlotAt) (f : XFields)
  /-- FABRIC_REDUCE (R370): Combines leaves across members and writes the root at the member that holds leaf 0. -/
  | fabricReduce (h : SlotAt) (f : XFields)
  /-- FABRIC_BROADCAST (R369): Broadcasts bytes from a source member. -/
  | fabricBroadcast (h : SlotAt) (f : XFields)
  /-- FABRIC_DONE (R370): A fabric operation completes, writing FSTATUS, and frees its tag. -/
  | fabricDone (op : Nat)
  /-- MEDIA_OPEN (R380): A media job that opens a stream context. -/
  | mediaOpen (h : SlotAt) (f : XFields)
  /-- MEDIA_FRAME (R381): A media job that decodes or encodes one frame. -/
  | mediaFrame (h : SlotAt) (f : XFields)
  /-- MEDIA_CLOSE (R384): A media job that closes a stream context. -/
  | mediaClose (h : SlotAt) (f : XFields)
  /-- MEDIA_JOB_START (R383): An engine takes the next queued job, switching stream state if needed. -/
  | mediaJobStart (engine : BitVec 2)
  /-- MEDIA_JOB_DONE (R382): A media job completes, rewrites its descriptor and frees the tag. -/
  | mediaJobDone (engine : BitVec 2)
  /-- FAULT_TAKEN (R73): A fault detected inside an asynchronous operation is taken at the next bundle boundary. -/
  | faultTaken (core : Byte)
  /-- PACKAGE_START (R64): The next posted package starts: every core loads the program and begins at START. -/
  | packageStart (ctx : W12)
  /-- PACKAGE_END (R359): The closing barrier completes, and the package's result slot becomes READY. -/
  | packageEnd (ctx : W12)
  /-- SLICE_EXPIRY (R324): A running context that has used SLICE fast cycles is pre-empted for a waiting context of equal priority. -/
  | sliceExpiry (ctx : W12)
  /-- SAVE_DONE (R327): Every core has written its save image, the context record is written, and the context becomes SAVED. -/
  | saveDone (ctx : W12)
  /-- RESTORE_DONE (R327): The save images are read back, and the context resumes. -/
  | restoreDone (ctx : W12)
  /-- CONTEXT_PREEMPT (R327): A write that requests pre-emption of a running context. -/
  | contextPreempt (h : Hdr) (polder : BitVec 4) (context : Byte)
  /-- CONTEXT_CLOSE (R331): A write that closes a context, tearing it down. -/
  | contextClose (h : Hdr) (polder : BitVec 4) (context : Byte)
  /-- CONTEXT_MOVE (R329): A write that moves a context to a new site mask. -/
  | contextMove (h : Hdr) (polder : BitVec 4) (context : Byte) (mask : W16)
  /-- POLDER_RESET (R332): Resets a polder: tears down its contexts and zeroes its counters and cache. -/
  | polderReset (h : Hdr) (polder : BitVec 4) (value : Byte)
  /-- POLDER_SITES (R320): A write of a polder's site mask, which powers down leaving sites and zeroes joining ones. -/
  | polderSites (h : Hdr) (polder : BitVec 4) (mask : W16)
  /-- SITE_ZEROED (R315): A joining site completes its power-up and zero fill. -/
  | siteZeroed (site : BitVec 4)
  /-- SNAPSHOT (R340): Copies every context's state into CONTEXT_TABLE and advances its generation. -/
  | snapshot (h : Hdr) (polder : BitVec 4) (value : Byte)
  /-- HIST_CLEAR (R144): Zeroes a core's exponent histogram bins. -/
  | histClear (h : Hdr) (core : Byte) (value : Byte)
  /-- INIT (R247): Initialises a polder's key-value cache. -/
  | cacheInit (h : Hdr) (polder : BitVec 4) (value : Byte)
  /-- RESULT_HOLD_EXPIRY (R336): A closing barrier has waited RESULT_HOLD_LIMIT for its slot, and HOST_STALLED is set. -/
  | resultHoldExpiry (ctx : W12)
  /-- ASSOC (R411): A host-transport ASSOC request carries an H1 fragment or reads an H2 fragment. -/
  | assoc (h : HostHdr) (msg : HsPart)
  /-- ASSOC_FINISH (R411): Carries H3 fragments; the last is answered with ASSOC_ACK. -/
  | assocFinish (h : HostHdr) (frag : Fragment)
  /-- ASSOC_CLOSE (R351): Ends a host association. -/
  | assocClose (h : HostHdr)
  /-- ASSOC_IDLE_EXPIRY (R351): An association with no request for ASSOC_IDLE_LIMIT slow cycles is closed. -/
  | assocIdleExpiry (assoc : W32)
  /-- CTX_OPEN (R322): Opens a context after checks and edition negotiation. -/
  | ctxOpen (h : HostHdr) (payload : List Byte)
  /-- CTX_CLOSE (R331): A host request to close a context, tearing it down. -/
  | ctxClose (h : HostHdr)
  /-- SUBMIT (R355): Lands one segment of a work package in memory. -/
  | submit (h : HostHdr) (payload arrived : List Byte)
  /-- PKG_ASSEMBLY_EXPIRY (R355): A package left incomplete for PKG_ASSEMBLY_LIMIT is discarded. -/
  | pkgAssemblyExpiry (ctx : W12) (ordinal : W64)
  /-- GET (R360): Reads bytes of a result slot. -/
  | get (h : HostHdr)
  /-- RELEASE (R361): Frees a READY result slot. -/
  | release (h : HostHdr)
  /-- FABRIC_JOIN (R369): Binds a context to a fabric group. -/
  | fabricJoin (h : HostHdr) (payload : List Byte)
  /-- FRAME_RECEIVE (R346): A port checks an incoming frame, MACsec included, and accepts or drops it; ARP and neighbour replies are sent here. -/
  | frameReceive (port : BitVec 3) (frame : Frame)
  /-- LINK_UP (R345): Negotiation and training complete on a port at the highest common mode. -/
  | linkUp (port : BitVec 3) (peerModes : Byte)
  /-- LINK_LOST (R345): A port link drops and negotiation restarts. -/
  | linkLost (port : BitVec 3)
  /-- AN_RETRY_EXPIRY (R345): After a failed negotiation, the port starts again when AN_RETRY expires. -/
  | anRetryExpiry (port : BitVec 3)
  /-- REKEY (R349): A channel's transmit packet number reaches REKEY_PN, and the handshake runs again. -/
  | rekey (port : BitVec 3) (channel : Byte)
  /-- HS_H1 (R409): Receives a fragment of handshake message H1 on a MACsec or fabric path. -/
  | hsH1 (path : HsPath) (hsId : W16) (frag : Fragment)
  /-- HS_H3 (R409): Receives a fragment of H3; a complete H3 derives the session keys. -/
  | hsH3 (path : HsPath) (hsId : W16) (frag : Fragment)
  /-- HS_H2_REQUEST (R411): An initiator asks again for a missed fragment of H2. -/
  | hsH2Request (path : HsPath) (hsId : W16) (offset : W32)
  /-- H2_SIGNED (R410): The security block finishes signing H2, which can then be sent. -/
  | h2Signed
  /-- HANDSHAKE_IDLE_EXPIRY (R411): A handshake left incomplete for its path's idle limit is abandoned. -/
  | handshakeIdleExpiry (path : HsPath) (hsId : W32)
  /-- FABRIC_PACKET_RX (R374): Receives a fabric PUT, node or result write and checks it before writing. -/
  | fabricPacketRx (p : FabricPacket)
  /-- FABRIC_ABORT_RX (R373): An abort from a member completes the local collective with FSTATUS 2. -/
  | fabricAbortRx (group : W64) (collId : W64)
  /-- FABRIC_RTO_EXPIRY (R372): A fabric packet unacknowledged after RTO is sent again on the escape path. -/
  | fabricRtoExpiry (packet : Unacked)
  /-- ESCAPE_WAIT_EXPIRY (R372): A fabric packet that has waited ESCAPE_WAIT takes the escape path. -/
  | escapeWaitExpiry (packet : Nat)
  /-- REFRESH (R306): A channel performs a refresh at its interval. -/
  | refresh (site channel : BitVec 4)
  /-- TEMP_READING (R312): A stack temperature is read every 10 µs, and the controllers act on it. -/
  | tempReading (site : BitVec 4) (die0 die1 die2 die3 : W32)
  /-- POWER_EVALUATION (R420): Every 40 slow cycles the power manager averages input power and adjusts the clock step. -/
  | powerEvaluation (reading : PowerReading)
  /-- WAKE_WINDOW (R425): Each 160 ns window admits up to four queued core wake-ups. -/
  | wakeWindow
  /-- SITE_START (R426): A site start is admitted, one per 2 µs. -/
  | siteStart
  /-- SITE_SETTLED (R426): A started site's PLL locks and its VCORE settles, and its cores queue as wake-ups. -/
  | siteSettled (site : BitVec 4)
  /-- WAKE_TIMEOUT (R427): A context whose cores are not all in RUN within WAKE_LIMIT faults and is torn down. -/
  | wakeTimeout (ctx : W12)
  /-- NAP_ENTRY (R424): A core idle for NAP_DELAY enters NAP. -/
  | napEntry (core : Byte)
  /-- SLEEP_ENTRY (R424): A site whose cores have napped for SLEEP_DELAY enters SLEEP. -/
  | sleepEntry (site : BitVec 4)
  /-- PWROK (R429): PWROK is asserted, and the 6 V bus and VH12 start. -/
  | pwrok
  /-- INPUT_LOSS (R430): PWROK goes low or VIN48 drops, and the rails other than VAON turn off. -/
  | inputLoss (vaonOff : Bool)
  /-- INPUT_LOW (R430): VIN48 lies between 38 V and 40 V, and INPUT_LOW is set. -/
  | inputLow
  /-- RESET (R430): RESET_N asserted resets the Ikiroth once any started batch completes. -/
  | resetN
  /-- BOOT (R403): On reset release the ROM verifies the factory record and rollback record, chooses an image and boots a mode. -/
  | boot
  /-- NV_BATCH (R400): A nonvolatile batch is started after a freeboard check, or deferred. -/
  | nvBatch (reading : HoldReading)
  /-- NV_BATCH_DONE (R401): A started batch completes, from VHOLD if the input has failed. -/
  | nvBatchDone
  /-- FW_IMAGE (R405): Writes a firmware image into the inactive slot. -/
  | fwImage (h : Hdr) (offset : BitVec 31) (last : Bool) (data : List Byte)
  /-- FW_ACTIVATE (R405): Checks the new image and records it as the trial slot. -/
  | fwActivate (h : Hdr) (value : Byte)
  /-- FW_COMMIT (R405): Makes the trial slot active and raises the rollback counter. -/
  | fwCommit (h : Hdr) (value : Byte)
  /-- OWNER_KEY (R407): Enrols the owner key on an unenrolled part. -/
  | ownerKey (h : Hdr) (key : BitVec 512)
  /-- OWNER_RELEASE (R407): Dissolves polders, erases seal keys and kept entries, and unenrols the owner. -/
  | ownerRelease (h : Hdr) (value : Byte)
  /-- CREDENTIAL_EPOCH (R408): Raises the credential epoch, revoking older credentials. -/
  | credentialEpoch (h : Hdr) (epoch : W32)
  /-- FABRIC_CREDENTIAL (R412): Checks and stores this Ikiroth's fabric credential. -/
  | fabricCredential (h : Hdr) (offset : BitVec 31) (last : Bool) (data : List Byte)
  /-- SEAL_INSTALL (R413): Fills a polder's seal slot from an ML-KEM ciphertext and a credential. -/
  | sealInstall (h : Hdr) (polder : BitVec 4) (offset : BitVec 31) (last : Bool) (data : List Byte)
  /-- SEAL_CLEAR (R413): Erases the seal slot written. -/
  | sealClear (h : Hdr) (polder : BitVec 4) (slot : Byte)
  /-- ATTEST_NONCE (R416): Starts a signed attestation report over the nonce. -/
  | attestNonce (h : Hdr) (nonce : BitVec 256)
  /-- ATTEST_SIGNED (R416): The attestation report is signed, and ATTESTATION's generation advances. -/
  | attestSigned
  /-- ALERT_N_RELEASE (R32): ALERT_N is released in the slow cycle after the last enabled flag is cleared or disabled. -/
  | alertNRelease
  /-- MGMT_LINK_CHANGE (R41): The 10BASE-T1S management PHY gains or loses link, which changes MGMT_LINK_UP. -/
  | mgmtLinkChange (up : Bool)
  /-- PLCA_BEACON (R42): A PLCA beacon on the management segment, at which a newly written node ID takes effect. -/
  | plcaBeacon
  /-- NEGOTIATION_FAILED (R345): Auto-negotiation or link training fails on a port, and the AN_RETRY wait starts. -/
  | negotiationFailed (port : BitVec 3)
  /-- NAP_WAKE_DONE (R425): A core admitted from NAP reaches RUN 400 ns after its admission. -/
  | napWakeDone (core : Byte)
  /-- V_WIN_DONE (R155): A V.WIN completes after KH·KW + 12 fast cycles, freeing its pipe and its read footprint under R65. -/
  | vWinDone (core : Byte) (pipe : Bool)
  /-- VAON_UP (R429): VIN48 is applied, VAON comes up and VHOLD starts charging. -/
  | vaonUp
  deriving DecidableEq, Repr

end Sys2Proof
end

