-- ==== Sys2Proof/Decode.lean ====
section
/-! DEFINITION. The command that a word spells by the opcode table's bits. The table gives no row any bits: commands come
as records with their operands, not as words, so no word spells one. -/

namespace Sys2Proof

/-- No row of the table has an encoding. (DESIGN CHOICE: log entry 12) -/
def decodeTableWord (_nbits _w : Nat) : Option Instr := none

end Sys2Proof
end

