-- ==== Sys2Proof/Machine/Fp.lean ====
section
/-! DEFINITION. Number formats and their arithmetic (05_formats_meridian.md, R99 to R123; R162): every value is taken
exactly, as a sign, a natural number and a power of two, and rounded once. -/

namespace Sys2Proof.Machine

/-- The numeric events of R125 that one result element raises; `disc` counts the groups that lose a bit. -/
structure Ev where
  sat : Bool := false
  e4nan : Bool := false
  ovf : Bool := false
  nanc : Bool := false
  disc : Nat := 0
  clamp : Bool := false
  deriving DecidableEq, Repr

def Ev.merge (a b : Ev) : Ev :=
  { sat := a.sat || b.sat, e4nan := a.e4nan || b.e4nan, ovf := a.ovf || b.ovf, nanc := a.nanc || b.nanc,
    disc := a.disc + b.disc, clamp := a.clamp || b.clamp }

/-- Occurrences of the six events of R125, summed over result elements. -/
structure Tally where
  sat : Nat := 0
  e4nan : Nat := 0
  ovf : Nat := 0
  nanc : Nat := 0
  disc : Nat := 0
  clamp : Nat := 0
  deriving DecidableEq, Repr

/-- One element's events join the tally: each at most once, `DISCARDED` once for each group (R125). -/
def Tally.add (t : Tally) (e : Ev) : Tally :=
  { sat := t.sat + e.sat.toNat, e4nan := t.e4nan + e.e4nan.toNat, ovf := t.ovf + e.ovf.toNat,
    nanc := t.nanc + e.nanc.toNat, disc := t.disc + e.disc, clamp := t.clamp + e.clamp.toNat }

def Tally.plus (a b : Tally) : Tally :=
  { sat := a.sat + b.sat, e4nan := a.e4nan + b.e4nan, ovf := a.ovf + b.ovf, nanc := a.nanc + b.nanc,
    disc := a.disc + b.disc, clamp := a.clamp + b.clamp }

def Tally.ofEvs (es : List Ev) : Tally := es.foldl Tally.add {}

/-- A floating-point format (R99, R100). `maxCode` is the code of the largest finite magnitude, `infCode` that of
infinity where the format has one, `nanCode` the NaN the Ikiroth writes where it has one. -/
structure Fmt where
  bits : Nat
  mant : Nat
  bias : Nat
  maxCode : Nat
  infCode : Option Nat
  nanCode : Option Nat
  deriving DecidableEq, Repr

def fp32 : Fmt := ⟨32, 23, 127, 0x7F7FFFFF, some 0x7F800000, some 0x7FC00000⟩
def bf16 : Fmt := ⟨16, 7, 127, 0x7F7F, some 0x7F80, some 0x7FC0⟩
def fp16 : Fmt := ⟨16, 10, 15, 0x7BFF, some 0x7C00, some 0x7E00⟩
def e5m2 : Fmt := ⟨8, 2, 15, 0x7B, some 0x7C, some 0x7E⟩
def e4m3 : Fmt := ⟨8, 3, 7, 0x7E, none, some 0x7F⟩
def e2m1 : Fmt := ⟨4, 1, 1, 7, none, none⟩

/-- The exact value of a code (R99 to R101): NaN, an infinity, or ± m · 2^e. -/
inductive Fv where
  | nan
  | inf (neg : Bool)
  | fin (neg : Bool) (m : Nat) (e : Int)
  deriving DecidableEq, Repr

/-- The value of a code of a format (R99, R100). -/
def Fmt.decode (f : Fmt) (code : Nat) : Fv :=
  let sgn := code >>> (f.bits - 1) % 2 == 1
  let mag := code % 2 ^ (f.bits - 1)
  if mag ≤ f.maxCode then
    let ex := mag >>> f.mant
    let fr := mag % 2 ^ f.mant
    if ex = 0 then .fin sgn fr (1 - (f.bias : Int) - f.mant)
    else .fin sgn (2 ^ f.mant + fr) ((ex : Int) - f.bias - f.mant)
  else if f.infCode = some mag then .inf sgn
  else .nan

/-- The rounding modes of R119 and R120: nearest even, toward zero, stochastic with the 12-bit `u`. -/
inductive Rnd where
  | near
  | zero
  | stoch (u : Nat)
  deriving DecidableEq, Repr

/-- The rounding mode of a conversion with the u of an element (R119, R120). -/
def rndOf (rnd u : Nat) : Rnd :=
  match rnd with
  | 0 => .near
  | 1 => .zero
  | _ => .stoch u

/-- Whether the discarded part `rem` of `2^sh` units rounds the magnitude up (R119, R120). -/
def Rnd.up (r : Rnd) (k rem sh : Nat) : Bool :=
  match r with
  | .near => rem * 2 > 2 ^ sh || (rem * 2 == 2 ^ sh && k % 2 == 1)
  | .zero => false
  | .stoch u => rem * 4096 / 2 ^ sh + u ≥ 4096

/-- The magnitude code of m · 2^e rounded with an unbounded exponent range above the largest finite value and the
subnormal spacing below the smallest normal (R119); a code above `maxCode` overflows. -/
def Fmt.roundMag (f : Fmt) (r : Rnd) (m : Nat) (e : Int) : Nat :=
  if m = 0 then 0 else
    let q : Int := max ((m.log2 : Int) + e) (1 - (f.bias : Int)) - f.mant
    let ef : Nat := (q + f.mant + f.bias).toNat
    let k : Nat :=
      if q ≤ e then m * 2 ^ (e - q).toNat
      else
        let sh := (q - e).toNat
        -- far below the smallest step, every mode rounds to zero
        if m.log2 + 16 < sh then 0
        else
          let k0 := m / 2 ^ sh
          if r.up k0 (m % 2 ^ sh) sh then k0 + 1 else k0
    (ef - 1) * 2 ^ f.mant + k

def Fmt.sign (f : Fmt) (neg : Bool) (mag : Nat) : Nat := if neg then 2 ^ (f.bits - 1) + mag else mag

/-- Whether a wider format holds every value of a format exactly (R119). -/
def Fmt.widens (a b : Fmt) : Bool := a.bits < b.bits && a.mant ≤ b.mant && a.bias ≤ b.bias

/-- What an overflow of a format gives (R121, R122, R123): `sat4` says that E4M3 saturates; E2M1 always does. -/
def Fmt.overflow (f : Fmt) (r : Rnd) (sat4 neg fromInf : Bool) : Nat × Ev :=
  match f.infCode with
  | some i =>
    (f.sign neg (if r = .zero then f.maxCode else i), if fromInf then {} else { ovf := true })
  | none =>
    match f.nanCode with
    | some n => if sat4 then (f.sign neg f.maxCode, { sat := true }) else (n, { e4nan := true })
    | none => (f.sign neg f.maxCode, { sat := true })

/-- An exact finite value rounded once to a format (R119 to R121). -/
def Fmt.round (f : Fmt) (r : Rnd) (sat4 neg : Bool) (m : Nat) (e : Int) : Nat × Ev :=
  let k := f.roundMag r m e
  if k ≤ f.maxCode then (f.sign neg k, {}) else f.overflow r sat4 neg false

def Fmt.nan (f : Fmt) : Nat := f.nanCode.getD 0

/-- A conversion of a value to a format (R119 to R121, R103): an infinite source is an overflow of its sign, a NaN
source the format's NaN. -/
def Fmt.convert (f : Fmt) (r : Rnd) (sat4 : Bool) : Fv → Nat × Ev
  | .nan => (f.nan, {})
  | .inf n => f.overflow r sat4 n true
  | .fin n m e => f.round r sat4 n m e

/-- An arithmetic result written to a format: an exact infinity is written as ±infinity in every mode and is no
overflow (R121, R171); where the format has none (E4M3) it is an overflow (R176). -/
def Fmt.write (f : Fmt) (r : Rnd) (sat4 : Bool) : Fv → Nat × Ev
  | .nan => (f.nan, {})
  | .inf n => match f.infCode with
    | some i => (f.sign n i, {})
    | none => f.overflow r sat4 n true
  | .fin n m e => f.round r sat4 n m e

/-- A finite value rounded to an MX element format: an overflow takes the largest finite value, whatever the format and
the E4M3 mode (R123). -/
def Fmt.saturate (f : Fmt) (r : Rnd) : Fv → Nat × Ev
  | .fin n m e =>
    let k := f.roundMag r m e
    if k ≤ f.maxCode then (f.sign n k, {}) else (f.sign n f.maxCode, { sat := true })
  | v => f.convert r true v

/-- +0. -/
def zeroFv : Fv := .fin false 0 0

/-! ### Exact operations on values -/

def Fv.neg : Fv → Fv
  | .nan => .nan
  | .inf n => .inf (!n)
  | .fin n m e => .fin (!n) m e

def Fv.isNan : Fv → Bool
  | .nan => true
  | _ => false

def Fv.isInf : Fv → Bool
  | .inf _ => true
  | _ => false

def Fv.isZero : Fv → Bool
  | .fin _ m _ => m == 0
  | _ => false

def Fv.isFinite : Fv → Bool
  | .fin _ _ _ => true
  | _ => false

def Fv.isNeg : Fv → Bool
  | .fin n _ _ => n
  | .inf n => n
  | .nan => false

/-- A signed integer multiple of 2^e. -/
def Fv.ofInt (z : Int) (e : Int) : Fv := .fin (z < 0) z.natAbs e

def signedMant (n : Bool) (m : Nat) : Int := if n then -(m : Int) else m

/-- The exact sum (IEEE 754): opposite infinities give NaN; an exact zero is +0 but for (−0) + (−0) (R105, R171). -/
def Fv.add : Fv → Fv → Fv
  | .nan, _ => .nan
  | _, .nan => .nan
  | .inf a, .inf b => if a = b then .inf a else .nan
  | .inf a, _ => .inf a
  | _, .inf b => .inf b
  | .fin n1 m1 e1, .fin n2 m2 e2 =>
    if m1 = 0 ∧ m2 = 0 then .fin (n1 && n2) 0 0
    else
      let e := min e1 e2
      let z := signedMant n1 m1 * 2 ^ (e1 - e).toNat + signedMant n2 m2 * 2 ^ (e2 - e).toNat
      if z = 0 then .fin false 0 0 else Fv.ofInt z e

/-- The exact product (R110 `product`): infinity times zero is NaN, zeros are signed. -/
def Fv.mul : Fv → Fv → Fv
  | .nan, _ => .nan
  | _, .nan => .nan
  | .inf a, .inf b => .inf (a != b)
  | .inf a, .fin n m _ => if m = 0 then .nan else .inf (a != n)
  | .fin n m _, .inf b => if m = 0 then .nan else .inf (n != b)
  | .fin n1 m1 e1, .fin n2 m2 e2 => .fin (n1 != n2) (m1 * m2) (e1 + e2)

/-- The quotient, to 64 bits and a sticky bit: what one correct rounding to FP32 needs (R162 div32). -/
def Fv.div : Fv → Fv → Fv
  | .nan, _ => .nan
  | _, .nan => .nan
  | .inf _, .inf _ => .nan
  | .inf a, .fin n _ _ => .inf (a != n)
  | .fin n _ _, .inf b => .fin (n != b) 0 0
  | .fin n1 m1 e1, .fin n2 m2 e2 =>
    if m2 = 0 then (if m1 = 0 then .nan else .inf (n1 != n2))
    else if m1 = 0 then .fin (n1 != n2) 0 0
    else
      let sh := 64 + m2.log2
      let q := m1 * 2 ^ sh / m2
      let r := m1 * 2 ^ sh % m2
      .fin (n1 != n2) (2 * q + (if r = 0 then 0 else 1)) (e1 - e2 - sh - 1)

/-- The integer part of a square root, bit by bit from the highest. -/
def isqrt (n : Nat) : Nat :=
  (List.range (n.log2 / 2 + 1)).foldr (fun i r => if (r + 2 ^ i) * (r + 2 ^ i) ≤ n then r + 2 ^ i else r) 0

/-- The square root, to over 64 bits and a sticky bit (R291 sqrt32). -/
def Fv.sqrt : Fv → Fv
  | .nan => .nan
  | .inf n => if n then .nan else .inf false
  | .fin n m e =>
    if m = 0 then .fin n 0 0
    else if n then .nan
    else
      let par : Nat := (e % 2).toNat
      let m' := m * 2 ^ (par + 160)
      let q := isqrt m'
      .fin false (2 * q + (if q * q = m' then 0 else 1)) ((e - par - 160) / 2 - 1)

/-- Comparison of two finite or infinite values as reals; zeros are equal. -/
def Fv.toCmp : Fv → Int × Int
  | .nan => (0, 0)
  | .inf n => (if n then -1 else 1, 0)
  | .fin n m e => (signedMant n m, e)

def Fv.lt (a b : Fv) : Bool :=
  match a, b with
  | .nan, _ => false
  | _, .nan => false
  | .inf x, .inf y => x && !y
  | .inf x, _ => x
  | _, .inf y => !y
  | .fin n1 m1 e1, .fin n2 m2 e2 =>
    let e := min e1 e2
    signedMant n1 m1 * 2 ^ (e1 - e).toNat < signedMant n2 m2 * 2 ^ (e2 - e).toNat

def Fv.eq (a b : Fv) : Bool := !a.isNan && !b.isNan && !a.lt b && !b.lt a

def Fv.le (a b : Fv) : Bool := a.lt b || a.eq b

/-- Largest in the order of R172 with −0 below +0, for values that are not NaN. -/
def Fv.max2 (a b : Fv) : Fv :=
  if a.isNan || b.isNan then .nan
  else if a.lt b then b
  else if b.lt a then a
  else if a.isNeg then b else a

def Fv.min2 (a b : Fv) : Fv :=
  if a.isNan || b.isNan then .nan
  else if a.lt b then a
  else if b.lt a then b
  else if a.isNeg then a else b

def Fv.abs : Fv → Fv
  | .nan => .nan
  | .inf _ => .inf false
  | .fin _ m e => .fin false m e

/-- ⌊log₂ |v|⌋ of a nonzero finite value. -/
def Fv.exponent : Fv → Int
  | .fin _ m e => (m.log2 : Int) + e
  | _ => 0

def Fv.scale (v : Fv) (k : Int) : Fv :=
  match v with
  | .fin n m e => .fin n m (e + k)
  | x => x

/-- ⌊v⌋ of a finite value. -/
def Fv.floor : Fv → Int
  | .fin n m e =>
    if 0 ≤ e then signedMant n m * 2 ^ e.toNat else Int.fdiv (signedMant n m) (2 ^ (-e).toNat)
  | _ => 0

/-! ### FP32 operations, each rounded once to nearest even (R105, R162) -/

def fv32 (x : W32) : Fv := fp32.decode x.toNat

/-- A result of an FP32 operation on `args`, with its events: NaN from operands that held none, finite overflow. -/
def write32 (args : List Fv) (v : Fv) : W32 × Ev :=
  let r := fp32.write .near true v
  (BitVec.ofNat 32 r.1,
    { r.2 with nanc := v.isNan && !args.any Fv.isNan })

/-- add32 (R105). -/
def add32 (x y : W32) : W32 × Ev := write32 [fv32 x, fv32 y] ((fv32 x).add (fv32 y))

/-- sub32 (R162). -/
def sub32 (x y : W32) : W32 × Ev := write32 [fv32 x, fv32 y] ((fv32 x).add (fv32 y).neg)

/-- mul32 (R162). -/
def mul32 (x y : W32) : W32 × Ev := write32 [fv32 x, fv32 y] ((fv32 x).mul (fv32 y))

/-- div32 (R162). -/
def div32 (x y : W32) : W32 × Ev := write32 [fv32 x, fv32 y] ((fv32 x).div (fv32 y))

/-- fma32 (R162): x·y + z rounded once. -/
def fma32 (x y z : W32) : W32 × Ev :=
  write32 [fv32 x, fv32 y, fv32 z] (((fv32 x).mul (fv32 y)).add (fv32 z))

/-- sqrt32 (R291). -/
def sqrt32 (x : W32) : W32 × Ev := write32 [fv32 x] (fv32 x).sqrt

def neg32 (x : W32) : W32 := x ^^^ 0x80000000#32

/-- −x in an exact sum keeps a NaN a NaN; `fma32(-x, …)` of R185 and R291. -/
def isNan32 (x : W32) : Bool := (fv32 x).isNan

def isInf32 (x : W32) : Bool := (fv32 x).isInf

/-- The largest of two FP32 values as `V.MAX` of R172 gives it. -/
def max32 (x y : W32) : W32 :=
  if isNan32 x || isNan32 y then 0x7FC00000#32
  else if (fv32 x).lt (fv32 y) then y
  else if (fv32 y).lt (fv32 x) then x
  else if (fv32 x).isNeg then y else x

def lt32 (x y : W32) : Bool := (fv32 x).lt (fv32 y)

/-- An unsigned integer as FP32, rounded to nearest even. -/
def ofNat32 (n : Nat) : W32 := BitVec.ofNat 32 (fp32.round .near true false n 0).1

/-- A conversion of FP32 bits to a format (R119 to R121). -/
def narrow (f : Fmt) (r : Rnd) (sat4 : Bool) (x : W32) : Nat × Ev := f.convert r sat4 (fv32 x)

/-- An exact widening of a code to FP32 (R119); a NaN becomes 0x7FC00000 (R103). -/
def widen (f : Fmt) (code : Nat) : W32 :=
  if f = fp32 then (if (fp32.decode code).isNan then 0x7FC00000#32 else BitVec.ofNat 32 code)
  else BitVec.ofNat 32 (fp32.write .near true (f.decode code)).1

/-! ### Integers of I32 (R173) -/

/-- A value rounded to an integer under nearest even or toward zero, clamped to I32; a NaN gives 0. -/
def toI32 (r : Rnd) : Fv → W32
  | .nan => 0
  | .inf n => if n then 0x80000000#32 else 0x7FFFFFFF#32
  | .fin n m e =>
    let k : Nat :=
      if 0 ≤ e then m * 2 ^ e.toNat
      else
        let sh := (-e).toNat
        let k0 := m / 2 ^ sh
        if r.up k0 (m % 2 ^ sh) sh then k0 + 1 else k0
    if n then (if k > 2 ^ 31 then 0x80000000#32 else BitVec.ofInt 32 (-(k : Int)))
    else (if k ≥ 2 ^ 31 then 0x7FFFFFFF#32 else BitVec.ofNat 32 k)

end Sys2Proof.Machine
end

