-- ==== Sys2Proof/Machine/Func.lean ====
section
/-! DEFINITION. exp2 and log2 (08_vector_functions.md, R175 to R180) and the tables that follow from their definitions,
computed on integers scaled by a power of two. Where the manual asks for the exact value rounded once (R177, R269,
R275), the value is carried to 2^-200, far below what any rounding of the destination formats can ask for. -/

namespace Sys2Proof.Machine

/-- The number of fraction bits the tables are computed with. -/
def tblBits : Nat := 240

def tblOne : Nat := 2 ^ tblBits

/-- ln 2 · 2^240, from Σ 1/(k·2^k). -/
def ln2Fix : Nat := (List.range 260).foldl (fun a k => a + tblOne / ((k + 1) * 2 ^ (k + 1))) 0

/-- a·b at the tables' scale. -/
def mulFix (a b : Nat) : Nat := a * b / tblOne

/-- e^x at the tables' scale for 0 ≤ x < 1, by its power series. -/
def expFix (x : Nat) : Nat :=
  ((List.range 70).foldl (fun (st : Nat × Nat) k => (st.1 + st.2, st.2 * x / tblOne / (k + 1))) (0, tblOne)).1

/-- 2^f at the tables' scale for 0 ≤ f < 1. -/
def exp2Fix (f : Nat) : Nat := expFix (mulFix f ln2Fix)

/-- atanh(z) at the tables' scale for 0 ≤ z ≤ 1/3. -/
def atanhFix (z : Nat) : Nat :=
  let z2 := mulFix z z
  ((List.range 80).foldl (fun (st : Nat × Nat) k => (st.1 + st.2 / (2 * k + 1), mulFix st.2 z2)) (0, z)).1

/-- ln x at the tables' scale for x from 1 to 2: 2·atanh((x − 1)/(x + 1)). -/
def lnFix (x : Nat) : Nat := 2 * atanhFix ((x - tblOne) * tblOne / (x + tblOne))

/-- log₂ x at the tables' scale for x from 1 to 2. -/
def log2Fix (x : Nat) : Nat := lnFix x * tblOne / ln2Fix

/-- The nearest integer to a·2^(bits − 240). (DEDUCED: log entry 15) -/
def nearestAt (a bits : Nat) : Nat := (a / 2 ^ (tblBits - bits - 1) + 1) / 2

/-- T[i] of R178: the nearest integer to 2^(62 + i/64). -/
def expT (i : Nat) : Nat := nearestAt (exp2Fix (tblOne * i / 64)) 62

/-- C[k] of R178: the nearest integer to (ln 2)^k / k! · 2^62. -/
def expC (k : Nat) : Nat :=
  nearestAt ((List.range k).foldl (fun a j => mulFix a ln2Fix / (j + 1)) tblOne) 62

/-- LS[i] of R179: the nearest integer to log₂(1 + i/64) · 2^62. -/
def logLS (i : Nat) : Nat := nearestAt (log2Fix (tblOne + tblOne * i / 64)) 62

/-- RC[i] of R179: the nearest integer to 2^62 / (1 + i/64). -/
def logRC (i : Nat) : Nat := (2 * 2 ^ 62 * 64 / (64 + i) + 1) / 2

/-- B[k] of R179: the nearest integer to 2^62 / (k · ln 2). -/
def logB (k : Nat) : Nat := nearestAt (tblOne * tblOne / (k * ln2Fix)) 62

/-- `exp2_fp32` of R178, for FP32 values that are finite and not zero. -/
def exp2Fp32 (v : Fv) (r : Rnd) : Nat × Ev :=
  if (Fv.fin false 128 0).le v then fp32.round r true false 1 128
  else if v.lt (.fin true 160 0) then (0, {})
  else
    let n := v.floor
    let ff := ((v.add (Fv.ofInt (-n) 0)).scale 62).floor.toNat
    let i := ff / 2 ^ 56
    let rr := ff % 2 ^ 56
    let h := [3, 2, 1].foldl (fun h k => expC k + h * rr / 2 ^ 62) (expC 4)
    let p := 2 ^ 62 + h * rr / 2 ^ 62
    let m := expT i * p / 2 ^ 62
    let m := if i < 63 then min m (expT (i + 1)) else min m (2 ^ 63 - 1)
    fp32.round r true false m (n - 62)

/-- `log2_fp32` of R179, for finite FP32 values above zero. -/
def log2Fp32 (v : Fv) (r : Rnd) : Nat × Ev :=
  match v with
  | .fin _ m0 e0 =>
    let e : Int := (m0.log2 : Int) + e0
    let m := m0 * 2 ^ (62 - m0.log2)
    let i := m / 2 ^ 56 - 64
    let d := m - 2 ^ 62 - i * 2 ^ 56
    let t := d * logRC i / 2 ^ 62
    let h := [6, 5, 4, 3, 2, 1].foldl (fun h k => logB k - h * t / 2 ^ 62) (logB 7)
    let y := h * t / 2 ^ 62
    let y := if i < 63 then min y (logLS (i + 1) - logLS i) else min y (2 ^ 62 - 1 - logLS 63)
    let z : Int := e * 2 ^ 62 + ((logLS i + y : Nat) : Int)
    if z = 0 then (0, {}) else fp32.round r true (z < 0) z.natAbs (-62)
  | _ => (0, {})

/-- 2^v exactly where v is an integer, else to 2^-200 with a sticky bit, as a value (R177). (DEDUCED: log entry 15) -/
def exp2Exact (v : Fv) : Fv :=
  let n := v.floor
  let frac := v.add (Fv.ofInt (-n) 0)
  if frac.isZero then .fin false 1 n
  else if n > 400 then .fin false 1 400
  else if n < -400 then .fin false 1 (-400)
  else
    -- below 2^-230 a fraction is carried as the smallest step of the scale
    let f := max 1 (frac.scale tblBits).floor.toNat
    .fin false (exp2Fix f / 2 ^ 20 * 2 + 1) (n - (tblBits : Int) + 19)

/-- log₂ v of a value above zero: exact where v is a power of two, else to 2^-200 with a sticky bit (R177).
(DEDUCED: log entry 15) -/
def log2Exact (v : Fv) : Fv :=
  match v with
  | .fin _ m e =>
    let ex : Int := (m.log2 : Int) + e
    if m = 2 ^ m.log2 then Fv.ofInt ex 0
    else
      let x := m * 2 ^ (tblBits - m.log2)
      let l : Int := (log2Fix x / 2 ^ 20 : Nat)
      Fv.ofInt ((ex * 2 ^ (tblBits - 20) + l) * 2 + 1) (-((tblBits : Int) - 20) - 1)
  | _ => .nan

/-- The output precision of `V.EXP2` and `V.LOG2` (R175): that of `TYPE`, or by `OFMT`. -/
def precisionOf (lane : Fmt) (ofmt : Nat) : Fmt :=
  match ofmt with
  | 1 => bf16
  | 2 => fp16
  | 3 => e4m3
  | 4 => e5m2
  | _ => lane

/-- A result rounded to the output precision and written in the lane format (R175 to R177). An E4M3 NaN is written as
the lane's NaN. -/
def inLane (lane prec : Fmt) (r : Rnd) (sat4 : Bool) (v : Fv) : Nat × Ev :=
  let a := prec.write r sat4 v
  if prec = lane then a
  else ((lane.write .near true (prec.decode a.1)).1, a.2)

/-- `V.EXP2` of one element (R175 to R178). -/
def exp2Elem (lane : Fmt) (ofmt : Nat) (r : Rnd) (sat4 : Bool) (code : Nat) : Nat × Ev :=
  let v := lane.decode code
  let prec := precisionOf lane ofmt
  match v with
  | .nan => (lane.nan, {})
  | .inf n => inLane lane prec r sat4 (if n then .fin false 0 0 else .inf false)
  | .fin _ m _ =>
    if m = 0 then inLane lane prec r sat4 (.fin false 1 0)
    else if prec = fp32 then exp2Fp32 v r
    else inLane lane prec r sat4 (exp2Exact v)

/-- `V.LOG2` of one element (R175 to R177, R179). -/
def log2Elem (lane : Fmt) (ofmt : Nat) (r : Rnd) (sat4 : Bool) (code : Nat) : Nat × Ev :=
  let v := lane.decode code
  let prec := precisionOf lane ofmt
  match v with
  | .nan => (lane.nan, {})
  | .inf n => if n then (lane.nan, { nanc := true }) else inLane lane prec r sat4 (.inf false)
  | .fin n m _ =>
    if m = 0 then inLane lane prec r sat4 (.inf true)
    else if n then (lane.nan, { nanc := true })
    else if prec = fp32 then log2Fp32 v r
    else inLane lane prec r sat4 (log2Exact v)

/-- exp2 of FP32 bits rounded to a short format, nearest even, as its code (R215, R274). -/
def exp2Short (prec : Fmt) (x : W32) : Nat × Ev :=
  match fv32 x with
  | .nan => (prec.nan, {})
  | .inf n => prec.write .near true (if n then .fin false 0 0 else .inf false)
  | .fin n m e => if m = 0 then prec.write .near true (.fin false 1 0)
                  else prec.write .near true (exp2Exact (.fin n m e))

/-! ### The normal and noise tables (R269, R275) -/

/-- π at the tables' scale. -/
def piFix : Nat :=
  -- 16·atan(1/5) − 4·atan(1/239)
  let atanInv (k : Nat) : Int :=
    ((List.range 180).foldl (fun (st : Int × Nat) j =>
      (st.1 + (if j % 2 = 0 then 1 else -1) * ((st.2 / (2 * j + 1) : Nat) : Int), st.2 / (k * k)))
      ((0 : Int), tblOne / k)).1
  (16 * atanInv 5 - 4 * atanInv 239).toNat

/-- √(2π) at the tables' scale. -/
def sqrt2PiFix : Nat := isqrt (2 * piFix * tblOne)

/-- Φ(x) − 1/2 at the tables' scale for 0 ≤ x < 8 (x at the tables' scale): the series of the normal integral,
φ(x)·Σ x^(2k+1)/(1·3·5···(2k+1)), with φ from e^(−x²/2) and 1/√(2π). -/
def phiHalf (x : Nat) : Nat :=
  let x2 := mulFix x x
  let sum := ((List.range 200).foldl (fun (st : Nat × Nat) k =>
    (st.1 + st.2, mulFix st.2 x2 / (2 * k + 3))) (0, x)).1
  -- e^(−x²/2) · sum / √(2π), with e^(−y) = 1 / e^y taken over whole and fractional parts
  let y := x2 / 2
  let ey := (List.range (y / tblOne)).foldl (fun a _ => mulFix a (mulFix (expFix (tblOne / 2)) (expFix (tblOne / 2))))
    (expFix (y % tblOne))
  sum * tblOne / sqrt2PiFix * tblOne / ey

/-- Φ⁻¹(1/2 + p) at the tables' scale for 0 ≤ p < 1/2, by bisection over [0, 8). -/
def phiInv (p : Nat) : Nat :=
  (List.range (tblBits - 60)).foldl (fun lo k =>
    let mid := lo + 8 * tblOne / 2 ^ (k + 1)
    if phiHalf mid ≤ p then mid else lo) 0

/-- A magnitude at the tables' scale as the nearest FP32, with a sign. -/
def fixToFp32 (neg : Bool) (a : Nat) : W32 :=
  BitVec.ofNat 32 (fp32.round .near true neg a (-(tblBits : Int))).1

/-- Φ⁻¹(k/8192) as a signed integer at the tables' scale. -/
def phiInvAt (k : Nat) : Int :=
  if 4096 ≤ k then (phiInv (tblOne * (k - 4096) / 8192) : Int) else -(phiInv (tblOne * (4096 - k) / 8192) : Int)

/-- N[i] of R269. (DEDUCED: log entry 15) -/
def normalN (i : Nat) : W32 :=
  let z := phiInvAt (2 * i + 1)
  fixToFp32 (z < 0) z.natAbs

/-- S[i] of R269. (DEDUCED: log entry 15) -/
def normalS (i : Nat) : W32 :=
  let i := if i = 0 ∨ i ≥ 4095 then 1 else i
  fixToFp32 false (phiInvAt (2 * i + 2) - phiInvAt (2 * i)).natAbs

/-- ln of a positive number at the tables' scale, as a signed integer at that scale. -/
def lnAny (x : Nat) : Int :=
  let k := x.log2
  let m := if k ≤ tblBits then x * 2 ^ (tblBits - k) else x / 2 ^ (k - tblBits)
  (lnFix m : Int) + ((k : Int) - tblBits) * ln2Fix

/-- G[i] of R275: −ln(−ln((i + 0.5)/4,096)). (DEDUCED: log entry 15) -/
def gumbelG (i : Nat) : W32 :=
  let l := (-(lnAny (tblOne * (2 * i + 1) / 8192))).toNat
  let z := -(lnAny l)
  fixToFp32 (z < 0) z.natAbs

end Sys2Proof.Machine
end

