-- ==== Sys2Proof/Config.lean ====
section
/-! DEFINITION. What an implementation fixes, and the free values: constants without a body, of which nothing can be
proved but that they are functions. A statement about the model holds whatever they are. -/

namespace Sys2Proof.Config

/-- The value the spec leaves open at the `n`-th such point of a run, which `State.free` counts.
(DESIGN CHOICE: log entry 2) -/
opaque freeBits (w : Nat) (n : Nat) : BitVec w

/-- What a timing-driven counter shows at a reading, by the entry's key and the free-value counter.
(DESIGN CHOICE: log entry 3) -/
opaque timedValue (key : Nat) (n : Nat) : W64

/-- The bundles of a library routine by its number (R442): the fixed sequence of the part's `FUNC_VERSION`, which the
manual does not print (DESIGN CHOICE: log entry 4). -/
opaque routineBundles (n : Nat) : List (BitVec 1024)

/-- What the end record of the directory of `FUNC_ROUTINES` holds beside its number (R442; log entry 4). -/
opaque routineEnd : BitVec 48

/-- SLH-DSA verification (FIPS 205, named by R397 and R408; log entry 5): public key, message, signature. -/
opaque slhVerify (key msg sig : List Byte) : Bool

/-- SLH-DSA-SHA2-256f key generation from SK.seed, SK.prf and PK.seed (FIPS 205, named by R396; log entry 5): the public
key, 64 bytes. -/
opaque slhPublic (skSeed skPrf pkSeed : BitVec 256) : BitVec 512

/-- SLH-DSA-SHA2-256f signature by the key of those seeds (R396, R409, R416; log entry 5): 49,856 bytes. -/
opaque slhSign (skSeed skPrf pkSeed : BitVec 256) (msg : List Byte) : List Byte

/-- ML-KEM-1024 key generation from the seeds d and z (FIPS 203, named by R396; log entry 5): the encapsulation key, 1,568
bytes. -/
opaque kemPublic (d z : BitVec 256) : List Byte

/-- The bytes of a factory record, whose layout the manual does not give (R397; log entry 5): serial, disabled-unit map,
trims, MAC addresses, PUF helper data. -/
opaque factoryBytes (serial : BitVec 128) (disabled : List Nat) (trims : List Byte) (macs : List (BitVec 48))
    (helper : List Byte) : List Byte

/-- The vendor's signature over the factory record of a part (R397; log entry 5). -/
opaque factorySig (serial : BitVec 128) : List Byte

/-- The device certificate over what it holds (R397; log entry 5): serial, order code, the two public keys, the SHA-256
digest of the factory record. -/
opaque deviceCert (serial : BitVec 128) (order : List Byte) (identity : BitVec 512) (kem : List Byte)
    (factory : BitVec 256) : List Byte

/-- The vendor root public key held in the boot ROM (R395; log entry 5). -/
opaque vendorRoot : List Byte

/-- SHA-256 (DESIGN CHOICE: log entry 5). -/
opaque sha256 (msg : List Byte) : BitVec 256

/-- A fresh ML-KEM-1024 encapsulation key (FIPS 203, R409; log entry 5), by the free-value counter, 1,568 bytes. -/
opaque kemFresh (n : Nat) : List Byte

/-- ML-KEM-1024 decapsulation of a handshake ciphertext under the `n`-th fresh key (R409; log entry 5). -/
opaque kemDecap (n : Nat) (ct : List Byte) : Option (BitVec 256)

/-- ML-KEM-1024 decapsulation under the device KEM key of its seeds (R413; log entry 5). -/
opaque kemDecapDevice (d z : BitVec 256) (ct : List Byte) : Option (BitVec 256)

/-- ML-KEM-1024 encapsulation to a peer's fresh key (R409; log entries 5 and 61), by H2 and the free-value counter: the
ciphertext, 1,568 bytes, and the shared secret. (DESIGN CHOICE: log entry 5) -/
opaque kemEncap (h2 : List Byte) (n : Nat) : List Byte × BitVec 256

/-- The H2 that a peer answers this Ikiroth's H1 with (R409; log entry 61), by the free-value counter. -/
opaque peerH2 (n : Nat) : List Byte

/-- The nonce of a Tsusen message (R43, which gives no layout; log entry 66): session, direction, sequence number. -/
opaque tsusenNonce (session : BitVec 16) (toIkiroth : Bool) (seq : BitVec 16) : List Byte

/-- The sequence number of a `NOTIFY` (R43; log entry 66), by how much the Ikiroth has sent before. -/
opaque notifySeq (n : Nat) : BitVec 16

/-- The bytes of a copy of the kept entries, whose layout the manual does not give (R398, R399; log entry 86): sequence,
entries, kept DOMAINs as (entry, size, generation, content). -/
opaque keptBytes (seq : Nat) (entries : List (Nat × Nat)) (domains : List (Nat × Nat × W32 × List (Nat × Byte))) : List Byte

/-- The length of a frame that the manual does not lay out (R376; log entry 77), by how much the Ikiroth has sent before. -/
opaque frameLength (n : Nat) : Nat

/-- The member of a fabric group that holds a leaf of a collective (R370; log entry 62), by `COLL_ID` and leaf: what the
members' own descriptors declare. -/
opaque leafMember (coll : BitVec 64) (leaf : Nat) : Nat

/-- HKDF-SHA-256 (RFC 5869, R409, R413, R415; log entry 5): salt, input key, info. -/
opaque hkdf (salt : List Byte) (key : BitVec 256) (info : List Byte) : BitVec 256

/-- GCM-AES-256 opening (R414; log entry 5): key, nonce, associated data, ciphertext, tag; none when the tag fails. -/
opaque gcmOpen (key : BitVec 256) (nonce aad ct tag : List Byte) : Option (List Byte)

/-- GCM-AES-256 sealing (R415; log entry 5): key, nonce, associated data, plaintext; ciphertext then 16-byte tag. -/
opaque gcmSeal (key : BitVec 256) (nonce aad pt : List Byte) : List Byte

/-- What a stream is coded under (R380): the OPEN parameters that the coding sees, no address and no reserved bit. -/
structure Coding where
  av1 : Bool
  chroma : Nat
  depth : Nat
  width : Nat
  height : Nat
  matrix : Nat
  full : Bool
  slots : Nat
  qp : Nat
  period : Nat

/-- A picture that a picture slot keeps (R386). -/
structure Kept where
  slot : Nat
  width : Nat
  height : Nat
  deriving DecidableEq, Repr

/-- The profiles of R378, and any other. -/
inductive Profile where
  | main
  | main10
  | main422
  | main444
  | av1Main
  | av1High
  | other
  deriving DecidableEq, Repr, Inhabited

/-- What the headers of a unit declare under its standard (R378, R381, R390, R391; log entry 6): profile, chroma and depth
as `OPEN` codes them, ten times the level, the picture's size, the side of a CTB or superblock in luma samples, the order
key, whether the frame is not shown, the picture that show_existing_frame shows, whether the colour description names
BT.2020, the picture slots that the stream needs, the references (none: never received), and the slots that the stream goes
on keeping. -/
structure Head where
  profile : Profile
  chroma : Nat
  depth : Nat
  level : Nat
  width : Nat
  height : Nat
  side : Nat
  order : W32
  hidden : Bool
  shown : Option Kept
  bt2020 : Bool
  slots : Nat
  refs : List (Option Kept)
  keeps : List Nat
  deriving Inhabited

/-- The headers of a unit (HEVC or AV1; log entry 6), by the coding, the stream state and the unit, where `none` stands for
a byte of a poisoned word. -/
opaque unitHead (c : Coding) (state : List Byte) (unit : List (Option Byte)) : Head

/-- What reading one NAL unit or OBU comes to (R390; log entry 6): the parser's state after it, the bytes read, whether a
syntax error stopped it, and, where it begins a slice segment or a tile of the picture, the CTUs or superblocks that it
codes before it ends or errs, by their number in the picture. -/
structure Parse where
  state : List Byte
  read : Nat
  failed : Bool
  segment : Option (List Nat)
  deriving Inhabited

/-- Reading one NAL unit or OBU (HEVC or AV1; log entry 6), by the parser's state and the bytes from its first. -/
opaque parse (c : Coding) (state : List Byte) (bytes : List Byte) : Parse

/-- What the prediction of a CTU or superblock reads of the references (R392; log entry 6): (reference, byte). -/
opaque predictionReads (c : Coding) (state : List Byte) (unit : List (Option Byte)) (n : Nat) : List (Nat × Nat)

/-- The picture after the reconstruction of a CTU or superblock (log entry 6), by the references and the picture so far. -/
opaque reconstruct (c : Coding) (state : List Byte) (unit : List (Option Byte)) (refs : List (List Byte))
    (pic : List Byte) (n : Nat) : List Byte

/-- The picture after the in-loop filters (log entry 6). -/
opaque loopFilter (c : Coding) (state : List Byte) (unit : List (Option Byte)) (pic : List Byte) : List Byte

/-- The stream state after a unit whose picture a slot keeps (log entry 6). -/
opaque stateAfter (c : Coding) (state : List Byte) (unit : List (Option Byte)) (slot : Nat) : List Byte

/-- What an encode of one frame gives (R389; log entry 6): the bitstream, the reconstructed native picture, the stream
state after it. -/
structure Coded where
  stream : List Byte
  native : List Byte
  state : List Byte
  deriving Inhabited

/-- Encoding (R389; log entry 6), by the coding, the stream state, the reference pictures, the ordinal, whether the frame is
intra coded, the hold slot that keeps it, the hold slots released, and the frame's native picture at its coded size. -/
opaque encode (c : Coding) (state : List Byte) (refs : List (List (Option Byte))) (frame : Nat) (intra : Bool)
    (hold : Option Nat) (release : Nat) (native : List Byte) : Coded

/-- The result of the built-in test programs (R406): the cores that fail (DESIGN CHOICE: log entry 7). -/
opaque selfTestFails (n : Nat) : List Nat

/-- The device secret K_dev (R396; log entry 5): the response of the part's PUF, corrected with the helper data of the
factory record. -/
opaque deviceSecret (serial : BitVec 128) (helper : List Byte) : BitVec 256

/-- HMAC-SHA-256 (R396, R404; log entry 5). -/
opaque hmac (key : BitVec 256) (msg : List Byte) : BitVec 256

end Sys2Proof.Config
end

