-- ==== Sys2Proof/Machine/Bytes.lean ====
section
/-! DEFINITION. Numbers and text as bytes, most significant first (R21). -/

namespace Sys2Proof.Machine

/-- A number as `n` bytes, most significant first (R21). -/
def toBytes : Nat → Nat → List Byte
  | 0, _ => []
  | n + 1, v => toBytes n (v / 256) ++ [BitVec.ofNat 8 v]

/-- Bytes as a number, most significant first. -/
def ofBytes (bs : List Byte) : Nat := bs.foldl (fun a b => a * 256 + b.toNat) 0

/-- A number as `n` bytes, least significant first. -/
def toBytesLe (n v : Nat) : List Byte := (toBytes n v).reverse

/-- Bytes as a number, least significant first. -/
def ofBytesLe (bs : List Byte) : Nat := ofBytes bs.reverse

/-- The field of `n` bytes at an offset, most significant first. -/
def fieldAt (bs : List Byte) (off n : Nat) : Nat := ofBytes ((bs.drop off).take n)

/-- A list cut or completed with zeros to a length. -/
def padTo (n : Nat) (bs : List Byte) : List Byte := bs.take n ++ List.replicate (n - bs.length) 0

/-- ASCII text as bytes. -/
def ascii (t : String) : List Byte := t.toList.map (fun c => BitVec.ofNat 8 c.toNat)

end Sys2Proof.Machine
end

