-- ==== Sys2Proof/Machine/Dict.lean ====
section
/-! DEFINITION. The object dictionary as a table (02_dictionary.md R20 to R29 and the entry tables of every chapter):
for each entry its block, subindex, type, access right, role, default, whether it is kept, what zeroes it, whether time
alone drives it. Status records stand in a table of their own (R29). -/

namespace Sys2Proof.Machine

/-- The types of R21; a RECORD is an index with members. -/
inductive Ty where
  | bool
  | u8
  | u16
  | u32
  | u64
  | f32
  | str
  | octets (n : Nat)
  | domain
  deriving DecidableEq, Repr

/-- The access rights of R22. -/
inductive Access where
  | const
  | ro
  | rw
  | wo
  | rwc
  deriving DecidableEq, Repr

/-- Whose block an entry stands in (R24, R27). -/
inductive UnitKind where
  | device
  | core
  | site
  | channel
  | polder
  | port
  | engine
  deriving DecidableEq, Repr

/-- What zeroes an entry beside a reset (R30). -/
inductive Zeroed where
  | never
  | formed
  | joined
  deriving DecidableEq, Repr

/-- One row of the dictionary: instance i of the block stands at `base + i·stride`, and the row covers `subs`
subindices from `sub`. `role` is 0 Observer, 1 Operator, 2 Owner, 3 Vendor. `timed` marks what time alone drives. -/
structure EntryRow where
  name : String
  base : Nat
  count : Nat
  stride : Nat
  sub : Nat
  subs : Nat
  ty : Ty
  access : Access
  role : Nat
  dflt : Nat
  kept : Bool
  zeroed : Zeroed
  timed : Bool
  unit : UnitKind
  deriving Repr

/-- A status record (R29): its block, the highest bit its chapter defines, what zeroes its counters. -/
structure StatusRow where
  name : String
  base : Nat
  count : Nat
  stride : Nat
  unit : UnitKind
  highest : Nat
  zeroed : Zeroed
  deriving Repr

/-- The Almanac (R37, R38). -/
def almanacRows : List EntryRow := [
  ⟨"VENDOR", 0x0000, 1, 1, 0x01, 1, .str, .const, 0, 0, false, .never, false, .device⟩,
  ⟨"FAMILY", 0x0000, 1, 1, 0x02, 1, .str, .const, 0, 0, false, .never, false, .device⟩,
  ⟨"DEVICE", 0x0000, 1, 1, 0x03, 1, .str, .const, 0, 0, false, .never, false, .device⟩,
  ⟨"SHORT_NAME", 0x0000, 1, 1, 0x04, 1, .str, .const, 0, 0, false, .never, false, .device⟩,
  ⟨"ORDER_CODE", 0x0000, 1, 1, 0x05, 1, .str, .const, 0, 0, false, .never, false, .device⟩,
  ⟨"ENABLED_CORES", 0x0000, 1, 1, 0x06, 1, .u16, .const, 0, 0, false, .never, false, .device⟩,
  ⟨"STEPPING", 0x0000, 1, 1, 0x07, 1, .str, .const, 0, 0, false, .never, false, .device⟩,
  ⟨"SERIAL", 0x0000, 1, 1, 0x08, 1, (.octets 16), .const, 0, 0, false, .never, false, .device⟩,
  ⟨"ALMANAC_VERSION", 0x0000, 1, 1, 0x09, 1, .u16, .const, 0, 256, false, .never, false, .device⟩,
  ⟨"DISABLED_CORES", 0x0010, 1, 1, 0x01, 1, (.octets 18), .const, 0, 0, false, .never, false, .device⟩,
  ⟨"DISABLED_COUNT", 0x0010, 1, 1, 0x02, 1, .u8, .const, 0, 0, false, .never, false, .device⟩,
  ⟨"UNIT_KINDS", 0x0100, 1, 1, 0x01, 1, .u16, .const, 0, 13, false, .never, false, .device⟩,
  ⟨"UNIT_DIR KIND", 0x0101, 13, 1, 0x01, 1, .u16, .const, 0, 0, false, .never, false, .device⟩,
  ⟨"UNIT_DIR VERSION", 0x0101, 13, 1, 0x02, 1, .u16, .const, 0, 0, false, .never, false, .device⟩,
  ⟨"UNIT_DIR BASE", 0x0101, 13, 1, 0x03, 1, .u16, .const, 0, 0, false, .never, false, .device⟩,
  ⟨"UNIT_DIR STRIDE", 0x0101, 13, 1, 0x04, 1, .u16, .const, 0, 0, false, .never, false, .device⟩,
  ⟨"UNIT_DIR COUNT", 0x0101, 13, 1, 0x05, 1, .u16, .const, 0, 0, false, .never, false, .device⟩,
  ⟨"UNIT_DIR CAPABILITY", 0x0101, 13, 1, 0x06, 1, .u64, .const, 0, 0, false, .never, false, .device⟩,
  ⟨"UNIT_DIR DISABLED", 0x0101, 1, 1, 0x07, 1, (.octets 18), .const, 0, 0, false, .never, false, .device⟩,
  ⟨"UNIT_DIR DISABLED", 0x0102, 1, 1, 0x07, 1, (.octets 2), .const, 0, 0, false, .never, false, .device⟩,
  ⟨"UNIT_DIR DISABLED", 0x0103, 1, 1, 0x07, 1, (.octets 32), .const, 0, 0, false, .never, false, .device⟩,
  ⟨"UNIT_DIR DISABLED", 0x0104, 1, 1, 0x07, 1, (.octets 2), .const, 0, 0, false, .never, false, .device⟩,
  ⟨"UNIT_DIR DISABLED", 0x0105, 1, 1, 0x07, 1, (.octets 1), .const, 0, 0, false, .never, false, .device⟩,
  ⟨"UNIT_DIR DISABLED", 0x0106, 1, 1, 0x07, 1, (.octets 1), .const, 0, 0, false, .never, false, .device⟩,
  ⟨"UNIT_DIR DISABLED", 0x0107, 1, 1, 0x07, 1, (.octets 1), .const, 0, 0, false, .never, false, .device⟩,
  ⟨"UNIT_DIR DISABLED", 0x0108, 1, 1, 0x07, 1, (.octets 1), .const, 0, 0, false, .never, false, .device⟩,
  ⟨"UNIT_DIR DISABLED", 0x0109, 1, 1, 0x07, 1, (.octets 1), .const, 0, 0, false, .never, false, .device⟩,
  ⟨"UNIT_DIR DISABLED", 0x010A, 1, 1, 0x07, 1, (.octets 1), .const, 0, 0, false, .never, false, .device⟩,
  ⟨"UNIT_DIR DISABLED", 0x010B, 1, 1, 0x07, 1, (.octets 1), .const, 0, 0, false, .never, false, .device⟩,
  ⟨"UNIT_DIR DISABLED", 0x010C, 1, 1, 0x07, 1, (.octets 1), .const, 0, 0, false, .never, false, .device⟩,
  ⟨"UNIT_DIR DISABLED", 0x010D, 1, 1, 0x07, 1, (.octets 1), .const, 0, 0, false, .never, false, .device⟩,
  ⟨"MEM_DATA_BYTES", 0x0200, 1, 1, 0x01, 1, .u64, .const, 0, 274877906944, false, .never, false, .device⟩,
  ⟨"MEM_SITES", 0x0200, 1, 1, 0x02, 1, .u8, .const, 0, 16, false, .never, false, .device⟩,
  ⟨"MEM_CHANNELS_PER_SITE", 0x0200, 1, 1, 0x03, 1, .u8, .const, 0, 16, false, .never, false, .device⟩,
  ⟨"MEM_CHANNEL_BYTES", 0x0200, 1, 1, 0x04, 1, .u64, .const, 0, 1073741824, false, .never, false, .device⟩,
  ⟨"MEM_CODE_WORD", 0x0200, 1, 1, 0x05, 1, .u16, .const, 0, 64, false, .never, false, .device⟩,
  ⟨"MEM_SITE_INTERLEAVE", 0x0200, 1, 1, 0x06, 1, .u32, .const, 0, 2048, false, .never, false, .device⟩,
  ⟨"MEM_SPREAD_INTERLEAVE", 0x0200, 1, 1, 0x07, 1, .u32, .const, 0, 32768, false, .never, false, .device⟩,
  ⟨"EDITIONS_SUPPORTED lowest", 0x0300, 5, 1, 0x01, 1, .u8, .const, 0, 0, false, .never, false, .device⟩,
  ⟨"EDITIONS_SUPPORTED highest", 0x0300, 5, 1, 0x02, 1, .u8, .const, 0, 0, false, .never, false, .device⟩]

/-- Tsusen (R47, R50). -/
def tsusenRows : List EntryRow := [
  ⟨"SESSIONS_MAX", 0x1000, 1, 1, 0x01, 1, .u8, .const, 0, 16, false, .never, false, .device⟩,
  ⟨"SESSIONS_OPEN", 0x1000, 1, 1, 0x02, 1, .u8, .ro, 0, 0, false, .never, false, .device⟩,
  ⟨"SESSION_IDLE_LIMIT", 0x1000, 1, 1, 0x03, 1, .u32, .rw, 2, 1171875000, true, .never, false, .device⟩,
  ⟨"UDP_PORT", 0x1000, 1, 1, 0x04, 1, .u16, .rw, 2, 19250, true, .never, false, .device⟩,
  ⟨"INBAND_ENABLE", 0x1000, 1, 1, 0x05, 1, .bool, .rw, 2, 1, true, .never, false, .device⟩,
  ⟨"INBAND_DROPPED", 0x1000, 1, 1, 0x06, 1, .u32, .ro, 0, 0, false, .never, false, .device⟩,
  ⟨"AUTH_FAILURES", 0x1000, 1, 1, 0x07, 1, .u32, .ro, 0, 0, false, .never, false, .device⟩,
  ⟨"PLCA_NODE_ID", 0x1001, 1, 1, 0x01, 1, .u8, .rw, 2, 255, true, .never, false, .device⟩,
  ⟨"PLCA_NODE_COUNT", 0x1001, 1, 1, 0x02, 1, .u8, .rw, 2, 8, true, .never, false, .device⟩,
  ⟨"MGMT_LINK_UP", 0x1001, 1, 1, 0x03, 1, .bool, .ro, 0, 0, false, .never, false, .device⟩,
  ⟨"MAC_ADDRESS", 0x1001, 1, 1, 0x04, 1, (.octets 6), .const, 0, 0, false, .never, false, .device⟩,
  ⟨"VENDOR_CONSENT", 0x1010, 1, 1, 0x00, 1, .bool, .rw, 2, 0, false, .never, false, .device⟩,
  ⟨"SESSION_n role", 0x1020, 16, 1, 0x01, 1, .u8, .ro, 0, 0, false, .never, false, .device⟩,
  ⟨"SESSION_n edition", 0x1020, 16, 1, 0x02, 1, .u8, .ro, 0, 0, false, .never, false, .device⟩,
  ⟨"SESSION_n path", 0x1020, 16, 1, 0x03, 1, .u8, .ro, 0, 0, false, .never, false, .device⟩,
  ⟨"SESSION_n served", 0x1020, 16, 1, 0x04, 1, .u32, .ro, 0, 0, false, .never, false, .device⟩,
  ⟨"SESSION_n scope", 0x1020, 16, 1, 0x05, 1, .u16, .ro, 0, 0, false, .never, false, .device⟩,
  ⟨"PERMIT_MIN", 0x1100, 5, 1, 0x01, 1, .u8, .rw, 2, 1, true, .never, false, .device⟩,
  ⟨"PERMIT_MAX", 0x1100, 1, 1, 0x02, 1, .u8, .rw, 2, 3, true, .never, false, .device⟩,
  ⟨"REFUSED", 0x1100, 5, 1, 0x03, 1, .u32, .ro, 0, 0, false, .never, false, .device⟩,
  ⟨"PERMIT_MAX", 0x1101, 4, 1, 0x02, 1, .u8, .rw, 2, 2, true, .never, false, .device⟩]

/-- Power and sites (R435, R436). -/
def powerRows : List EntryRow := [
  ⟨"POWER_LIMIT", 0x2000, 1, 1, 0x01, 1, .u16, .rw, 2, 1200, true, .never, false, .device⟩,
  ⟨"INPUT_POWER", 0x2000, 1, 1, 0x02, 1, .f32, .ro, 0, 0, false, .never, false, .device⟩,
  ⟨"INPUT_VOLTAGE", 0x2000, 1, 1, 0x03, 1, .f32, .ro, 0, 0, false, .never, false, .device⟩,
  ⟨"INPUT_CURRENT", 0x2000, 1, 1, 0x04, 1, .f32, .ro, 0, 0, false, .never, false, .device⟩,
  ⟨"DEVICE_STEP", 0x2000, 1, 1, 0x05, 1, .u8, .ro, 0, 0, false, .never, false, .device⟩,
  ⟨"JUNCTION_LIMIT", 0x2000, 1, 1, 0x06, 1, .u8, .rw, 2, 100, true, .never, false, .device⟩,
  ⟨"WAKE_LIMIT", 0x2000, 1, 1, 0x07, 1, .u32, .rw, 1, 5000, false, .never, false, .device⟩,
  ⟨"NAP_DELAY", 0x2000, 1, 1, 0x08, 1, .u32, .rw, 1, 39, false, .never, false, .device⟩,
  ⟨"SLEEP_DELAY", 0x2000, 1, 1, 0x09, 1, .u32, .rw, 1, 39063, false, .never, false, .device⟩,
  ⟨"WAKE_QUEUED", 0x2000, 1, 1, 0x0A, 1, .u16, .ro, 0, 0, false, .never, false, .device⟩,
  ⟨"WAKES_ADMITTED", 0x2000, 1, 1, 0x0B, 1, .u64, .ro, 0, 0, false, .never, false, .device⟩,
  ⟨"TRIP_COUNT", 0x2000, 1, 1, 0x0C, 1, .u32, .ro, 0, 0, true, .never, false, .device⟩,
  ⟨"LAST_TRIP", 0x2000, 1, 1, 0x0D, 1, .u16, .ro, 0, 0, true, .never, false, .device⟩,
  ⟨"SITE_STEP", 0x2100, 16, 16, 0x01, 1, .u8, .ro, 0, 0, false, .never, false, .site⟩,
  ⟨"JUNCTION_FLOOR", 0x2100, 16, 16, 0x02, 1, .u8, .ro, 0, 0, false, .never, false, .site⟩,
  ⟨"JUNCTION_TEMP", 0x2100, 16, 16, 0x03, 1, .f32, .ro, 0, 0, false, .never, false, .site⟩,
  ⟨"SITE_POWER", 0x2100, 16, 16, 0x04, 1, .f32, .ro, 0, 0, false, .never, false, .site⟩,
  ⟨"SITE_STATE", 0x2100, 16, 16, 0x05, 1, .u8, .ro, 0, 2, false, .never, false, .site⟩,
  ⟨"THROTTLE_CYCLES", 0x2100, 16, 16, 0x06, 1, .u64, .ro, 0, 0, false, .joined, true, .site⟩,
  ⟨"VCORE_MV", 0x2100, 16, 16, 0x07, 1, .u16, .ro, 0, 0, false, .never, false, .site⟩]

/-- Memory (R317 to R319). -/
def memoryRows : List EntryRow := [
  ⟨"FLOOD_MARK", 0x3000, 1, 1, 0x01, 1, .u8, .rw, 2, 95, true, .never, false, .device⟩,
  ⟨"HOT_REFRESH_TEMP", 0x3000, 1, 1, 0x02, 1, .u8, .const, 0, 85, false, .never, false, .device⟩,
  ⟨"REFRESH_INTERVAL", 0x3000, 1, 1, 0x03, 1, .u16, .const, 0, 3900, false, .never, false, .device⟩,
  ⟨"REFRESH_BUSY", 0x3000, 1, 1, 0x04, 1, .u16, .const, 0, 94, false, .never, false, .device⟩,
  ⟨"REPEAT_THRESHOLD", 0x3000, 1, 1, 0x05, 1, .u32, .rw, 1, 16, false, .never, false, .device⟩,
  ⟨"SPREAD_GIB", 0x3010, 16, 1, 0x00, 1, .u8, .rw, 1, 0, false, .never, false, .polder⟩,
  ⟨"NEAR_READ_BYTES", 0x3020, 16, 1, 0x01, 1, .u64, .ro, 0, 0, false, .formed, false, .polder⟩,
  ⟨"FAR_READ_BYTES", 0x3020, 16, 1, 0x02, 1, .u64, .ro, 0, 0, false, .formed, false, .polder⟩,
  ⟨"NEAR_WRITE_BYTES", 0x3020, 16, 1, 0x03, 1, .u64, .ro, 0, 0, false, .formed, false, .polder⟩,
  ⟨"FAR_WRITE_BYTES", 0x3020, 16, 1, 0x04, 1, .u64, .ro, 0, 0, false, .formed, false, .polder⟩,
  ⟨"READ_WORDS", 0x3100, 256, 1, 0x01, 1, .u64, .ro, 0, 0, false, .joined, false, .channel⟩,
  ⟨"WRITE_WORDS", 0x3100, 256, 1, 0x02, 1, .u64, .ro, 0, 0, false, .joined, false, .channel⟩,
  ⟨"BURSTS", 0x3100, 256, 1, 0x03, 1, .u64, .ro, 0, 0, false, .joined, false, .channel⟩,
  ⟨"CORRECTED", 0x3100, 256, 1, 0x04, 1, .u64, .ro, 0, 0, false, .never, false, .channel⟩,
  ⟨"CORRECTED_SYMBOLS", 0x3100, 256, 1, 0x05, 1, .u64, .ro, 0, 0, false, .never, false, .channel⟩,
  ⟨"UNCORRECTABLE", 0x3100, 256, 1, 0x06, 1, .u32, .ro, 0, 0, false, .never, false, .channel⟩,
  ⟨"LAST_CE_ADDR", 0x3100, 256, 1, 0x07, 1, .u64, .ro, 1, 0, false, .never, false, .channel⟩,
  ⟨"LAST_CE_SYMBOLS", 0x3100, 256, 1, 0x08, 1, .u64, .ro, 1, 0, false, .never, false, .channel⟩,
  ⟨"REPEAT", 0x3100, 256, 1, 0x09, 1, .u32, .ro, 0, 0, false, .never, false, .channel⟩,
  ⟨"LAST_UE_ADDR", 0x3100, 256, 1, 0x0A, 1, .u64, .ro, 1, 0, false, .never, false, .channel⟩,
  ⟨"REFRESH_CYCLES", 0x3100, 256, 1, 0x0B, 1, .u64, .ro, 0, 0, false, .joined, false, .channel⟩,
  ⟨"THROTTLE_CYCLES", 0x3100, 256, 1, 0x0C, 1, .u64, .ro, 0, 0, false, .joined, true, .channel⟩,
  ⟨"STACK_TEMP", 0x3300, 16, 1, 0x01, 1, .f32, .ro, 0, 0, false, .never, false, .site⟩,
  ⟨"TEMP_PEAK", 0x3300, 16, 1, 0x02, 1, .f32, .ro, 0, 0, false, .never, false, .site⟩,
  ⟨"THROTTLE_LEVEL", 0x3300, 16, 1, 0x03, 1, .u8, .ro, 0, 0, false, .never, false, .site⟩,
  ⟨"REFRESH_MODE", 0x3300, 16, 1, 0x04, 1, .u8, .ro, 0, 0, false, .never, false, .site⟩,
  ⟨"MEM_POWER", 0x3300, 16, 1, 0x05, 1, .u8, .ro, 0, 0, false, .never, false, .site⟩]

/-- Per-core blocks (R77, R144, R166, R189, R208, R228, R261, R279, R294). -/
def coreRows1 : List EntryRow := [
  ⟨"CORE_ID", 0x4000, 144, 16, 0x01, 4, .u8, .const, 0, 0, false, .never, false, .core⟩,
  ⟨"POWER_STATE", 0x4001, 144, 16, 0x01, 1, .u8, .ro, 0, 3, false, .never, false, .core⟩,
  ⟨"CONTEXT", 0x4001, 144, 16, 0x02, 1, .u16, .ro, 0, 65535, false, .never, false, .core⟩,
  ⟨"BUNDLE_ADDR", 0x4001, 144, 16, 0x03, 1, .u16, .ro, 0, 0, false, .never, false, .core⟩,
  ⟨"LOGICAL_RANK", 0x4001, 144, 16, 0x04, 1, .u16, .ro, 0, 65535, false, .never, false, .core⟩,
  ⟨"FAULT_CODE", 0x4003, 144, 16, 0x01, 1, .u8, .ro, 0, 0, false, .never, false, .core⟩,
  ⟨"FAULT_SLOT", 0x4003, 144, 16, 0x02, 1, .u8, .ro, 0, 0, false, .never, false, .core⟩,
  ⟨"FAULT_BUNDLE", 0x4003, 144, 16, 0x03, 1, .u16, .ro, 0, 0, false, .never, false, .core⟩,
  ⟨"DETAIL", 0x4003, 144, 16, 0x04, 1, .u64, .ro, 1, 0, false, .never, false, .core⟩,
  ⟨"FAULT_CONTEXT", 0x4003, 144, 16, 0x05, 1, .u16, .ro, 0, 65535, false, .never, false, .core⟩,
  ⟨"MORE", 0x4003, 144, 16, 0x06, 1, .u32, .ro, 0, 0, false, .never, false, .core⟩,
  ⟨"RUN_CYCLES", 0x4004, 144, 16, 0x01, 1, .u64, .ro, 0, 0, false, .joined, true, .core⟩,
  ⟨"BUNDLES", 0x4004, 144, 16, 0x02, 1, .u64, .ro, 0, 0, false, .joined, false, .core⟩,
  ⟨"STALL_OPERAND", 0x4004, 144, 16, 0x03, 1, .u64, .ro, 0, 0, false, .joined, true, .core⟩,
  ⟨"STALL_FOOTPRINT", 0x4004, 144, 16, 0x04, 1, .u64, .ro, 0, 0, false, .joined, true, .core⟩,
  ⟨"STALL_BANK", 0x4004, 144, 16, 0x05, 1, .u64, .ro, 0, 0, false, .joined, true, .core⟩,
  ⟨"BARRIER_WAIT", 0x4004, 144, 16, 0x06, 1, .u64, .ro, 0, 0, false, .joined, true, .core⟩,
  ⟨"COUNTER_REQUESTS", 0x4004, 144, 16, 0x07, 1, .u64, .ro, 0, 0, false, .joined, false, .core⟩,
  ⟨"STREAMS", 0x4005, 144, 16, 0x01, 1, .u64, .ro, 0, 0, false, .joined, false, .core⟩,
  ⟨"DRAINS", 0x4005, 144, 16, 0x02, 1, .u64, .ro, 0, 0, false, .joined, false, .core⟩,
  ⟨"BEAT_CYCLES", 0x4005, 144, 16, 0x03, 1, .u64, .ro, 0, 0, false, .joined, true, .core⟩,
  ⟨"DENSE_MACS", 0x4005, 144, 16, 0x04, 1, .u64, .ro, 0, 0, false, .joined, false, .core⟩,
  ⟨"FEED_LOST_A", 0x4005, 144, 16, 0x05, 1, .u64, .ro, 0, 0, false, .joined, true, .core⟩,
  ⟨"FEED_LOST_B", 0x4005, 144, 16, 0x06, 1, .u64, .ro, 0, 0, false, .joined, true, .core⟩,
  ⟨"SPREAD_LOST", 0x4005, 144, 16, 0x07, 1, .u64, .ro, 0, 0, false, .joined, true, .core⟩,
  ⟨"DRAIN_BACKED", 0x4005, 144, 16, 0x08, 1, .u64, .ro, 0, 0, false, .joined, true, .core⟩,
  ⟨"SPARSE_STREAMS", 0x4005, 144, 16, 0x09, 1, .u64, .ro, 0, 0, false, .joined, false, .core⟩,
  ⟨"EXP_BIN_b", 0x4006, 144, 16, 0x01, 64, .u64, .ro, 0, 0, false, .joined, false, .core⟩,
  ⟨"HIST_CLEAR", 0x4007, 144, 16, 0x00, 1, .u8, .wo, 1, 0, false, .never, false, .core⟩,
  ⟨"WINDOW_LIMIT", 0x4009, 144, 16, 0x01, 1, .u8, .ro, 0, 63, false, .never, false, .core⟩,
  ⟨"GSTREAMS", 0x4009, 144, 16, 0x02, 1, .u64, .ro, 0, 0, false, .joined, false, .core⟩,
  ⟨"WIN_OPS", 0x4009, 144, 16, 0x03, 1, .u64, .ro, 0, 0, false, .joined, false, .core⟩,
  ⟨"WIN_TAPS", 0x4009, 144, 16, 0x04, 1, .u64, .ro, 0, 0, false, .joined, false, .core⟩,
  ⟨"FUNC_VERSION", 0x400A, 144, 16, 0x01, 1, .u16, .const, 0, 2, false, .never, false, .core⟩,
  ⟨"VECTOR_OPS", 0x400A, 144, 16, 0x02, 1, .u64, .ro, 0, 0, false, .joined, false, .core⟩,
  ⟨"SFU_ELEMENTS", 0x400A, 144, 16, 0x03, 1, .u64, .ro, 0, 0, false, .joined, false, .core⟩,
  ⟨"SFU_WAIT", 0x400A, 144, 16, 0x04, 1, .u64, .ro, 0, 0, false, .joined, true, .core⟩,
  ⟨"RSUM_OPS", 0x400A, 144, 16, 0x05, 1, .u64, .ro, 0, 0, false, .joined, false, .core⟩,
  ⟨"FUNC_ROUTINES", 0x400A, 144, 16, 0x06, 1, .domain, .const, 0, 0, false, .never, false, .core⟩,
  ⟨"PROLOGUE_STREAMS", 0x400B, 144, 16, 0x01, 1, .u64, .ro, 0, 0, false, .joined, false, .core⟩]

/-- Per-core blocks (R77, R144, R166, R189, R208, R228, R261, R279, R294). -/
def coreRows2 : List EntryRow := [
  ⟨"EPILOGUE_DRAINS", 0x400B, 144, 16, 0x02, 1, .u64, .ro, 0, 0, false, .joined, false, .core⟩,
  ⟨"NODES_EMITTED", 0x400B, 144, 16, 0x03, 1, .u64, .ro, 0, 0, false, .joined, false, .core⟩,
  ⟨"MIRROR_DRAINS", 0x400B, 144, 16, 0x04, 1, .u64, .ro, 0, 0, false, .joined, false, .core⟩,
  ⟨"ATTN_STREAMS", 0x400C, 144, 16, 0x01, 1, .u64, .ro, 0, 0, false, .joined, false, .core⟩,
  ⟨"BLOCKS_PROCESSED", 0x400C, 144, 16, 0x02, 1, .u64, .ro, 0, 0, false, .joined, false, .core⟩,
  ⟨"BLOCKS_SKIPPED", 0x400C, 144, 16, 0x03, 1, .u64, .ro, 0, 0, false, .joined, false, .core⟩,
  ⟨"RESCALE_BEATS", 0x400C, 144, 16, 0x04, 1, .u64, .ro, 0, 0, false, .joined, false, .core⟩,
  ⟨"STAGE_BOUND", 0x400C, 144, 16, 0x05, 1, .u64, .ro, 0, 0, false, .joined, true, .core⟩,
  ⟨"ATTN_VWAIT", 0x400C, 144, 16, 0x06, 1, .u64, .ro, 0, 0, false, .joined, true, .core⟩,
  ⟨"ATTN_DRAINS", 0x400C, 144, 16, 0x07, 1, .u64, .ro, 0, 0, false, .joined, false, .core⟩,
  ⟨"SLUICE_ACCUMS", 0x400D, 144, 16, 0x01, 1, .u64, .ro, 0, 0, false, .joined, false, .core⟩,
  ⟨"SLUICE_DECIDES", 0x400D, 144, 16, 0x02, 1, .u64, .ro, 0, 0, false, .joined, false, .core⟩,
  ⟨"SLUICE_CLOSED", 0x400D, 144, 16, 0x03, 1, .u64, .ro, 0, 0, false, .joined, false, .core⟩,
  ⟨"SLUICE_UNFIT", 0x400D, 144, 16, 0x04, 1, .u64, .ro, 0, 0, false, .joined, false, .core⟩,
  ⟨"RNG_BLOCKS", 0x400E, 144, 16, 0x01, 1, .u64, .ro, 0, 0, false, .joined, false, .core⟩,
  ⟨"SR_ELEMENTS", 0x400E, 144, 16, 0x02, 1, .u64, .ro, 0, 0, false, .joined, false, .core⟩,
  ⟨"DROPPED", 0x400E, 144, 16, 0x03, 1, .u64, .ro, 0, 0, false, .joined, false, .core⟩,
  ⟨"SAMPLER_CYCLES", 0x400E, 144, 16, 0x04, 1, .u64, .ro, 0, 0, false, .joined, true, .core⟩,
  ⟨"UPDATE_OPS", 0x400F, 144, 16, 0x01, 1, .u64, .ro, 0, 0, false, .joined, false, .core⟩,
  ⟨"PARAMS_UPDATED", 0x400F, 144, 16, 0x02, 1, .u64, .ro, 0, 0, false, .joined, false, .core⟩,
  ⟨"PARAMS_FROZEN", 0x400F, 144, 16, 0x03, 1, .u64, .ro, 0, 0, false, .joined, false, .core⟩,
  ⟨"GROUPS_SKIPPED", 0x400F, 144, 16, 0x04, 1, .u64, .ro, 0, 0, false, .joined, false, .core⟩]

/-- Polders (R340). -/
def polderRows : List EntryRow := [
  ⟨"POLDER_SITES", 0x5100, 16, 16, 0x01, 1, .u16, .rw, 2, 0, true, .never, false, .polder⟩,
  ⟨"FORMED", 0x5100, 16, 16, 0x02, 1, .bool, .ro, 0, 0, false, .never, false, .polder⟩,
  ⟨"POLDER_CORES", 0x5100, 16, 16, 0x03, 1, .u16, .ro, 0, 0, false, .never, false, .polder⟩,
  ⟨"CONTEXT_RECORDS", 0x5100, 16, 16, 0x04, 1, .u64, .rw, 2, 0, true, .never, false, .polder⟩,
  ⟨"SLICE", 0x5100, 16, 16, 0x05, 1, .u32, .rw, 1, 0, false, .never, false, .polder⟩,
  ⟨"RESULT_HOLD_LIMIT", 0x5100, 16, 16, 0x06, 1, .u32, .rw, 1, 39062500, false, .never, false, .polder⟩,
  ⟨"PORT_SHARE_q", 0x5100, 16, 16, 0x07, 5, .u8, .rw, 2, 0, true, .never, false, .polder⟩,
  ⟨"POLDER_RESET", 0x5102, 16, 16, 0x01, 1, .u8, .wo, 2, 0, false, .never, false, .polder⟩,
  ⟨"CONTEXT_PREEMPT", 0x5102, 16, 16, 0x02, 1, .u8, .wo, 1, 0, false, .never, false, .polder⟩,
  ⟨"CONTEXT_CLOSE", 0x5102, 16, 16, 0x03, 1, .u8, .wo, 1, 0, false, .never, false, .polder⟩,
  ⟨"CONTEXT_MOVE", 0x5102, 16, 16, 0x04, 1, (.octets 3), .wo, 1, 0, false, .never, false, .polder⟩,
  ⟨"CONTEXTS_OPEN", 0x5103, 16, 16, 0x01, 1, .u16, .ro, 0, 0, false, .never, false, .polder⟩,
  ⟨"PREEMPTIONS", 0x5103, 16, 16, 0x02, 1, .u64, .ro, 0, 0, false, .formed, false, .polder⟩,
  ⟨"RESTORES", 0x5103, 16, 16, 0x03, 1, .u64, .ro, 0, 0, false, .formed, false, .polder⟩,
  ⟨"TEARDOWNS", 0x5103, 16, 16, 0x04, 1, .u64, .ro, 0, 0, false, .formed, false, .polder⟩,
  ⟨"RESETS", 0x5103, 16, 16, 0x05, 1, .u32, .ro, 0, 0, false, .formed, false, .polder⟩,
  ⟨"MOVES", 0x5103, 16, 16, 0x06, 1, .u32, .ro, 0, 0, false, .formed, false, .polder⟩,
  ⟨"CONTEXT_TABLE", 0x5104, 16, 16, 0x00, 1, .domain, .ro, 0, 0, false, .never, false, .polder⟩,
  ⟨"SNAPSHOT", 0x5105, 16, 16, 0x00, 1, .u8, .wo, 0, 0, false, .never, false, .polder⟩]

/-- Ports and transport (R375 to R377). -/
def portRows : List EntryRow := [
  ⟨"HOST_IPV4", 0x6000, 1, 1, 0x01, 1, (.octets 4), .rw, 2, 0, true, .never, false, .device⟩,
  ⟨"HOST_IPV6", 0x6000, 1, 1, 0x02, 1, (.octets 16), .rw, 2, 0, true, .never, false, .device⟩,
  ⟨"HOST_UDP_PORT", 0x6000, 1, 1, 0x03, 1, .u16, .rw, 2, 19251, true, .never, false, .device⟩,
  ⟨"IO_CLOCK_HZ", 0x6000, 1, 1, 0x04, 1, .u32, .const, 0, 1250000000, false, .never, false, .device⟩,
  ⟨"RTO", 0x6000, 1, 1, 0x05, 1, .u32, .rw, 1, 12500, false, .never, false, .device⟩,
  ⟨"RETRY_LIMIT", 0x6000, 1, 1, 0x06, 1, .u8, .rw, 1, 16, false, .never, false, .device⟩,
  ⟨"PKG_ASSEMBLY_LIMIT", 0x6000, 1, 1, 0x07, 1, .u32, .rw, 1, 1250000000, false, .never, false, .device⟩,
  ⟨"ASSOC_IDLE_LIMIT", 0x6000, 1, 1, 0x08, 1, .u32, .rw, 2, 1171875000, true, .never, false, .device⟩,
  ⟨"AN_RETRY", 0x6000, 1, 1, 0x09, 1, .u32, .rw, 2, 3906250, true, .never, false, .device⟩,
  ⟨"FABRIC_DEVICE_ID", 0x6001, 1, 1, 0x01, 1, .u16, .rw, 2, 65535, true, .never, false, .device⟩,
  ⟨"FABRIC_UDP_PORT", 0x6001, 1, 1, 0x02, 1, .u16, .rw, 2, 19252, true, .never, false, .device⟩,
  ⟨"ESCAPE_WAIT", 0x6001, 1, 1, 0x03, 1, .u32, .rw, 1, 2500, false, .never, false, .device⟩,
  ⟨"FABRIC_PEERS", 0x6001, 1, 1, 0x04, 1, .domain, .rw, 2, 0, true, .never, false, .device⟩,
  ⟨"REPLAY_WINDOW", 0x6002, 1, 1, 0x01, 1, .u32, .rw, 2, 65536, true, .never, false, .device⟩,
  ⟨"REKEY_PN", 0x6002, 1, 1, 0x02, 1, .u64, .rw, 2, 4611686018427387904, true, .never, false, .device⟩,
  ⟨"PORT_ENABLE", 0x6100, 5, 16, 0x01, 1, .bool, .rw, 2, 1, true, .never, false, .port⟩,
  ⟨"PORT_SPEED", 0x6100, 5, 16, 0x02, 1, .u8, .ro, 0, 0, false, .never, false, .port⟩,
  ⟨"SPEED_ALLOW", 0x6100, 5, 16, 0x03, 1, .u8, .rw, 2, 7, true, .never, false, .port⟩,
  ⟨"PMD_KIND", 0x6100, 5, 16, 0x04, 1, .u8, .rw, 2, 0, true, .never, false, .port⟩,
  ⟨"LINK_STATE", 0x6100, 5, 16, 0x05, 1, .u8, .ro, 0, 0, false, .never, false, .port⟩,
  ⟨"MAC_ADDRESS", 0x6100, 5, 16, 0x06, 1, (.octets 6), .const, 0, 0, false, .never, false, .port⟩,
  ⟨"FRAMES_TX", 0x6102, 5, 16, 0x01, 1, .u64, .ro, 0, 0, false, .never, false, .port⟩,
  ⟨"FRAMES_RX", 0x6102, 5, 16, 0x02, 1, .u64, .ro, 0, 0, false, .never, false, .port⟩,
  ⟨"BYTES_TX", 0x6102, 5, 16, 0x03, 1, .u64, .ro, 0, 0, false, .never, false, .port⟩,
  ⟨"BYTES_RX", 0x6102, 5, 16, 0x04, 1, .u64, .ro, 0, 0, false, .never, false, .port⟩,
  ⟨"FEC_CORRECTED", 0x6102, 5, 16, 0x05, 1, .u64, .ro, 0, 0, false, .never, false, .port⟩,
  ⟨"SECURE_CHANNELS", 0x6102, 5, 16, 0x06, 1, .u16, .ro, 0, 0, false, .never, false, .port⟩,
  ⟨"DROPS", 0x6102, 5, 16, 0x07, 1, .u64, .ro, 0, 0, false, .never, false, .port⟩,
  ⟨"PACKAGES_POSTED", 0x6200, 16, 1, 0x01, 1, .u64, .ro, 0, 0, false, .formed, false, .polder⟩,
  ⟨"PACKAGES_DISCARDED", 0x6200, 16, 1, 0x02, 1, .u64, .ro, 0, 0, false, .formed, false, .polder⟩,
  ⟨"RETRANSMIT_ASKED", 0x6200, 16, 1, 0x03, 1, .u64, .ro, 0, 0, false, .formed, false, .polder⟩,
  ⟨"GETS_NOT_READY", 0x6200, 16, 1, 0x04, 1, .u64, .ro, 0, 0, false, .formed, false, .polder⟩,
  ⟨"GETS_STALE", 0x6200, 16, 1, 0x05, 1, .u64, .ro, 0, 0, false, .formed, false, .polder⟩,
  ⟨"FABRIC_BYTES_TX", 0x6200, 16, 1, 0x06, 1, .u64, .ro, 0, 0, false, .formed, false, .polder⟩,
  ⟨"FABRIC_RETRIES", 0x6200, 16, 1, 0x07, 1, .u64, .ro, 0, 0, false, .formed, false, .polder⟩,
  ⟨"FABRIC_REFUSED", 0x6200, 16, 1, 0x08, 1, .u64, .ro, 0, 0, false, .formed, false, .polder⟩,
  ⟨"FABRIC_ABORTED", 0x6200, 16, 1, 0x09, 1, .u64, .ro, 0, 0, false, .formed, false, .polder⟩]

/-- Sequences, Sluice, generators (R247, R260, R278). -/
def seqRows : List EntryRow := [
  ⟨"SEQ_TABLE_BASE", 0x7010, 16, 1, 0x01, 1, .u64, .rw, 1, 0, false, .never, false, .polder⟩,
  ⟨"SEQ_COUNT", 0x7010, 16, 1, 0x02, 1, .u32, .rw, 1, 65536, false, .never, false, .polder⟩,
  ⟨"PT_ARENA_BASE", 0x7010, 16, 1, 0x03, 1, .u64, .rw, 1, 0, false, .never, false, .polder⟩,
  ⟨"PT_ARENA_BYTES", 0x7010, 16, 1, 0x04, 1, .u64, .rw, 1, 0, false, .never, false, .polder⟩,
  ⟨"POOL_BASE", 0x7010, 16, 1, 0x05, 1, .u64, .rw, 1, 0, false, .never, false, .polder⟩,
  ⟨"POOL_PAGES", 0x7010, 16, 1, 0x06, 1, .u32, .rw, 1, 0, false, .never, false, .polder⟩,
  ⟨"META_BASE", 0x7010, 16, 1, 0x07, 1, .u64, .rw, 1, 0, false, .never, false, .polder⟩,
  ⟨"KV_HEADS", 0x7010, 16, 1, 0x08, 1, .u8, .rw, 1, 8, false, .never, false, .polder⟩,
  ⟨"HEAD_DIM", 0x7010, 16, 1, 0x09, 1, .u8, .rw, 1, 1, false, .never, false, .polder⟩,
  ⟨"KV_FMT", 0x7010, 16, 1, 0x0A, 1, .u8, .rw, 1, 5, false, .never, false, .polder⟩,
  ⟨"LAYERS", 0x7010, 16, 1, 0x0B, 1, .u16, .rw, 1, 1, false, .never, false, .polder⟩,
  ⟨"CACHE_HOME", 0x7010, 16, 1, 0x0C, 1, .u8, .rw, 1, 0, false, .never, false, .polder⟩,
  ⟨"LOW_MARK", 0x7010, 16, 1, 0x0D, 1, .u32, .rw, 1, 0, false, .never, false, .polder⟩,
  ⟨"INIT", 0x7010, 16, 1, 0x0E, 1, .u8, .wo, 1, 0, false, .never, false, .polder⟩,
  ⟨"PAGE_BYTES", 0x7010, 16, 1, 0x0F, 1, .u32, .ro, 0, 65536, false, .never, false, .polder⟩,
  ⟨"SEQ_OPEN", 0x7020, 16, 1, 0x01, 1, .u32, .ro, 0, 0, false, .never, false, .polder⟩,
  ⟨"PAGES_FREE", 0x7020, 16, 1, 0x02, 1, .u32, .ro, 0, 0, false, .never, false, .polder⟩,
  ⟨"PAGES_PINNED", 0x7020, 16, 1, 0x03, 1, .u32, .ro, 0, 0, false, .never, false, .polder⟩,
  ⟨"PAGES_ALLOCATED", 0x7020, 16, 1, 0x04, 1, .u64, .ro, 0, 0, false, .formed, false, .polder⟩,
  ⟨"COW_COPIES", 0x7020, 16, 1, 0x05, 1, .u64, .ro, 0, 0, false, .formed, false, .polder⟩,
  ⟨"PAGES_RETURNED", 0x7020, 16, 1, 0x06, 1, .u64, .ro, 0, 0, false, .formed, false, .polder⟩,
  ⟨"HOME_BUSY", 0x7020, 16, 1, 0x07, 1, .u64, .ro, 0, 0, false, .formed, true, .polder⟩,
  ⟨"HOME_WAIT", 0x7020, 16, 1, 0x08, 1, .u64, .ro, 0, 0, false, .formed, true, .polder⟩,
  ⟨"SLUICE_HOME", 0x7110, 16, 1, 0x00, 1, .u8, .rw, 1, 0, false, .never, false, .polder⟩,
  ⟨"DECISIONS", 0x7120, 16, 1, 0x01, 1, .u64, .ro, 0, 0, false, .formed, false, .polder⟩,
  ⟨"CLOSED", 0x7120, 16, 1, 0x02, 1, .u64, .ro, 0, 0, false, .formed, false, .polder⟩,
  ⟨"OPEN_TIDE", 0x7120, 16, 1, 0x03, 1, .u64, .ro, 0, 0, false, .formed, false, .polder⟩,
  ⟨"OPEN_CHANGE", 0x7120, 16, 1, 0x04, 1, .u64, .ro, 0, 0, false, .formed, false, .polder⟩,
  ⟨"OPEN_UNFIT", 0x7120, 16, 1, 0x05, 1, .u64, .ro, 0, 0, false, .formed, false, .polder⟩,
  ⟨"HOME_POSTS", 0x7120, 16, 1, 0x06, 1, .u64, .ro, 0, 0, false, .formed, false, .polder⟩,
  ⟨"RNG_VERSION", 0x7200, 1, 1, 0x01, 1, .u16, .const, 0, 1, false, .never, false, .device⟩,
  ⟨"NORMAL_TABLE", 0x7201, 1, 1, 0x00, 1, .domain, .const, 0, 0, false, .never, false, .device⟩,
  ⟨"GUMBEL_TABLE", 0x7202, 1, 1, 0x00, 1, .domain, .const, 0, 0, false, .never, false, .device⟩,
  ⟨"SAMPLES", 0x7210, 16, 1, 0x01, 1, .u64, .ro, 0, 0, false, .formed, false, .polder⟩,
  ⟨"SAMPLES_NOISE_MAX", 0x7210, 16, 1, 0x02, 1, .u64, .ro, 0, 0, false, .formed, false, .polder⟩]

/-- Media engines (R393, R394). -/
def mediaRows : List EntryRow := [
  ⟨"MEDIA_VERSION", 0x8000, 1, 1, 0x01, 1, .u16, .const, 0, 1, false, .never, false, .device⟩,
  ⟨"MEDIA_CLOCK_HZ", 0x8000, 1, 1, 0x02, 1, .u32, .const, 0, 1200000000, false, .never, false, .device⟩,
  ⟨"ENGINE_PORT_MBPS", 0x8000, 1, 1, 0x03, 1, .u32, .const, 0, 12800, false, .never, false, .device⟩,
  ⟨"STREAMS_PER_ENGINE", 0x8000, 1, 1, 0x04, 1, .u16, .const, 0, 1024, false, .never, false, .device⟩,
  ⟨"MEDIA_STREAMS", 0x8010, 16, 1, 0x01, 1, .u16, .ro, 0, 0, false, .never, false, .polder⟩,
  ⟨"MEDIA_JOBS", 0x8010, 16, 1, 0x02, 1, .u64, .ro, 0, 0, false, .formed, false, .polder⟩,
  ⟨"MEDIA_FLAGGED", 0x8010, 16, 1, 0x03, 1, .u64, .ro, 0, 0, false, .formed, false, .polder⟩,
  ⟨"ENGINE_STATE", 0x8100, 4, 64, 0x01, 1, .u8, .ro, 0, 0, false, .never, false, .engine⟩,
  ⟨"STREAMS_OPEN", 0x8100, 4, 64, 0x02, 1, .u16, .ro, 0, 0, false, .never, false, .engine⟩,
  ⟨"QUEUED", 0x8100, 4, 64, 0x03, 1, .u16, .ro, 0, 0, false, .never, false, .engine⟩,
  ⟨"FRAMES_DECODED", 0x8102, 4, 64, 0x01, 1, .u64, .ro, 0, 0, false, .never, false, .engine⟩,
  ⟨"FRAMES_ENCODED", 0x8102, 4, 64, 0x02, 1, .u64, .ro, 0, 0, false, .never, false, .engine⟩,
  ⟨"SWITCHES", 0x8102, 4, 64, 0x03, 1, .u64, .ro, 0, 0, false, .never, false, .engine⟩,
  ⟨"BUSY_CYCLES", 0x8102, 4, 64, 0x04, 1, .u64, .ro, 0, 0, false, .never, true, .engine⟩,
  ⟨"UNITS_CONCEALED", 0x8102, 4, 64, 0x05, 1, .u64, .ro, 0, 0, false, .never, false, .engine⟩,
  ⟨"PORT_BOUND", 0x8102, 4, 64, 0x06, 1, .u64, .ro, 0, 0, false, .never, true, .engine⟩,
  ⟨"NAN_SAMPLES", 0x8102, 4, 64, 0x07, 1, .u64, .ro, 0, 0, false, .never, false, .engine⟩]

/-- Boot and identity (R417). -/
def bootRows : List EntryRow := [
  ⟨"BOOT_MODE", 0x9000, 1, 1, 0x01, 1, .u8, .ro, 0, 0, false, .never, false, .device⟩,
  ⟨"NEXT_BOOT_MODE", 0x9000, 1, 1, 0x02, 1, .u8, .rw, 2, 0, true, .never, false, .device⟩,
  ⟨"ACTIVE_SLOT", 0x9000, 1, 1, 0x03, 1, .u8, .ro, 0, 0, false, .never, false, .device⟩,
  ⟨"IMAGE_VERSION", 0x9000, 1, 1, 0x04, 1, .u32, .ro, 0, 0, false, .never, false, .device⟩,
  ⟨"SECURITY_VERSION", 0x9000, 1, 1, 0x05, 1, .u32, .ro, 0, 0, false, .never, false, .device⟩,
  ⟨"ROLLBACK_COUNTER", 0x9000, 1, 1, 0x06, 1, .u32, .ro, 0, 0, false, .never, false, .device⟩,
  ⟨"TRIAL", 0x9000, 1, 1, 0x07, 1, .bool, .ro, 0, 0, false, .never, false, .device⟩,
  ⟨"FW_IMAGE", 0x9010, 1, 1, 0x00, 1, .domain, .rw, 2, 0, false, .never, false, .device⟩,
  ⟨"FW_ACTIVATE", 0x9011, 1, 1, 0x00, 1, .u8, .wo, 2, 0, false, .never, false, .device⟩,
  ⟨"FW_COMMIT", 0x9012, 1, 1, 0x00, 1, .u8, .wo, 2, 0, false, .never, false, .device⟩,
  ⟨"DEVICE_CERT", 0x9020, 1, 1, 0x00, 1, .domain, .const, 0, 0, false, .never, false, .device⟩,
  ⟨"IDENTITY_PUBLIC", 0x9021, 1, 1, 0x00, 1, (.octets 64), .const, 0, 0, false, .never, false, .device⟩,
  ⟨"KEM_PUBLIC", 0x9022, 1, 1, 0x00, 1, .domain, .const, 0, 0, false, .never, false, .device⟩,
  ⟨"OWNER_ENROLLED", 0x9030, 1, 1, 0x01, 1, .bool, .ro, 0, 0, false, .never, false, .device⟩,
  ⟨"OWNER_KEY", 0x9030, 1, 1, 0x02, 1, (.octets 64), .rw, 2, 0, true, .never, false, .device⟩,
  ⟨"CREDENTIAL_EPOCH", 0x9030, 1, 1, 0x03, 1, .u32, .rw, 2, 0, true, .never, false, .device⟩,
  ⟨"OWNER_RELEASE", 0x9030, 1, 1, 0x04, 1, .u8, .wo, 2, 0, false, .never, false, .device⟩,
  ⟨"FABRIC_CREDENTIAL", 0x9030, 1, 1, 0x05, 1, .domain, .rw, 2, 0, true, .never, false, .device⟩,
  ⟨"SEAL_INSTALL", 0x9040, 16, 1, 0x00, 1, .domain, .wo, 1, 0, false, .never, false, .polder⟩,
  ⟨"SEAL_SLOTS", 0x9050, 16, 1, 0x01, 1, .u16, .ro, 0, 0, false, .never, false, .polder⟩,
  ⟨"SEAL_CLEAR", 0x9050, 16, 1, 0x02, 1, .u8, .wo, 1, 0, false, .never, false, .polder⟩,
  ⟨"ATTEST_NONCE", 0x9060, 1, 1, 0x01, 1, (.octets 32), .wo, 0, 0, false, .never, false, .device⟩,
  ⟨"ATTESTATION", 0x9060, 1, 1, 0x02, 1, .domain, .ro, 0, 0, false, .never, false, .device⟩,
  ⟨"FREEBOARD_MJ", 0x9070, 1, 1, 0x01, 1, .f32, .ro, 0, 0, false, .never, false, .device⟩,
  ⟨"VHOLD_CAPACITANCE", 0x9070, 1, 1, 0x02, 1, .f32, .ro, 0, 0, false, .never, false, .device⟩,
  ⟨"FREEBOARD_MARGIN", 0x9070, 1, 1, 0x03, 1, .u8, .rw, 2, 25, true, .never, false, .device⟩,
  ⟨"NV_BATCHES", 0x9070, 1, 1, 0x04, 1, .u64, .ro, 0, 0, false, .never, false, .device⟩,
  ⟨"NV_DEFERRED", 0x9070, 1, 1, 0x05, 1, .u64, .ro, 0, 0, false, .never, false, .device⟩,
  ⟨"HANDSHAKES", 0x9080, 1, 1, 0x01, 1, .u64, .ro, 0, 0, false, .never, false, .device⟩,
  ⟨"HANDSHAKE_REFUSED", 0x9080, 1, 1, 0x02, 1, .u64, .ro, 0, 0, false, .never, false, .device⟩]

/-- Determinism and statistics (R125, R295, R342). -/
def statRows : List EntryRow := [
  ⟨"TIMING_CHOICES", 0xA000, 1, 1, 0x01, 1, .u64, .ro, 0, 0, false, .never, false, .device⟩,
  ⟨"RESULT_CHOICES", 0xA000, 1, 1, 0x02, 1, .u64, .ro, 0, 0, false, .never, false, .device⟩,
  ⟨"E4M3_OVERFLOW", 0xA020, 16, 1, 0x00, 1, .u8, .rw, 1, 0, false, .never, false, .polder⟩,
  ⟨"STEPS_APPLIED", 0xA040, 16, 1, 0x01, 1, .u64, .ro, 0, 0, false, .formed, false, .polder⟩,
  ⟨"SCALES", 0xA040, 16, 1, 0x02, 1, .u64, .ro, 0, 0, false, .formed, false, .polder⟩,
  ⟨"TIMING_CHOICES", 0xA050, 16, 1, 0x01, 1, .u64, .ro, 0, 0, false, .formed, false, .polder⟩,
  ⟨"RESULT_CHOICES", 0xA050, 16, 1, 0x02, 1, .u64, .ro, 0, 0, false, .formed, false, .polder⟩]

/-- The status records of every chapter (R29). -/
def statusRows : List StatusRow := [
  ⟨"CORE_STATUS", 0x4002, 144, 16, .core, 3, .joined⟩,
  ⟨"NUMERIC_STATUS", 0xA010, 16, 1, .polder, 5, .formed⟩,
  ⟨"CONV_STATUS", 0x4008, 144, 16, .core, 0, .joined⟩,
  ⟨"CACHE_STATUS", 0x7030, 16, 1, .polder, 2, .formed⟩,
  ⟨"SLUICE_STATUS", 0x7130, 16, 1, .polder, 1, .formed⟩,
  ⟨"SAMPLE_STATUS", 0x7220, 16, 1, .polder, 1, .formed⟩,
  ⟨"UPDATE_STATUS", 0xA030, 16, 1, .polder, 2, .formed⟩,
  ⟨"MEM_STATUS", 0x3200, 16, 1, .site, 4, .joined⟩,
  ⟨"POLDER_STATUS", 0x5101, 16, 16, .polder, 3, .formed⟩,
  ⟨"INTEGRITY_STATUS", 0x6010, 1, 1, .device, 4, .never⟩,
  ⟨"PORT_STATUS", 0x6101, 5, 16, .port, 7, .never⟩,
  ⟨"MEDIA_STATUS", 0x8101, 4, 64, .engine, 6, .never⟩,
  ⟨"BOOT_STATUS", 0x9001, 1, 1, .device, 5, .never⟩,
  ⟨"POWER_STATUS", 0x2001, 1, 1, .device, 5, .never⟩]

/-- The members every status record has (R29), for one of its rows: no counter of a bit above the highest used.
(DESIGN CHOICE: log entry 69) -/
def StatusRow.members (r : StatusRow) : List EntryRow := [
  ⟨"FLAGS", r.base, r.count, r.stride, 0x01, 1, .u32, .rwc, 1, 0, false, .never, false, r.unit⟩,
  ⟨"ALERT_ENABLE", r.base, r.count, r.stride, 0x02, 1, .u32, .rw, 1, 0, false, .never, false, r.unit⟩,
  ⟨"COUNT", r.base, r.count, r.stride, 0x03, r.highest + 1, .u32, .ro, 0, 0, false, r.zeroed, false, r.unit⟩]

/-- Every entry of the dictionary but the computed subindex 0x00 of a RECORD (R20). -/
def entryRows : List EntryRow :=
  almanacRows ++ tsusenRows ++ powerRows ++ memoryRows ++ coreRows1 ++ coreRows2 ++ polderRows ++ portRows ++ seqRows ++ mediaRows ++ bootRows ++ statRows ++ statusRows.flatMap StatusRow.members

/-- Whether a block holds an index. -/
def inBlock (base count stride index : Nat) : Bool :=
  base ≤ index && (index - base) % stride == 0 && (index - base) / stride < count

def EntryRow.coversIndex (r : EntryRow) (index : Nat) : Bool := inBlock r.base r.count r.stride index

def EntryRow.covers (r : EntryRow) (index sub : Nat) : Bool :=
  r.coversIndex index && r.sub ≤ sub && sub < r.sub + r.subs

/-- The row of an entry. -/
def rowOf (index sub : Nat) : Option EntryRow := entryRows.find? (fun r => r.covers index sub)

/-- The rows of an index. -/
def rowsAt (index : Nat) : List EntryRow := entryRows.filter (fun r => r.coversIndex index)

/-- The status record that stands at an index. -/
def statusOf (index : Nat) : Option StatusRow :=
  statusRows.find? (fun r => inBlock r.base r.count r.stride index)

/-- The highest subindex in use at an index. -/
def highestSub (index : Nat) : Nat :=
  (rowsAt index).foldl (fun m r => max m (r.sub + r.subs - 1)) 0

/-- Whether an index is a RECORD: it holds members at subindices 0x01 upwards (R20). -/
def isRecord (index : Nat) : Bool := (rowsAt index).any (fun r => r.sub ≥ 1)

/-- The number an entry is kept under in `dict`, `kept` and `domains`. -/
def entryKey (index sub : Nat) : Nat := 256 * index + sub

/-- The number of bytes of a value of fixed size (R21). -/
def Ty.size : Ty → Nat
  | .bool => 1
  | .u8 => 1
  | .u16 => 2
  | .u32 => 4
  | .u64 => 8
  | .f32 => 4
  | .str => 64
  | .octets n => n
  | .domain => 8

/-- The default of an entry (R26). -/
def entryDefault (index sub : Nat) : Nat := ((rowOf index sub).map EntryRow.dflt).getD 0

end Sys2Proof.Machine
end

