-- ==== Sys2Proof/Machine/Rng.lean ====
section
/-! DEFINITION. The generators' functions (13_random_sampling.md, R262, R265, R267): the data hash and the ChaCha20
block function; and the checks of 17_ports_transport.md and 15_memory.md (CRC-32C R363, CRC-64 R366, the check symbols
of R307). -/

namespace Sys2Proof.Machine

/-- HASH_SEED (R262): the exclusive-or of the four 64-bit quarters of `SEED`. -/
def hashSeed (seed : BitVec 256) : W64 :=
  seed.extractLsb' 192 64 ^^^ seed.extractLsb' 128 64 ^^^ seed.extractLsb' 64 64 ^^^ seed.extractLsb' 0 64

/-- `mix` of R265. -/
def hashMix (z : W64) : W64 :=
  let z := (z ^^^ (z >>> 32)) * 0xD6E8FEB86659FD93#64
  let z := (z ^^^ (z >>> 29)) * 0xA3B195354A39B70D#64
  z ^^^ (z >>> 32)

/-- `dhash` of R265: the coordinate, the 12-bit datum, the purpose. -/
def dhash (seed : BitVec 256) (step : W32) (x : W64) (m : BitVec 12) (q : BitVec 4) : W64 :=
  let h := hashMix (hashSeed seed ^^^ 0x6A09E667F3BCC909#64)
  let h := hashMix (h + x)
  hashMix (h ^^^ (step.setWidth 64 <<< 16) ^^^ (q.setWidth 64 <<< 12) ^^^ m.setWidth 64)

/-- The u of R120 for a coordinate and a datum pattern (R266). -/
def stochU (seed : BitVec 256) (step : W32) (x : W64) (datum : W32) : Nat :=
  (dhash seed step x (datum.setWidth 12) 0 >>> 52).toNat

/-- Bytes of a word, least significant first, read as one word (RFC 8439 reads its key so). -/
def swap32 (w : W32) : W32 :=
  w.extractLsb' 0 8 ++ w.extractLsb' 8 8 ++ w.extractLsb' 16 8 ++ w.extractLsb' 24 8

/-- Key word `i` of ChaCha20 from `SEED`, whose byte 0 is its most significant. -/
def chachaKey (seed : BitVec 256) (i : Nat) : W32 := swap32 (seed.extractLsb' (224 - 32 * i) 32)

def chachaAt (s : List W32) (i : Nat) : W32 := s.getD i 0

/-- The quarter round of RFC 8439 on four places of the state. (PRESUMED: log entry 14) -/
def quarterRound (s : List W32) (a b c d : Nat) : List W32 :=
  let va := chachaAt s a + chachaAt s b
  let vd := (chachaAt s d ^^^ va).rotateLeft 16
  let vc := chachaAt s c + vd
  let vb := (chachaAt s b ^^^ vc).rotateLeft 12
  let va := va + vb
  let vd := (vd ^^^ va).rotateLeft 8
  let vc := vc + vd
  let vb := (vb ^^^ vc).rotateLeft 7
  (((s.set a va).set b vb).set c vc).set d vd

/-- A column round and a diagonal round of RFC 8439. -/
def doubleRound (s : List W32) : List W32 :=
  let s := quarterRound s 0 4 8 12
  let s := quarterRound s 1 5 9 13
  let s := quarterRound s 2 6 10 14
  let s := quarterRound s 3 7 11 15
  let s := quarterRound s 0 5 10 15
  let s := quarterRound s 1 6 11 12
  let s := quarterRound s 2 7 8 13
  quarterRound s 3 4 9 14

/-- The initial state of block `b` (R267). (PRESUMED: log entry 14) -/
def chachaInit (seed : BitVec 256) (step stream : W32) (b : Nat) : List W32 :=
  [0x61707865#32, 0x3320646e#32, 0x79622d32#32, 0x6b206574#32]
    ++ (List.range 8).map (chachaKey seed)
    ++ [BitVec.ofNat 32 b, step, stream, BitVec.ofNat 32 (b / 2 ^ 32)]

/-- Block `b` of the counter stream (R267): 20 rounds and the final addition. (PRESUMED: log entry 14) -/
def chachaBlock (seed : BitVec 256) (step stream : W32) (b : Nat) : List W32 :=
  let s0 := chachaInit seed step stream b
  let s := (List.range 10).foldl (fun s _ => doubleRound s) s0
  List.zipWith (· + ·) s s0

/-- Word `n` of the counter stream (R267). -/
def counterWord (seed : BitVec 256) (step stream : W32) (n : W64) : W32 :=
  (chachaBlock seed step stream (n.toNat / 16)).getD (n.toNat % 16) 0

/-- The uniform sample of a word (R263): (word >> 8) · 2^-24, exact, as FP32 bits are formed elsewhere. -/
def uniformMant (r : W32) : Nat := r.toNat / 256

/-! ### Cyclic checks -/

/-- One byte into CRC-32C, reflected (R363). -/
def crc32cByte (c : W32) (b : Byte) : W32 :=
  (List.range 8).foldl (fun (c : W32) _ => if c.getLsbD 0 then (c >>> 1) ^^^ 0x82F63B78#32 else c >>> 1)
    (c ^^^ b.setWidth 32)

/-- CRC-32C of a segment (R363): polynomial 0x1EDC6F41 reflected, initial value and final exclusive-or all ones. -/
def crc32c (bs : List Byte) : W32 := bs.foldl crc32cByte 0xFFFFFFFF#32 ^^^ 0xFFFFFFFF#32

/-- One byte into CRC-64 (R366). -/
def crc64Byte (c : W64) (b : Byte) : W64 :=
  (List.range 8).foldl (fun (c : W64) _ =>
    if c.getLsbD 63 then (c <<< 1) ^^^ 0x42F0E1EBA9EA3693#64 else c <<< 1)
    (c ^^^ (b.setWidth 64 <<< 56))

/-- CRC-64 of R366: ECMA-182, initial value 0, no reflection, no final exclusive-or. -/
def crc64 (bs : List Byte) : W64 := bs.foldl crc64Byte 0

/-! ### The Reed–Solomon check symbols (R307) -/

/-- Multiplication by x in GF(2^16) modulo x^16 + x^12 + x^3 + x + 1. -/
def gfDouble (a : W16) : W16 := if a.getLsbD 15 then (a <<< 1) ^^^ 0x100B#16 else a <<< 1

/-- The product in GF(2^16). -/
def gfMul (a b : W16) : W16 :=
  (List.range 16).foldl (fun (acc : W16) i =>
    let acc := gfDouble acc
    if b.getLsbD (15 - i) then acc ^^^ a else acc) 0

/-- α^i, α the class of x. -/
def gfPow (i : Nat) : W16 := (List.range i).foldl (fun a _ => gfDouble a) 1

/-- g(x) = ∏ (x − α^i), i = 0 to 7, as its coefficients of x^7 down to x^0 (its leading one left out). -/
def rsGen : List W16 :=
  (List.range 8).foldl (fun (g : List W16) i =>
    -- (x^n + g)·(x − α^i)
    let a := gfPow i
    List.zipWith (· ^^^ ·) (g ++ [0]) ((1 :: g).map (gfMul a))) []

/-- The eight check symbols P_0 to P_7 of 32 data symbols (R307): the remainder of x^8·d(x) by g(x). -/
def rsCheck (data : List W16) : List W16 :=
  let g := rsGen
  data.foldl (fun (r : List W16) d =>
    let f := d ^^^ r.headD 0
    if f = 0 then r.drop 1 ++ [0] else List.zipWith (· ^^^ ·) (r.drop 1 ++ [0]) (g.map (gfMul f))) (List.replicate 8 0)

end Sys2Proof.Machine
end

