-- ==== Sys2Proof/Machine/Meridian.lean ====
section
/-! DEFINITION. The Meridian order (05_formats_meridian.md, R106, R110 to R118): exact products, the group sum with its
discard depth, the chunked dot product and the tree over leaves. -/

namespace Sys2Proof.Machine

/-- The compute classes of R106. -/
inductive Class where
  | fp8
  | mxfp8
  | mxfp4
  | bf16
  | fp16
  deriving DecidableEq, Repr

/-- The class of a stored format code (R106, R61). -/
def Class.ofFmt (code : Nat) : Option Class :=
  match code with
  | 0 => some .fp8
  | 1 => some .fp8
  | 2 => some .mxfp8
  | 3 => some .mxfp8
  | 4 => some .mxfp4
  | 5 => some .bf16
  | 6 => some .fp16
  | _ => none

def Class.isMx : Class → Bool
  | .mxfp8 => true
  | .mxfp4 => true
  | _ => false

/-- G by class and edition (R106, R118). -/
def Class.group (c : Class) (edition : Nat) : Nat :=
  match c with
  | .fp8 => if edition = 1 then 16 else 32
  | .mxfp8 => 32
  | .mxfp4 => 32
  | .bf16 => 16
  | .fp16 => 16

/-- Q, the chunk length (R118). -/
def chunkLen (edition : Nat) : Nat := if edition = 1 then 2048 else 4096

/-- W, the discard depth (R118). -/
def discardDepth (edition : Nat) : Nat := if edition = 1 then 40 else 48

/-- The element format of a stored format code (R61, R102). -/
def elemFmt (code : Nat) : Fmt :=
  match code with
  | 0 => e4m3
  | 1 => e5m2
  | 2 => e4m3
  | 3 => e5m2
  | 4 => e2m1
  | 5 => bf16
  | _ => fp16

/-- ⌊|p| / 2^q⌋ of a finite value, with its sign, and whether a nonzero bit is lost (R112). -/
def cutAt (q : Int) : Fv → Int × Bool
  | .fin n m e =>
    if q ≤ e then (signedMant n (m * 2 ^ (e - q).toNat), false)
    else
      let d := 2 ^ (q - e).toNat
      (signedMant n (m / d), m % d != 0)
  | _ => (0, false)

/-- `group_sum` of R110 on exact products, with scale exponent `t` (none: a NaN scale). `created` says that a product
was infinity times zero. -/
def groupSum (w : Nat) (ps : List Fv) (created : Bool) (t : Option Int) : W32 × Ev :=
  match t with
  | none => (0x7FC00000#32, { nanc := created })
  | some t =>
    if ps.any Fv.isNan then (0x7FC00000#32, { nanc := created })
    else
      let pinf := ps.any (fun p => p.isInf && !p.isNeg)
      let ninf := ps.any (fun p => p.isInf && p.isNeg)
      if pinf && ninf then (0x7FC00000#32, { nanc := true })
      else if pinf then (0x7F800000#32, {})
      else if ninf then (0xFF800000#32, {})
      else
        let nz := ps.filter (fun p => !p.isZero)
        match nz with
        | [] => (if ps.all Fv.isNeg then 0x80000000#32 else 0#32, {})
        | p0 :: rest =>
          let ex : Int := rest.foldl (fun a p => max a p.exponent) p0.exponent
          let q := ex - w
          let cuts := nz.map (cutAt q)
          let s : Int := cuts.foldl (fun a c => a + c.1) 0
          let lost : Nat := if cuts.any Prod.snd then 1 else 0
          if s = 0 then (0#32, { disc := lost })
          else
            let r := fp32.round .near true (s < 0) s.natAbs (q + t)
            (BitVec.ofNat 32 r.1, { r.2 with disc := lost })

/-- `product` of R110, with whether it created a NaN. -/
def exactProduct (x y : Fv) : Fv × Bool :=
  let p := x.mul y
  (p, p.isNan && !x.isNan && !y.isNan)

/-- The group sum of pairs of operand values. -/
def groupOf (w : Nat) (xs : List (Fv × Fv)) (t : Option Int) : W32 × Ev :=
  let ps := xs.map (fun x => exactProduct x.1 x.2)
  groupSum w (ps.map Prod.fst) (ps.any Prod.snd) t

/-- add32 on a value with its events. -/
def addEv (a b : W32 × Ev) : W32 × Ev :=
  let r := add32 a.1 b.1
  (r.1, (a.2.merge b.2).merge r.2)

/-- The operand pairs cut into groups of `g`, the last completed with +0 products (R113). -/
def groupsOf (g : Nat) (xs : List (Fv × Fv)) : Nat → List (List (Fv × Fv))
  | 0 => []
  | fuel + 1 =>
    match xs with
    | [] => []
    | _ => (xs.take g ++ List.replicate (g - xs.length) (.fin false 0 0, .fin false 0 0))
            :: groupsOf g (xs.drop g) fuel

/-- One chunk added to an accumulator, group by group in ascending position (R111, R113); the scale exponent of group
number `m` is `sc m`. -/
def accumulate (w g : Nat) (sc : Nat → Option Int) (acc : W32 × Ev) (xs : List (Fv × Fv)) : W32 × Ev :=
  ((groupsOf g xs xs.length).zipIdx).foldl (fun a p => addEv a (groupOf w p.1 (sc p.2))) acc

/-- One level of the tree of R114: neighbours are combined, an odd last one passes up unchanged. -/
def treeLevel {α : Type} (f : α → α → α) : List α → List α
  | a :: b :: r => f a b :: treeLevel f r
  | l => l

/-- `meridian_tree` of R114 over at least one leaf. -/
def treeFold {α : Type} (f : α → α → α) (dflt : α) : Nat → List α → α
  | 0, l => l.headD dflt
  | fuel + 1, l =>
    match l with
    | [] => dflt
    | [x] => x
    | l => treeFold f dflt fuel (treeLevel f l)

/-- The tree with add32 over FP32 leaves, with the events of its nodes. -/
def meridianTree (xs : List W32) : W32 × Ev :=
  treeFold addEv (0, {}) xs.length (xs.map (fun x => (x, {})))

/-- `meridian_dot` of R110 over operand values (classes without scales), for editions 1 and 2 and group size `g`. -/
def meridianDot (edition g : Nat) (xs : List (Fv × Fv)) : W32 × Ev :=
  let q := chunkLen edition
  let leaf (c : Nat) : W32 × Ev :=
    accumulate (discardDepth edition) g (fun _ => some 0) (0, {}) ((xs.drop (c * q)).take q)
  let n := max 1 ((xs.length + q - 1) / q)
  treeFold addEv (0, {}) n ((List.range n).map leaf)

end Sys2Proof.Machine
end

