-- ==== Sys2Proof/Machine/State.lean ====
section
/-! DEFINITION. The state of the Ikiroth as plain data: every register, store, counter, queue and pin the spec gives
it, the queue of waiting commands, and the model's own fields `pending`, `tx` and `free`. Dictionary entries whose home
is the dictionary are held in `dict` and `kept` by number 256·index + subindex; the others are computed from the state
they show. -/

namespace Sys2Proof.Machine

/-! ### Walks and the units of a core -/

/-- One used level of a descriptor table, for the operand column a binding selected (R82). -/
structure Level where
  bound : Nat
  order : Nat
  dim : Nat
  pad : Bool
  dscale : Int
  stride : Int
  deriving DecidableEq, Repr

/-- A bound descriptor table (R78 to R83): the used levels by ascending `ORDER`, the dimensions, the selected column. -/
structure Walk where
  levels : List Level
  dims : List (Nat × Int)
  space : Bool
  elem : Nat
  wsBase : Nat
  wsWindow : Nat
  memBase : W64
  memSpan : Nat
  deriving DecidableEq, Repr

/-- The attention state of bank B (R215): d, class, `VHALF`, and m and l of each row. -/
structure AttnState where
  d : Nat
  cls : Class
  vhalf : Nat
  m : Store 32
  l : Store 32
  deriving DecidableEq, Repr

/-- One accumulator bank (R51, R113, R127, R151, R191, R220). Cell (i, j) is at 128·i + j. `colFill` holds the fill of
the columns that an `M.GSTREAM` has given one of their own, `grouped` whether one has written the bank since its last
clearing by an `M.STREAM`, `governed` whether there was such a clearing. -/
structure Bank where
  acc : Store 32
  fill : Nat
  colFill : Tbl Nat
  grouped : Bool
  governed : Bool
  cls : Option Class
  chain : Nat
  attn : Option AttnState
  scores : Bool
  deriving DecidableEq, Repr

/-- The generator state of R262. -/
structure RngState where
  seed : BitVec 256
  step : W32
  xbase0 : W64
  xbase1 : W64
  dxbase : W64
  dxrow : W32
  deriving DecidableEq, Repr

/-- The comparator's job state (R249). -/
structure SluiceJob where
  step : W32
  tide : W32
  mapBase : W64
  tiles : Nat
  blocks : Nat
  weirs : List W32
  deriving DecidableEq, Repr

/-- The comparator (R249, R250): job state, and tile state D, Y, U. -/
structure SluiceState where
  job : Option SluiceJob
  d : W32
  y : W32
  u : Bool
  deriving DecidableEq, Repr

/-- A space in which footprints are compared (R65). Memory addresses are as written, in their view. -/
inductive Space where
  | ws
  | mem
  | bank (b : Bool)
  deriving DecidableEq, Repr

/-- A closed range of a footprint: lines of the working store, bytes of memory, or a bank. -/
structure Range where
  space : Space
  lo : Nat
  hi : Nat
  deriving DecidableEq, Repr

/-- An `M.STREAM` or `M.GSTREAM` as copied at issue (R60, R132, R193, R210): fields, walks with their generators, words. -/
structure StreamJob where
  f : MFields
  attn : Bool
  cols : Option (Nat × Nat)
  a : Nat × Walk
  b : Nat × Walk
  v : Option (Nat × Walk)
  scaleA : Option (Nat × Walk)
  scaleB : Option (Nat × Walk)
  sparseMeta : Option (Nat × Walk)
  words : List W64
  deriving DecidableEq, Repr

/-- An `M.DRAIN` as copied at issue (R132, R193, R210, R266): `DXBASE` and `DXROW` with the generator state they belong
to, so that the drain gives what it gives alone (R65). -/
structure DrainJob where
  f : MFields
  attn : Bool
  out : Nat × Walk
  res : Option (Nat × Walk)
  words : List W64
  rng : RngState
  deriving DecidableEq, Repr

/-- How far an `A.KVLOAD` or `A.KVAPPEND` has come (R239, R240): it waits at the cache home, the home has translated
it, or a load waits there again to release its pins. -/
inductive KvStage where
  | asked
  | translated
  | releasing
  deriving DecidableEq, Repr

/-- An `A.KVLOAD` or `A.KVAPPEND` (R237) with what it holds once translated (R246): its pages by page index, the pages
that a load has pinned, the copies on write that an append has still to switch as (page-table entry address, old page,
new page). -/
structure KvJob where
  seq : Nat
  layer : Nat
  pos : Nat
  f : KFields
  stage : KvStage
  pages : List (Nat × Nat)
  pins : List Nat
  cows : List (W64 × Nat × Nat)
  deriving DecidableEq, Repr

/-- The operations a core may have unfinished. -/
inductive Op where
  | load (ag : Nat) (t : Walk) (base : W64) (line : Nat)
  | store (ag : Nat) (t : Walk) (base : W64) (line : Nat)
  | stream (j : StreamJob)
  | drain (j : DrainJob)
  | put (rank : Nat) (srcLine lines : Nat) (rtag : Nat)
  | recv (dstLine lines : Nat)
  | iload (addr : W64) (n target : Nat)
  | counter (dst : BitVec 6)
  | seq (dst : BitVec 6)
  | kvload (j : KvJob)
  | kvappend (j : KvJob)
  | sample (draw : W64) (rng : RngState) (line : Nat)
  | update (func : Nat) (line : Nat) (desc : List Byte)
  | fabric (id : Nat)
  | media (engine : Nat) (id : Nat)
  | win (pipe : Bool) (vd : BitVec 6) (value : BitVec 4096) (taps : Nat)
  deriving DecidableEq, Repr

/-- An unfinished asynchronous operation: its number in order of issue, the issuing bundle and slot (R73), the tag it
holds, its footprints (R65), and the lines that another slot of its bundle writes as they stood before the bundle, from a
byte of the working store on (R56). -/
structure AsyncOp where
  stamp : Nat
  slot : Nat
  bundle : Nat
  tag : Option Nat
  op : Op
  reads : List Range
  writes : List Range
  before : List (Nat × List Byte)
  deriving DecidableEq, Repr

/-- The operations of a bundle's slots. -/
inductive SlotOp where
  | add (f : SFields)
  | sub (f : SFields)
  | mul (f : SFields)
  | and (f : SFields)
  | or (f : SFields)
  | xor (f : SFields)
  | shl (f : SFields)
  | shr (f : SFields)
  | sar (f : SFields)
  | min (f : SFields)
  | max (f : SFields)
  | cmpEq (f : SFields)
  | cmpNe (f : SFields)
  | cmpLt (f : SFields)
  | cmpLtu (f : SFields)
  | cmpLe (f : SFields)
  | cmpLeu (f : SFields)
  | ld (f : SFields)
  | st (f : SFields)
  | sys (f : SFields)
  | aLoop (f : AFields)
  | aLoad (f : AFields)
  | aStore (f : AFields)
  | aWait (f : AFields)
  | kvload (f : KFields)
  | kvappend (f : KFields)
  | sample (f : AFields)
  | update (func : Nat) (f : UFields)
  | stream (attn : Bool) (f : MFields)
  | gstream (f : GFields)
  | drain (attn : Bool) (f : MFields)
  | mWait (f : MFields)
  | vFma (f : VFields)
  | vAdd (f : VFields)
  | vMul (f : VFields)
  | vMax (f : VFields)
  | vMin (f : VFields)
  | vExp2 (f : VFields)
  | vLog2 (f : VFields)
  | vCvt (f : VFields)
  | vLd (f : VFields)
  | vSt (f : VFields)
  | vSel (f : VFields)
  | vCmp (f : VFields)
  | vRsum (mode : Nat) (f : VFields)
  | vWin (op : Nat) (f : WFields)
  | sluice (sop : Nat) (f : LFields)
  | rng (rfn : Nat) (f : RFields)
  | jmp (f : XFields)
  | br (f : XFields)
  | call (f : XFields)
  | ret (f : XFields)
  | bar (f : XFields)
  | fetchadd (f : XFields)
  | cset (f : XFields)
  | put (f : XFields)
  | recv (f : XFields)
  | fence (f : XFields)
  | iload (f : XFields)
  | xWait (f : XFields)
  | halt (f : XFields)
  | seq (fn : Nat) (f : XFields)
  | fabric (f : XFields)
  | media (f : XFields)
  deriving DecidableEq, Repr

/-- One slot of a bundle: its number, its guard (R54), its operation. -/
structure Slot where
  num : Nat
  pred : BitVec 4
  pneg : Bool
  op : SlotOp
  deriving DecidableEq, Repr

/-- A fault waiting to be taken at the next bundle boundary (R73): code, detail, the issuing slot and bundle. -/
structure PendingFault where
  code : Nat
  detail : W64
  slot : Nat
  bundle : Nat
  more : Nat
  deriving DecidableEq, Repr

/-- What a core is doing beyond issuing: waiting at a barrier of a scope (R68), or halted (R70). -/
inductive CoreHold where
  | none
  | barrier (site : Bool)
  | halted
  deriving DecidableEq, Repr

/-- The state of one core (R51, R77). `agPos` holds each generator's walk position, `pipeline` the pipeline image as the
last pre-emption captured it (R75). (DEDUCED: log entry 85) -/
structure CoreState where
  ctx : Option W12
  rank : Nat
  power : Nat
  waking : Bool
  g : Store 64
  p : BitVec 16
  v : Store 4096
  ag : Tbl Walk
  agPos : Tbl Nat
  pc : Nat
  calls : List (BitVec 11)
  istore : Store 1024
  sstore : Store 64
  ws : Store 8
  bankA : Bank
  bankB : Bank
  pipeline : BitVec 1048576
  rng : RngState
  sluice : SluiceState
  running : Bool
  hold : CoreHold
  staged : List Slot
  issueQ : List (List Slot)
  ops : List AsyncOp
  fault : Option PendingFault
  deriving DecidableEq, Repr

/-! ### Contexts, packages and slots (16_partitions.md, 17_ports_transport.md) -/

/-- The package descriptor's fields the Ikiroth acts on (R353, R414). -/
structure Pkg where
  ordinal : Nat
  version : Nat
  e2e : Bool
  sealed : Bool
  length : Nat
  dest : W64
  program : W64
  bundles : Nat
  start : Nat
  resAddr : W64
  resBytes : Nat
  crc : W64
  declOffset : Nat
  declCount : Nat
  key : Option (BitVec 256)
  nonce : List Byte
  deriving DecidableEq, Repr

/-- A package in assembly (R355): the segments that have arrived as (offset, bytes); once it is whole and has passed its
own checks, its plain bytes as one part, its descriptor, and the requests to answer when it is posted. -/
structure Assembly where
  ordinal : Nat
  parts : List (Nat × List Byte)
  ready : Option Pkg
  replies : List HostHdr
  deriving DecidableEq, Repr

/-- A package whose completion record waits for its slot (R362): the teardown's code, and its descriptor when it ran. -/
structure Unplaced where
  ordinal : Nat
  code : Nat
  ran : Option Pkg
  deriving DecidableEq, Repr

/-- A result slot (R336, R359 to R361): its tag, the completion record while READY, whether it was released. -/
structure ResultSlot where
  tag : Nat
  record : Option (List Byte)
  released : Bool
  resAddr : W64
  resBytes : Nat
  sealed : Option (List Byte)
  deriving DecidableEq, Repr

/-- A record of the declaration table (R357, R358). -/
structure Decl where
  kind : Nat
  leaves : Nat
  ident : W64
  addr : W64
  deriving DecidableEq, Repr

/-- The fabric group a context has joined (R369), with the collectives of it that have ended here. -/
structure Group where
  ident : W64
  members : List W16
  mine : Nat
  ended : List W64
  deriving DecidableEq, Repr

/-- A context (R322 to R341). `driven` says that the scheduler has chosen it since it opened, so that the cycle counts of
its cores may have advanced (R333). -/
structure Ctx where
  state : Nat
  sites : W16
  prio : Nat
  relaxed : Bool
  preemptible : Bool
  saveOff : W64
  csEd : Nat
  mEd : Nat
  e4nan : Bool
  cores : List Nat
  images : List CoreState
  queue : List Pkg
  asm : List Assembly
  nextPost : Nat
  running : Option Pkg
  openAt : Nat
  readyAt : Nat
  granted : Bool
  hasState : Bool
  driven : Bool
  moveTo : Option W16
  decls : List Decl
  slots : Tbl ResultSlot
  discards : List Unplaced
  group : Option Group
  openedBy : W32
  openPayload : List Byte
  lastFault : Nat
  faultScope : Nat
  preempted : Nat
  timing : Nat
  result : Nat
  deriving DecidableEq, Repr

/-! ### Shared services -/

/-- The direction keys that a handshake gives (R409): from the initiator to the Ikiroth, and back. -/
structure Keys where
  i2d : BitVec 256
  d2i : BitVec 256
  deriving DecidableEq, Repr

/-- A request at a controller's work counters (R72), with the opening of the context that sent it (R331). -/
structure CtrReq where
  core : Nat
  ctx : W12
  opened : Nat
  tag : Nat
  dst : BitVec 6
  counter : Nat
  isSet : Bool
  operand : W64
  deriving DecidableEq, Repr

/-- An `X.SEQ` at the cache home (R236): its context, the rank of the core that issued it, its tag and operands. -/
structure SeqReq where
  ctx : W12
  rank : Nat
  tag : Nat
  dst : BitVec 6
  fn : Nat
  a : W64
  b : W64
  src : Nat
  slot : Nat
  bundle : Nat
  deriving DecidableEq, Repr

/-- An `A.KVLOAD` or `A.KVAPPEND` at the cache home: the core's context and rank, its tag, its slot and bundle. -/
structure KvReq where
  ctx : W12
  rank : Nat
  tag : Nat
  slot : Nat
  bundle : Nat
  deriving DecidableEq, Repr

/-- What waits at the cache home (R234): an `X.SEQ`, the translation of a load or append, the release of a load's pins. -/
inductive HomeReq where
  | seq (r : SeqReq)
  | translate (r : KvReq)
  | release (r : KvReq)
  deriving DecidableEq, Repr

/-- A Sluice post on its way to the home (R254). -/
structure Post where
  core : Nat
  ctx : W12
  rank : Nat
  addr : W64
  bit : Nat
  slot : Nat
  bundle : Nat
  deriving DecidableEq, Repr

/-- A node of a relaxed collective as it forms in order of arrival (R371): first leaf and leaves of the node, the ranges of
leaves added so far, their sum. -/
structure FabricSum where
  first : Nat
  leaves : Nat
  added : List (Nat × Nat)
  sum : List W32
  deriving DecidableEq, Repr

/-- An `X.FABRIC` in progress (R369 to R374), carried on by the collective engine. `state`: 0 in progress, 1 ready to
complete, 2 not yet issued here, holding what has arrived for its `COLL_ID`. `nodes` are (first leaf, leaves, elements),
the latest first; in a relaxed context `sums` are the nodes that form in order of arrival (R371). `parts` are parts of
nodes still to come whole, `results` those of a result, written or not, as (offset, bytes). `closing` says that it only
waits for acknowledgements. -/
structure FabricOp where
  id : Nat
  ctx : W12
  rank : Nat
  tag : Nat
  descAt : Nat
  func : Nat
  words : List W64
  nodes : List (Nat × Nat × List W32)
  sums : List FabricSum
  parts : List (Nat × Nat × Nat × List W32)
  results : List (Nat × List Byte)
  closing : Bool
  events : List Ev
  state : Nat
  fstatus : Nat
  slot : Nat
  bundle : Nat
  deriving DecidableEq, Repr

/-- What a fabric packet carries (R369, R370): bytes of a PUT, a part of a node, a part of a result. -/
inductive FabricMsg where
  | put (addr : W64) (data : List Byte)
  | node (coll : W64) (first leaves : Nat) (from' : Nat) (elements : List W32)
  | result (coll : W64) (offset : Nat) (data : List Byte)
  deriving DecidableEq, Repr

/-- A fabric packet not yet acknowledged (R372): its path as (port, UDP source port), 16 for `FABRIC_UDP_PORT`, none until
there is a link; whether it holds a credit; whether it still waits to be sent. -/
structure FabricPkt where
  id : Nat
  op : Nat
  ctx : W12
  peer : W16
  path : Option (Nat × Nat)
  credit : Bool
  waiting : Bool
  retries : Nat
  msg : FabricMsg
  deriving DecidableEq, Repr

/-- A fabric link to a peer (R368, R412): the negotiated edition, the polder scope of the peer's credential, the keys, the
credits that the peer has granted and those granted to it (R372), the peer's packets taken.
(DESIGN CHOICE: log entry 61) -/
structure FabricLink where
  peer : W16
  edition : Nat
  scope : W16
  keys : Keys
  credits : Nat
  granted : Nat
  taken : List Nat
  deriving DecidableEq, Repr

/-- A media stream context (R379 to R384): its polder, its OPEN words, the next ordinal, its state while an engine holds
it, the picture slots that its hold slots keep (the latest first), its last picture, and the last good reference (R391). -/
structure Stream where
  polder : Nat
  words : List W64
  next : Nat
  state : List Byte
  holds : List (Nat × Nat)
  last : Option Config.Kept
  good : Option Config.Kept
  deriving DecidableEq, Repr

/-- A media job (R379, R383). -/
structure MediaJob where
  id : Nat
  core : Nat
  ctx : W12
  rank : Nat
  tag : Nat
  polder : Nat
  descAddr : W64
  words : List W64
  dropped : Bool
  deriving DecidableEq, Repr

/-- A media engine (R383, R393). `switching` says that it has switched streams for the job that it runs, `waiters` the
cores, with their contexts, whose `X.MEDIA` waits for a place, in order of arrival. -/
structure Engine where
  queue : List MediaJob
  running : Option MediaJob
  switching : Bool
  streams : Tbl Stream
  lastStream : Option Nat
  waiters : List (Nat × W12)
  deriving DecidableEq, Repr

/-! ### The always-on controller -/

/-- The body of a Tsusen request (R43). -/
inductive Body where
  | read (index : Nat) (sub : Nat)
  | write (index : Nat) (sub : Nat) (data : List Byte)
  | segRead (index : Nat) (sub : Nat) (offset : Nat) (length : Nat) (gen : W32)
  | segWrite (index : Nat) (sub : Nat) (offset : Nat) (last : Bool) (data : List Byte)
  | subscribe (index : Nat) (on : Bool)
  | recordRead (index : Nat)
  | batch (payload : List Byte)
  | close
  | undefined (type : Nat)
  deriving DecidableEq, Repr

structure Req where
  h : Hdr
  body : Body
  deriving DecidableEq, Repr

/-- What waits for the always-on controller (R28): a request of a session, or a message without one. -/
inductive MgmtMsg where
  | request (q : Req)
  | discover (path : MgmtPath)
  | openPart (path : MgmtPath) (session seq : W16) (msg : HsPart)
  | finishPart (path : MgmtPath) (session seq : W16) (frag : Fragment)
  deriving DecidableEq, Repr

/-- A response (R43, R44): its header beside `EDITION`, `SESSION`, `SEQUENCE` and `LENGTH`, and its payload. -/
structure Resp where
  type : Nat
  index : Nat := 0
  sub : Nat := 0
  offset : Nat := 0
  status : Nat
  payload : List Byte
  deriving DecidableEq, Repr

/-- A `SEG_WRITE` sequence in progress (R36). -/
structure SegSeq where
  key : Nat
  data : List Byte
  deriving DecidableEq, Repr

/-- A Tsusen session (R43 to R47). Roles: 0 Observer, 1 Operator, 2 Owner, 3 Vendor. `enrolKey` holds the subject key of
a session opened under R407 on an unenrolled part. -/
structure Session where
  role : Nat
  edition : Nat
  path : MgmtPath
  scope : W16
  udpPort : Nat
  served : Nat
  newest : Option W16
  responses : List (W16 × Resp)
  subs : List Nat
  seg : Option SegSeq
  keys : Keys
  enrolKey : Option (BitVec 512)
  deriving DecidableEq, Repr

/-- A handshake (R409 to R411): what has arrived of H1 and H3, H2 with the size of its fragments, whether H2 is signed or
waits to be, the number of its fresh key, the offered editions, and once it has ended the number, status and payload of
its last answer. -/
structure Handshake where
  path : HsPath
  mgmt : MgmtPath
  id : W32
  h1Total : Nat
  h1 : List (Nat × List Byte)
  cut : Nat
  h2 : List Byte
  signed : Bool
  queued : Bool
  fresh : Nat
  h3Total : Nat
  h3 : List (Nat × List Byte)
  lo : Nat
  hi : Nat
  acked : Option (W32 × Nat × List Byte)
  deriving DecidableEq, Repr

/-- A host association (R351). -/
structure Association where
  num : W32
  ipv6 : Bool
  keys : Keys
  role : Nat
  edition : Nat
  scope : W16
  deriving DecidableEq, Repr

/-- A MACsec secure channel (R347 to R349): its peer station and keys, the highest accepted packet number, those accepted
within the window, whether frames under the old key are still taken, whether its handshake is to run again. -/
structure Channel where
  num : Nat
  peer : BitVec 48
  keys : Keys
  highest : Nat
  seen : List Nat
  oldKey : Bool
  rekeying : Bool
  deriving DecidableEq, Repr

/-- An Ethernet port (R344 to R349). `linkState`: 0 down, 1 negotiating, 2 training, 3 up, 4 secured. -/
structure Port where
  linkState : Nat
  mode : Nat
  kind : Nat
  retryWait : Bool
  channels : List Channel
  deriving DecidableEq, Repr

/-- A DOMAIN's content (R34): size, generation, bytes. -/
structure Domain where
  size : Nat
  gen : W32
  bytes : Store 8
  deriving DecidableEq, Repr

/-- One copy of the rollback record (R399, R404): its MAC and digest, and whether the boot has found that they verify. -/
structure Rollback where
  ok : Bool
  mac : BitVec 256
  digest : BitVec 256
  seq : Nat
  counter : Nat
  active : Nat
  trial : Nat
  attempted : Nat
  deriving DecidableEq, Repr

/-- One copy of the kept entries (R398, R399): sequence number, digest, the entries and the kept DOMAINs. -/
structure KeptCopy where
  seq : Nat
  digest : BitVec 256
  entries : Tbl Nat
  domains : Tbl Domain
  deriving DecidableEq, Repr

/-- One copy of the owner record (R398, R399, R407). -/
structure OwnerCopy where
  seq : Nat
  digest : BitVec 256
  key : Option Nat
  deriving DecidableEq, Repr

/-- What a nonvolatile batch writes (R398 to R401), and whom it answers: the items of a `WRITE` or `BATCH_WRITE` as entry
numbers and values, with the ordinal of the first kept one in a batch; a kept DOMAIN; an image; nothing any more, where
the input loss has stopped the write (R401). -/
inductive NvWork where
  | items (req : Req) (values : List (Nat × Nat)) (ordinal : Option Nat)
  | keptDomain (req : Req) (key : Nat) (data : List Byte)
  | image (req : Req) (data : List Byte)
  | stopped
  deriving DecidableEq, Repr

/-- A batch: where in the store it begins (R398), its bytes, and what it belongs to. -/
structure NvBatch where
  place : Nat
  bytes : Nat
  work : NvWork
  deriving DecidableEq, Repr

/-- The messages, notices and frames that the Ikiroth sends: the model's own record of its outputs (log entry 8). `wire` is
a Tsusen message's header, payload and tag as they leave (R43). -/
inductive Tx where
  | tsusen (path : MgmtPath) (session seq : W16) (r : Resp) (wire : List Byte)
  | notify (session : W16) (index : Nat) (flags : W32) (wire : List Byte)
  | host (type : Nat) (h : HostHdr) (status : Nat) (payload : List Byte)
  | ready (assoc : W32) (ctx : W12) (slot : Nat) (tag : Nat)
  | arpReply (dest : BitVec 48)
  | neighbourAdvert (dest : BitVec 48)
  | hs (path : HsPath) (type : Nat) (id : W32) (total offset : Nat) (bytes : List Byte)
  | fabric (peer : W16) (port : Nat) (source : Nat) (packet : Nat) (msg : FabricMsg)
  | fabricAck (peer : W16) (packet : Nat)
  | fabricCredit (peer : W16) (credits : Nat)
  | fabricAbort (peer : W16) (coll : W64)
  | fabricRefusal (peer : W16) (packet : Nat)
  deriving DecidableEq, Repr

/-- Errors in a stored code word (R308, R309): symbols in error, soft and hard; j for D_j, 32 + k for P_k. -/
structure WordError where
  soft : List Nat
  hard : List Nat
  deriving DecidableEq, Repr

/-- The factory record (R1, R37, R397): what it fixes for the part, and its signature. -/
structure Part where
  disabled : List Nat
  serial : BitVec 128
  mgmtMac : BitVec 48
  portMacs : List (BitVec 48)
  trims : List Byte
  helper : List Byte
  signature : List Byte
  deriving DecidableEq, Repr

/-- Supply, reset and trip state (R428 to R430). -/
structure Supply where
  vaon : Bool
  vhold : Bool
  pwrok : Bool
  rails : Bool
  inputLost : Bool
  tripped : Bool
  inReset : Bool
  resetAfterBatch : Bool
  booted : Bool
  deriving DecidableEq, Repr

/-- A polder's services and forming (R320, R234, R254). -/
structure Polder where
  formed : Bool
  joining : W16
  cacheInit : Bool
  stackDepth : Nat
  homeQ : List HomeReq
  posts : List Post
  deriving DecidableEq, Repr

/-- The Ikiroth. -/
structure State where
  part : Part
  supply : Supply
  cores : Tbl CoreState
  ctxs : Tbl Ctx
  polders : Tbl Polder
  mem : Store 8
  check : Store 8
  memErr : Tbl WordError
  counters : Store 64
  ctrQ : Tbl (List CtrReq)
  fabricOps : List FabricOp
  fabricPkts : List FabricPkt
  links : List FabricLink
  engines : Tbl Engine
  dict : Tbl Nat
  kept : Tbl Nat
  domains : Tbl Domain
  arrived : List (Nat × Nat × Nat)
  alertN : Bool
  thermTripN : Bool
  plcaNode : Byte
  sessions : Tbl Session
  mgmtQ : List MgmtMsg
  handshakes : List Handshake
  signQ : List (HsPath × W32)
  assocs : List Association
  ports : Tbl Port
  sealKeys : Tbl (BitVec 256)
  attest : Option (BitVec 256)
  slotA : List Byte
  slotB : List Byte
  rollA : Rollback
  rollB : Rollback
  keptA : KeptCopy
  keptB : KeptCopy
  ownerA : OwnerCopy
  ownerB : OwnerCopy
  secret : BitVec 256
  trims : List Byte
  nvQ : List NvBatch
  nvRun : Option NvBatch
  wakeQ : List Nat
  wakeHeld : List Nat
  startQ : List Nat
  evalsBelow : Nat
  evalsAtMax : Nat
  readyCount : Nat
  nextId : Nat
  pending : List Instr
  tx : List Tx
  free : Nat
  deriving DecidableEq, Repr

/-! ### Outcomes that are not a next state -/

/-- Why the machine stops. No command of this model stops it: every condition the spec calls a fault ends a context and
the device goes on (R331). (DESIGN CHOICE: log entry 80) -/
inductive Fault where
  /-- Raised by no meaning; the type needs an inhabitant to be printed. Safe. -/
  | deviceHalted
  deriving DecidableEq, Repr

/-- Why a command has no meaning. (DESIGN CHOICE: log entry 80) -/
inductive Refusal where
  /-- Raised by an arm of the dispatch whose meaning is not written yet. Safe. -/
  | notModelled (mnemonic : String)
  deriving DecidableEq, Repr

/-! ### Reset -/

def Bank.reset : Bank :=
  { acc := [], fill := 0, colFill := [], grouped := false, governed := false, cls := none, chain := 0, attn := none, scores := false }

def RngState.reset : RngState := { seed := 0, step := 0, xbase0 := 0, xbase1 := 0, dxbase := 0, dxrow := 0 }

def SluiceState.reset : SluiceState := { job := none, d := 0, y := 0, u := false }

/-- A core after reset: SLEEP (R77 default 3, R403 step 4), no context, every store zero (R325).
(DESIGN CHOICE: log entry 11) -/
def CoreState.reset : CoreState :=
  { ctx := none, rank := 0xFFFF, power := 3, waking := false, g := [], p := 0, v := [], ag := [], agPos := [], pc := 0, calls := [],
    istore := [], sstore := [], ws := [], bankA := Bank.reset, bankB := Bank.reset, pipeline := 0, rng := RngState.reset,
    sluice := SluiceState.reset, running := false, hold := .none, staged := [], issueQ := [], ops := [], fault := none }

/-- A context that has never been open. (DESIGN CHOICE: log entry 11) -/
def Ctx.closed : Ctx :=
  { state := 0, sites := 0, prio := 0, relaxed := false, preemptible := false, saveOff := 0, csEd := 0, mEd := 0,
    e4nan := false, cores := [], images := [], queue := [], asm := [], nextPost := 0, running := none, openAt := 0,
    readyAt := 0,
    granted := false, hasState := false, driven := false, moveTo := none, decls := [], slots := [], discards := [], group := none,
    openedBy := 0, openPayload := [], lastFault := 0, faultScope := 0, preempted := 0, timing := 0, result := 0 }

def Polder.reset : Polder :=
  { formed := false, joining := 0, cacheInit := false, stackDepth := 0, homeQ := [], posts := [] }

def Engine.reset : Engine :=
  { queue := [], running := none, switching := false, streams := [], lastStream := none, waiters := [] }

def Port.reset : Port := { linkState := 0, mode := 0, kind := 0, retryWait := false, channels := [] }

/-- The part after reset of a model that takes the manual's worked disabled-core map (R40; log entry 1). -/
def Part.reset : Part :=
  { disabled := [5, 17, 40, 41, 77, 98, 120, 143], serial := 0, mgmtMac := 0, portMacs := [0, 0, 0, 0, 0], trims := [],
    helper := [], signature := Config.factorySig 0 }

/-- The rollback record of a new part, with its MAC under k("IK2 rollback") (R396, R404). (DESIGN CHOICE: log entry 11) -/
def Rollback.reset : Rollback :=
  { ok := true, seq := 0, counter := 0, active := 0, trial := 0xFF, attempted := 0
    digest := Config.sha256 (toBytes 7 0xFF00 ++ toBytes 4 0)
    mac := Config.hmac (Config.hmac (Config.deviceSecret 0 []) (ascii "IK2 rollback")) (toBytes 7 0xFF00 ++ toBytes 4 0) }

/-- The kept entries and the owner record of a new part: nothing listed, under their digests (R399).
(DESIGN CHOICE: log entry 11) -/
def KeptCopy.reset : KeptCopy := { seq := 0, digest := Config.sha256 (Config.keptBytes 0 [] []), entries := [], domains := [] }

def OwnerCopy.reset : OwnerCopy := { seq := 0, digest := Config.sha256 (toBytes 4 0), key := none }

/-- The Ikiroth right after reset: powered, reset released, nothing booted yet, no polder, no session, memory empty;
every dictionary entry at its default (R26), which an unlisted entry reads as. (DESIGN CHOICE: log entry 11) -/
def State.reset : State :=
  { part := Part.reset
    supply := { vaon := true, vhold := true, pwrok := true, rails := true, inputLost := false, tripped := false,
                inReset := false, resetAfterBatch := false, booted := false }
    cores := [], ctxs := [], polders := [], mem := [], check := [], memErr := [], counters := [], ctrQ := [], fabricOps := [],
    fabricPkts := [], links := [], engines := [], dict := [], kept := [], domains := [], arrived := [],
    alertN := false, thermTripN := false, plcaNode := 0xFF#8, sessions := [], mgmtQ := [], handshakes := [],
    signQ := [], assocs := [], ports := [], sealKeys := [], attest := none, slotA := [], slotB := [],
    rollA := Rollback.reset, rollB := { Rollback.reset with ok := false, mac := 0, digest := 0 }, keptA := KeptCopy.reset
    keptB := KeptCopy.reset, ownerA := OwnerCopy.reset, ownerB := OwnerCopy.reset, secret := 0, trims := [], nvQ := [], nvRun := none, wakeQ := [],
    wakeHeld := [], startQ := [], evalsBelow := 0, evalsAtMax := 0, readyCount := 0, nextId := 0, pending := [],
    tx := [], free := 0 }

end Sys2Proof.Machine
end

