-- ==== Sys2Proof/Machine/Ops.lean ====
section
/-! DEFINITION. The operations every meaning is built from: tables and sparse stores, the parts of the state by number,
dictionary values, events, free values, and memory by code word (15_memory.md). -/

namespace Sys2Proof.Machine

/-! ### Tables and stores -/

/-- The record listed under a number. -/
def tblFind {α : Type} : List (Nat × α) → Nat → Option α
  | [], _ => none
  | (a, x) :: r, k => if a = k then some x else tblFind r k

/-- A table with a record put under a number, its numbers rising. -/
def tblPut {α : Type} : List (Nat × α) → Nat → α → List (Nat × α)
  | [], k, x => [(k, x)]
  | (a, y) :: r, k, x =>
    if k < a then (k, x) :: (a, y) :: r
    else if k = a then (k, x) :: r
    else (a, y) :: tblPut r k x

/-- A table without the record under a number. -/
def tblDrop {α : Type} (t : List (Nat × α)) (k : Nat) : List (Nat × α) := t.filter (fun p => p.1 != k)

/-- The cell at an address; an unlisted one holds zero. (DESIGN CHOICE: log entry 13) -/
def cell {w : Nat} (t : Store w) (a : Nat) : BitVec w := (tblFind t a).getD 0

/-- Consecutive cells from an address that are not zero, with their addresses. -/
def listed {w : Nat} : Nat → List (BitVec w) → Store w
  | _, [] => []
  | a, v :: r => if v = 0 then listed (a + 1) r else (a, v) :: listed (a + 1) r

/-- A store after consecutive cells are written from an address. -/
def putCells {w : Nat} (t : Store w) (a : Nat) (vs : List (BitVec w)) : Store w :=
  t.filter (fun p => p.1 < a) ++ listed a vs ++ t.filter (fun p => a + vs.length ≤ p.1)

/-- A store after one cell is written. -/
def putCell {w : Nat} (t : Store w) (a : Nat) (v : BitVec w) : Store w := putCells t a [v]

/-- `n` consecutive cells from an address. -/
def cells {w : Nat} (t : Store w) (a n : Nat) : List (BitVec w) :=
  let u := t.filter (fun p => a ≤ p.1 && p.1 < a + n)
  (List.range n).map (fun i => cell u (a + i))

/-- A store after the cells from `a` to `a + n` are zeroed. -/
def clearCells {w : Nat} (t : Store w) (a n : Nat) : Store w :=
  t.filter (fun p => p.1 < a) ++ t.filter (fun p => a + n ≤ p.1)

/-- The canonical form of a store: addresses strictly rising, no zero listed. -/
def Store.wf {w : Nat} : Store w → Bool
  | [] => true
  | [(_, v)] => v != 0
  | (a, v) :: (b, u) :: r => v != 0 && a < b && Store.wf ((b, u) :: r)

/-- The canonical form of memory. -/
def Memory.wf (t : Store 8) : Bool := Store.wf t

/-! ### Lists -/

/-- An element put in its place in a list in order, before those it equals. -/
def insertBy {α : Type} (le : α → α → Bool) (x : α) : List α → List α
  | [] => [x]
  | y :: r => if le x y then x :: y :: r else y :: insertBy le x r

/-- A list in order; elements that equal each other keep theirs. -/
def sortBy {α : Type} (le : α → α → Bool) (l : List α) : List α := l.foldr (insertBy le) []

/-- Bits [hi:lo] of a word as a number. -/
def bits {w : Nat} (v : BitVec w) (hi lo : Nat) : Nat := v.toNat / 2 ^ lo % 2 ^ (hi - lo + 1)

/-- A two's complement field of `n` bits. -/
def signed (n v : Nat) : Int := if v < 2 ^ (n - 1) then (v : Int) else (v : Int) - 2 ^ n

/-! ### The parts of the state -/

def State.core (s : State) (n : Nat) : CoreState := (tblFind s.cores n).getD CoreState.reset
def State.setCore (s : State) (n : Nat) (c : CoreState) : State := { s with cores := tblPut s.cores n c }
def State.onCore (s : State) (n : Nat) (f : CoreState → CoreState) : State := s.setCore n (f (s.core n))

def State.ctx (s : State) (n : Nat) : Ctx := (tblFind s.ctxs n).getD Ctx.closed
def State.setCtx (s : State) (n : Nat) (c : Ctx) : State := { s with ctxs := tblPut s.ctxs n c }
def State.onCtx (s : State) (n : Nat) (f : Ctx → Ctx) : State := s.setCtx n (f (s.ctx n))

def State.polder (s : State) (n : Nat) : Polder := (tblFind s.polders n).getD Polder.reset
def State.setPolder (s : State) (n : Nat) (p : Polder) : State := { s with polders := tblPut s.polders n p }
def State.onPolder (s : State) (n : Nat) (f : Polder → Polder) : State := s.setPolder n (f (s.polder n))

def State.engine (s : State) (n : Nat) : Engine := (tblFind s.engines n).getD Engine.reset
def State.setEngine (s : State) (n : Nat) (e : Engine) : State := { s with engines := tblPut s.engines n e }

def State.port (s : State) (n : Nat) : Port := (tblFind s.ports n).getD Port.reset
def State.setPort (s : State) (n : Nat) (p : Port) : State := { s with ports := tblPut s.ports n p }
def State.onPort (s : State) (n : Nat) (f : Port → Port) : State := s.setPort n (f (s.port n))

def State.session (s : State) (n : Nat) : Option Session := tblFind s.sessions n
def State.setSession (s : State) (n : Nat) (x : Session) : State := { s with sessions := tblPut s.sessions n x }

/-- A value the spec leaves open (log entry 2). -/
def State.freeVal (s : State) (w : Nat) : BitVec w := Config.freeBits w s.free
def State.usedFree (s : State) : State := { s with free := s.free + 1 }

/-! ### Dictionary values -/

/-- The stored value of an entry: kept, else volatile, else its default (R26). -/
def State.entry (s : State) (index sub : Nat) : Nat :=
  match tblFind s.kept (entryKey index sub) with
  | some v => v
  | none =>
    match tblFind s.dict (entryKey index sub) with
    | some v => v
    | none => entryDefault index sub

/-- A volatile entry after a write. -/
def State.setEntry (s : State) (index sub v : Nat) : State :=
  { s with dict := tblPut s.dict (entryKey index sub) v }

/-- Time may drive the counter of an entry from here until it is zeroed: its cell holds that, and what a `READ` returns is
open (log entry 3). -/
def State.mark (s : State) (index sub : Nat) : State := s.setEntry index sub 1

/-- A kept entry after its nonvolatile write. -/
def State.setKept (s : State) (index sub v : Nat) : State :=
  { s with kept := tblPut s.kept (entryKey index sub) v }

/-- A counter after `n` occurrences, wrapping at its width; its default is 0. -/
def State.bumpW (s : State) (w index sub n : Nat) : State :=
  let v := (tblFind s.dict (entryKey index sub)).getD 0
  { s with dict := tblPut s.dict (entryKey index sub) ((v + n) % 2 ^ w) }

/-- A U64 counter after `n` occurrences. -/
def State.bump (s : State) (index sub n : Nat) : State := if n = 0 then s else s.bumpW 64 index sub n

/-- A U32 counter after one occurrence. -/
def State.bump32 (s : State) (index sub : Nat) : State := s.bumpW 32 index sub 1

/-- The content of a DOMAIN from an offset (R34). -/
def State.domainBytes (s : State) (index sub off n : Nat) : List Byte :=
  match tblFind s.domains (entryKey index sub) with
  | none => List.replicate n 0
  | some d => cells d.bytes off n

/-- The size of a DOMAIN that has been written; 0 of one that has not. -/
def State.domainSize (s : State) (index sub : Nat) : Nat :=
  match tblFind s.domains (entryKey index sub) with
  | none => 0
  | some d => d.size

/-- The ports of a peer's port mask, ascending: bit q of the mask is port q. (DESIGN CHOICE: log entry 62) -/
def State.peerPorts (s : State) (peer : W16) : List Nat :=
  let mask := fieldAt (s.domainBytes 0x6001 4 (32 * peer.toNat) 32) 6 1
  [1, 2, 3, 4].filter (fun q => mask.testBit q)

/-- The escape path: the lowest port of the mask, from `FABRIC_UDP_PORT`. -/
def State.escapePort (s : State) (peer : W16) : Nat := (s.peerPorts peer).headD 1

/-! ### What the Ikiroth sends -/

/-- The 16-byte header of a Tsusen message (R43). -/
def tsusenHeader (edition type : Nat) (session seq : W16) (index sub status length offset : Nat) : List Byte :=
  [BitVec.ofNat 8 edition, BitVec.ofNat 8 type] ++ toBytes 2 session.toNat ++ toBytes 2 seq.toNat ++ toBytes 2 index
    ++ [BitVec.ofNat 8 sub, BitVec.ofNat 8 status] ++ toBytes 2 length ++ toBytes 4 offset

/-- A message of the Ikiroth as it leaves (R43): under the session's key with its tag, or in plain where there is none. -/
def State.wire (s : State) (session seq : W16) (head payload : List Byte) : List Byte :=
  match s.session session.toNat with
  | none => head ++ payload
  | some x => head ++ Config.gcmSeal x.keys.d2i (Config.tsusenNonce session false seq) head payload

/-- The bytes of a host-transport frame from destination address to FCS (R347, R350): Ethernet, SecTAG, IP, UDP, header,
payload, ICV, FCS. -/
def hostFrame (ipv6 : Bool) (n : Nat) : Nat := 14 + 16 + (if ipv6 then 40 else 20) + 8 + 32 + n + 16 + 4

/-- The port that a message leaves by and the length of its frame, where it leaves in one (R376).
(DESIGN CHOICE: log entry 77) -/
def State.frameOf (s : State) : Tx → Option (Nat × Nat)
  | .host _ h _ payload => some (0, hostFrame h.ipv6 payload.length)
  | .ready n _ _ _ => some (0, hostFrame ((s.assocs.find? (fun a => a.num == n)).any (fun a => a.ipv6)) 0)
  | .arpReply _ | .neighbourAdvert _ | .tsusen .inband _ _ _ _ => some (0, Config.frameLength s.tx.length)
  | .notify n _ _ _ =>
    if (s.session n.toNat).any (fun x => x.path == .inband) then some (0, Config.frameLength s.tx.length) else none
  | .hs (.port p _) _ _ _ _ bytes => some (p.toNat, max 64 (30 + bytes.length))
  | .hs (.fabric peer) _ _ _ _ _ | .fabricAck peer _ | .fabricCredit peer _ | .fabricAbort peer _ | .fabricRefusal peer _ =>
    some (s.escapePort peer, Config.frameLength s.tx.length)
  | .fabric _ port _ _ _ => some (port, Config.frameLength s.tx.length)
  | _ => none

/-- Something the Ikiroth sends (log entry 8): a port whose link is up counts the frame and its bytes (R376). -/
def State.send (s : State) (x : Tx) : State :=
  let t := { s with tx := s.tx ++ [x] }
  match s.frameOf x with
  | some (q, n) => if 3 ≤ (s.port q).linkState then (t.bump (0x6102 + 16 * q) 1 1).bump (0x6102 + 16 * q) 3 n else t
  | none => t

/-- `n` occurrences of event `b` of the status record at an index, on their way to the slow domain (R30).
(DESIGN CHOICE: log entry 58) -/
def State.event (s : State) (index b n : Nat) : State :=
  if n = 0 then s else { s with arrived := s.arrived ++ [(index, b, n)] }

/-! ### Units and polders -/

/-- Cores of the part that are enabled (R2, R3). -/
def State.coreEnabled (s : State) (n : Nat) : Bool := n < 144 && !s.part.disabled.contains n

/-- The site of a core (R5). -/
def siteOf (core : Nat) : Nat := core / 9

/-- The block index of entry offset `i` of a core (R77). -/
def coreIndex (core i : Nat) : Nat := 0x4000 + 16 * core + i

/-- The index of offset `i` of a polder's block (R340). -/
def polderIndex (p i : Nat) : Nat := 0x5100 + 16 * p + i

/-- The sites of a mask, ascending. -/
def sitesOf (mask : Nat) : List Nat := (List.range 16).filter (fun s => mask.testBit s)

/-- The site mask of a polder (R320). -/
def State.polderMask (s : State) (p : Nat) : Nat := s.entry (polderIndex p 0) 1

/-- The polder a site belongs to (R11). -/
def State.polderOfSite (s : State) (site : Nat) : Option Nat :=
  (List.range 16).find? (fun p => (s.polderMask p).testBit site)

/-- The enabled cores of a site mask, ascending. -/
def State.coresOf (s : State) (mask : Nat) : List Nat :=
  (List.range 144).filter (fun c => mask.testBit (siteOf c) && s.coreEnabled c)

/-- The polder of a context identifier (R5). -/
def polderOf (ctx : Nat) : Nat := ctx / 256 % 16

/-- The identifiers of a polder's contexts that are not CLOSED. -/
def State.openCtxs (s : State) (p : Nat) : List Nat :=
  (s.ctxs.filter (fun x => polderOf x.1 == p && x.2.state != 0)).map Prod.fst

/-! ### Addresses (R298 to R301) -/

/-- The spread region's size of a polder in each site, in bytes (R300). -/
def State.spreadBytes (s : State) (p : Nat) : Nat := s.entry (0x3010 + p) 0 * 2 ^ 30

/-- The site-view byte address that an address reaches for a polder, or none where R298 raises `POLDER_ACCESS`. -/
def State.resolve (s : State) (p : Nat) (addr : W64) : Option Nat :=
  let a := addr.toNat
  if 2 ^ 40 ≤ a then none
  else if a < 2 ^ 39 then
    if 2 ^ 38 ≤ a then none
    else if (s.polderMask p).testBit (a / 2 ^ 34) then some a else none
  else
    let sites := sitesOf (s.polderMask p)
    let n := sites.length
    let z := s.spreadBytes p
    let big := a - 2 ^ 39
    if n * z ≤ big then none
    else
      let u := big / 32768
      some (sites.getD (u % n) 0 * 2 ^ 34 + (2 ^ 34 - z) + u / n * 32768 + big % 32768)

/-- An address plus an exact offset, as the address the walk names; none where it leaves 64 bits. -/
def addrAt (base : W64) (off : Int) : Option W64 :=
  let a := (base.toNat : Int) + off
  if 0 ≤ a ∧ a < 2 ^ 64 then some (BitVec.ofInt 64 a) else none

/-- The index of the channel record that serves a site-view address (R299, R318). -/
def channelIndex (a : Nat) : Nat := 0x3100 + 16 * (a / 2 ^ 34) + a / 2048 % 16

/-- The DRAM die of its stack, counted from the compute die, that serves a site-view address (R296): die i serves
channels 4i to 4i + 3. -/
def dieOf (a : Nat) : Nat := a / 2048 % 16 / 4

/-! ### Memory by code word -/

/-- Who makes an access: the polder it is counted against (R304), and the site it leaves from; `none` for the I/O die,
which enters at the west site of a row (R13, R317). -/
structure Requester where
  polder : Nat
  site : Option Nat
  deriving DecidableEq, Repr

/-- Whether the access to a site-view address is near. -/
def Requester.near (r : Requester) (a : Nat) : Bool :=
  match r.site with
  | some s => a / 2 ^ 34 == s
  | none => a / 2 ^ 34 == a / 2 ^ 34 / 4 * 4

/-- The I/O die's transfer enters at the row of sites that holds its first byte (R13). -/
def Requester.entering (r : Requester) (first : Option Nat) : Requester :=
  match r.site, first with
  | none, some ph => { r with site := some (ph / 2 ^ 34 / 4 * 4) }
  | _, _ => r

/-- The symbols in error of a stored word. -/
def WordError.symbols (e : WordError) : List Nat := (e.soft ++ e.hard).dedup

def State.wordError (s : State) (cw : Nat) : WordError := (tblFind s.memErr cw).getD { soft := [], hard := [] }

/-- The data symbols of a code word (R307): D_j is data bytes 2j and 2j + 1, the lower byte most significant. -/
def symbolsOf (data : List Byte) : List W16 := (List.range 32).map (fun j => BitVec.ofNat 16 (fieldAt data (2 * j) 2))

/-- The check bytes of a code word (R307): P_k at check bytes 2k and 2k + 1. -/
def checkBytes (data : List Byte) : List Byte := (rsCheck (symbolsOf data)).flatMap (fun p => toBytes 2 p.toNat)

/-- The check bytes stored for a code word, in its channel's check storage (R296). -/
def State.checkOf (s : State) (cw : Nat) : List Byte := cells s.check (16 * cw) 16

/-- What a read of a code word delivers. -/
structure WordRead where
  state : State
  data : List Byte
  poisoned : Bool

/-- A word's data where six or more symbols are in error and the decoder does not detect it: a miscorrection, whose data
are free values (R308; log entry 9). -/
def State.miscorrected (s : State) : List Byte :=
  let v : BitVec 512 := s.freeVal 512
  toBytes 64 v.toNat

/-- A correction of `n` symbols is recorded (R308, R318, R319). -/
def State.corrected (s : State) (cw : Nat) (syms : List Nat) : State :=
  let a := 64 * cw
  let ix := channelIndex a
  let again := (tblFind s.dict (entryKey ix 7)) == some a && (tblFind s.dict (entryKey ix 9)).getD 0 != 0
  let rep := if again then ((tblFind s.dict (entryKey ix 9)).getD 0 + 1) % 2 ^ 32 else 1
  let s := (s.bump ix 4 1).bump ix 5 syms.length
  let s := (s.setEntry ix 7 a).setEntry ix 8 (syms.foldl (fun m j => m ||| 2 ^ j) 0)
  let s := s.setEntry ix 9 rep
  let s := s.event (0x3200 + a / 2 ^ 34) 0 1
  if rep = s.entry 0x3000 5 then s.event (0x3200 + a / 2 ^ 34) 2 1 else s

/-- A word is delivered poisoned (R308, R318, R319). -/
def State.poisoned (s : State) (cw : Nat) : State :=
  let a := 64 * cw
  let s := (s.bumpW 32 (channelIndex a) 6 1).setEntry (channelIndex a) 0xA a
  s.event (0x3200 + a / 2 ^ 34) 1 1

/-- A read of the code word `cw` (site-view address 64·cw), counted and decoded (R304, R308).
(DESIGN CHOICE: log entry 9) -/
def State.readWord (s : State) (r : Requester) (cw : Nat) : WordRead :=
  let a := 64 * cw
  let s := (s.bump (channelIndex a) 1 1).bump (0x3020 + r.polder) (if r.near a then 1 else 2) 64
  let syms := (s.wordError cw).symbols
  if syms.length = 0 then { state := s, data := cells s.mem a 64, poisoned := false }
  else if syms.length ≤ 3 then
    { state := s.corrected cw syms, data := cells s.mem a 64, poisoned := false }
  else if syms.length ≤ 5 then { state := s.poisoned cw, data := cells s.mem a 64, poisoned := true }
  else
    -- detected or miscorrected: the spec leaves it open
    let detected : BitVec 1 := s.freeVal 1
    let s := s.usedFree
    if detected = 1 then { state := s.poisoned cw, data := cells s.mem a 64, poisoned := true }
    else
      let d := s.miscorrected
      let symbols : BitVec 40 := s.usedFree.freeVal 40
      { state := (s.usedFree.usedFree.corrected cw ((List.range 40).filter (fun j => symbols.getLsbD j))),
        data := d, poisoned := false }

/-- A write of the whole code word `cw`: data and a fresh check; hard faults stay (R309, R311). -/
def State.writeWord (s : State) (r : Requester) (cw : Nat) (data : List Byte) : State :=
  let a := 64 * cw
  let s := (s.bump (channelIndex a) 2 1).bump (0x3020 + r.polder) (if r.near a then 3 else 4) 64
  let e := s.wordError cw
  { s with
    mem := putCells s.mem a (padTo 64 data),
    check := putCells s.check (16 * cw) (checkBytes (padTo 64 data)),
    memErr := if e.hard = [] then tblDrop s.memErr cw else tblPut s.memErr cw { e with soft := [] } }

/-- One burst served on the channel of an address (R305, R318). -/
def State.burst (s : State) (a : Nat) : State := s.bump (channelIndex a) 3 1

/-- Whether `n` bytes from an address lie within a polder (R11, R298, R300). -/
def State.rangeIn (s : State) (p : Nat) (addr : W64) (n : Nat) : Bool :=
  let a := addr.toNat
  if n = 0 then true
  else if a + n ≤ 2 ^ 38 then
    (List.range ((a + n - 1) / 2 ^ 34 + 1 - a / 2 ^ 34)).all (fun i => (s.polderMask p).testBit (a / 2 ^ 34 + i))
  else 2 ^ 39 ≤ a && a - 2 ^ 39 + n ≤ (sitesOf (s.polderMask p)).length * s.spreadBytes p

/-- The address, in the view of `base`, of a site-view byte (R300, R301); none where that view does not reach it. -/
def State.inView (s : State) (p : Nat) (base : W64) (phys : Nat) : Option Nat :=
  if base.toNat < 2 ^ 39 then some phys
  else
    let sites := sitesOf (s.polderMask p)
    let z := s.spreadBytes p
    let o := phys % 2 ^ 34
    let i := sites.idxOf (phys / 2 ^ 34)
    if i < sites.length ∧ 2 ^ 34 ≤ o + z then
      let d := o + z - 2 ^ 34
      some (2 ^ 39 + (d / 32768 * sites.length + i) * 32768 + d % 32768)
    else none

/-- Whether a site-view byte is one of the `n` bytes that a polder names from `base`. -/
def State.inRegion (s : State) (p : Nat) (base : W64) (n phys : Nat) : Bool :=
  match s.inView p base phys with
  | some a => base.toNat ≤ a && a < base.toNat + n
  | none => false

/-- What a read of consecutive bytes delivers: the state, the bytes, the poisoned words, the first poisoned byte. -/
structure BytesRead where
  state : State
  data : List Byte
  bad : List Nat
  poison : Option W64

/-- The code words that hold `n` bytes from an address, as numbers in its view. -/
def wordsOf (a n : Nat) : List Nat :=
  if n = 0 then [] else (List.range ((a + n - 1) / 64 + 1 - a / 64)).map (fun i => a / 64 + i)

/-- Whether a word begins a burst of a run that starts at word `first` (R305). -/
def beginsBurst (first cw : Nat) : Bool := cw == first || cw % 32 == 0

/-- A read of `n` bytes from an address in its view, each code word once; a word outside the polder gives nothing. -/
def State.readView (s : State) (r : Requester) (addr : W64) (n : Nat) : BytesRead :=
  let a := addr.toNat
  let r := r.entering (s.resolve r.polder addr)
  let go := (wordsOf a n).foldl (fun (acc : State × List (List Byte) × List Nat) cw =>
    match acc.1.resolve r.polder (BitVec.ofNat 64 (64 * cw)) with
    | none => (acc.1, List.replicate 64 0 :: acc.2.1, acc.2.2)
    | some ph =>
      let s1 := if beginsBurst (a / 64) cw then acc.1.burst ph else acc.1
      let w := s1.readWord r (ph / 64)
      (w.state, w.data :: acc.2.1, if w.poisoned then acc.2.2 ++ [cw] else acc.2.2))
    (s, [], [])
  { state := go.1, data := ((go.2.1.reverse.flatten).drop (a % 64)).take n, bad := go.2.2,
    poison := (go.2.2.head?).map (fun cw => BitVec.ofNat 64 (max a (64 * cw))) }

/-- A write of bytes from an address in its view, by whole code words: bytes of the first and last words that are not
covered keep their content, as where the home and counter services rewrite a word (R311). -/
def State.writeView (s : State) (r : Requester) (addr : W64) (bs : List Byte) : State :=
  let a := addr.toNat
  let r := r.entering (s.resolve r.polder addr)
  (wordsOf a bs.length).foldl (fun (s : State) cw =>
    match s.resolve r.polder (BitVec.ofNat 64 (64 * cw)) with
    | none => s
    | some ph =>
      let s := if beginsBurst (a / 64) cw then s.burst ph else s
      let data := (cells s.mem ph 64).zipIdx.map (fun p =>
        let i := 64 * cw + p.2
        if a ≤ i ∧ i < a + bs.length then bs.getD (i - a) 0 else p.1)
      s.writeWord r (ph / 64) data) s

/-- The I/O die as a requester for a polder (R304). -/
def ioFor (p : Nat) : Requester := { polder := p, site := none }

/-- A core as a requester. -/
def coreFor (p core : Nat) : Requester := { polder := p, site := some (siteOf core) }

end Sys2Proof.Machine
end

