-- ==== Sys2Proof/Machine/Operands.lean ====
section
/-! DEFINITION. Operands of a core (03_core.md R51, R54, R58, R62): registers, predicates, vector lanes, the scalar data
store, the working store, and the guard of a slot. -/

namespace Sys2Proof.Machine

/-! ### Registers and predicates -/

/-- A general register; g0 reads 0 (R51). -/
def CoreState.getG (k : CoreState) (r : BitVec 6) : W64 := if r = 0 then 0 else cell k.g r.toNat

/-- A write of a general register; a write to g0 is discarded. -/
def CoreState.setG (k : CoreState) (r : BitVec 6) (v : W64) : CoreState :=
  if r = 0 then k else { k with g := putCell k.g r.toNat v }

/-- A predicate; p0 reads 1 (R51). -/
def CoreState.getP (k : CoreState) (r : BitVec 4) : Bool := r == 0 || k.p.getLsbD r.toNat

/-- A write of a predicate; a write to p0 is discarded. -/
def CoreState.setP (k : CoreState) (r : BitVec 4) (v : Bool) : CoreState :=
  if r = 0 then k
  else { k with p := (k.p &&& ~~~((1 : BitVec 16) <<< r.toNat)) ||| (if v then (1 : BitVec 16) <<< r.toNat else 0) }

/-- Whether a slot acts: its predicate, or its complement (R54). -/
def CoreState.guard (k : CoreState) (pred : BitVec 4) (pneg : Bool) : Bool := k.getP pred != pneg

/-! ### Vector registers -/

/-- A vector register's content (R167): element 0 of any width lies at the most significant end, so that the content
read from the top is the 512 bytes of `V.LD` and `V.ST` in order (R168). -/
def CoreState.getV (k : CoreState) (r : BitVec 6) : BitVec 4096 := cell k.v r.toNat

def CoreState.setV (k : CoreState) (r : BitVec 6) (v : BitVec 4096) : CoreState :=
  { k with v := putCell k.v r.toNat v }

/-- Element `e` of width `w` (R167). -/
def elem (w : Nat) (v : BitVec 4096) (e : Nat) : BitVec w := v.extractLsb' (4096 - w * (e + 1)) w

/-- The elements of width `w`, element 0 first. -/
def elemsOf (w : Nat) (v : BitVec 4096) : List (BitVec w) := (List.range (4096 / w)).map (elem w v)

/-- A register's content from its elements of width `w`, element 0 first. -/
def ofElems (w : Nat) (xs : List (BitVec w)) : BitVec 4096 :=
  BitVec.ofNat 4096 (xs.foldl (fun a x => a * 2 ^ w + x.toNat) 0)

/-! ### The scalar data store -/

/-- Whether a scalar address is valid (R62). -/
def scalarOk (a : W64) : Bool := a.toNat % 8 == 0 && a.toNat < 65536

/-- The scalar word at a byte address. -/
def CoreState.scalar (k : CoreState) (a : Nat) : W64 := cell k.sstore (a / 8)

def CoreState.setScalar (k : CoreState) (a : Nat) (v : W64) : CoreState :=
  { k with sstore := putCell k.sstore (a / 8) v }

/-- `n` scalar words from a byte address. -/
def CoreState.scalars (k : CoreState) (a n : Nat) : List W64 := cells k.sstore (a / 8) n

/-! ### The working store -/

/-- Bytes of the working store. -/
def CoreState.wsBytes (k : CoreState) (a n : Nat) : List Byte := cells k.ws a n

def CoreState.putWs (k : CoreState) (a : Nat) (bs : List Byte) : CoreState := { k with ws := putCells k.ws a bs }

/-- The line that a `WS_LINE` field and a `G_OFF` register name (R61): the exact sum. (DESIGN CHOICE: log entry 87) -/
def CoreState.wsLine (k : CoreState) (line : W16) (off : BitVec 6) : Nat := line.toNat + (k.getG off).toNat

/-! ### Scalar operands -/

/-- The second operand of an S operation: g[`SRC_B`] + `IMM` (R58). -/
def CoreState.opB (k : CoreState) (f : SFields) : W64 := k.getG f.srcB + f.imm

/-- The address of a scalar load or store: g[`SRC_A`] + `IMM` (R58). -/
def CoreState.scalarAddr (k : CoreState) (f : SFields) : W64 := k.getG f.srcA + f.imm

end Sys2Proof.Machine
end

