-- ==== Sys2Proof/Machine/Elementwise.lean ====
section
/-! DEFINITION. What the element-wise V-slot operations compute (08_vector_functions.md R167 to R179): registers in,
registers out. The library routines of R181 are sequences of them. -/

namespace Sys2Proof.Machine

/-! ### Elements by `TYPE` -/

/-- The floating format of a `TYPE` (R61); I32 elements are handled apart. -/
def laneFmt (ty : Nat) : Fmt :=
  match ty with
  | 1 => bf16
  | 2 => fp16
  | _ => fp32

/-- Element width by `TYPE` (R167). -/
def laneW (ty : Nat) : Nat := if ty = 1 ∨ ty = 2 then 16 else 32

/-- The element codes of a register. -/
def codesOf (w : Nat) (v : BitVec 4096) : List Nat := (elemsOf w v).map BitVec.toNat

/-- A register from element codes. -/
def ofCodes (w : Nat) (xs : List Nat) : BitVec 4096 := ofElems w (xs.map (BitVec.ofNat w))

/-- What a vector operation gives: the register, the numeric events, the elements rounded stochastically. -/
structure VResult where
  value : BitVec 4096
  tally : Tally
  rounded : Nat

/-- Source B: a register's elements, or `IMM32` in every element, converted once for a packed type (R171). -/
def sourceB (ty : Nat) (f : VFields) (vb : BitVec 4096) : List Nat × Tally :=
  let w := laneW ty
  if f.immSel then
    let r : Nat × Ev := if ty = 1 ∨ ty = 2 then narrow (laneFmt ty) .near true f.imm32 else (f.imm32.toNat, {})
    (List.replicate (4096 / w) r.1, Tally.ofEvs [r.2])
  else (codesOf w vb, {})

/-- The coordinate base of the pipe of a slot (R262): V0 is slot 5. -/
def RngState.xbase (g : RngState) (slot : Nat) : W64 := if slot = 5 then g.xbase0 else g.xbase1

/-- The rounding of element `e` under `RND`, its u from the datum pattern (R266). -/
def elemRnd (g : RngState) (slot rnd e : Nat) (datum : W32) : Rnd :=
  rndOf rnd (if rnd = 2 then stochU g.seed g.step (g.xbase slot + BitVec.ofNat 64 e) datum else 0)

/-- An element as the 32-bit pattern that the data-hash sees (R266). -/
def patternOf (ty : Nat) (code : Nat) : W32 :=
  if ty = 1 ∨ ty = 2 then widen (laneFmt ty) code else BitVec.ofNat 32 code

/-! ### Arithmetic (R171) -/

/-- One floating element of an arithmetic operation. -/
def arithElem (fmt : Fmt) (rnd : Rnd) (args : List Nat) (op : List Fv → Fv) : Nat × Ev :=
  let vs := args.map fmt.decode
  let v := op vs
  let r := fmt.write rnd true v
  (r.1, { r.2 with nanc := v.isNan && !vs.any Fv.isNan })

/-- An arithmetic operation over every element: `fl` on values, `int` on two's complement words. -/
def vArith (k : CoreState) (slot : Nat) (f : VFields) (fl : List Fv → Fv) (int : W32 → W32 → W32 → W32) : VResult :=
  let ty := f.ty.toNat
  let w := laneW ty
  let va := codesOf w (k.getV f.va)
  let b := sourceB ty f (k.getV f.vb)
  let vc := codesOf w (k.getV f.vc)
  let xs := va.zip (b.1.zip vc)
  if ty = 3 then
    { value := ofCodes 32 (xs.map (fun x =>
        (int (BitVec.ofNat 32 x.1) (BitVec.ofNat 32 x.2.1) (BitVec.ofNat 32 x.2.2)).toNat)),
      tally := b.2, rounded := 0 }
  else
    let fmt := laneFmt ty
    let rnd := f.rnd.toNat
    let rs := xs.zipIdx.map (fun p =>
      arithElem fmt (elemRnd k.rng slot rnd p.2 (patternOf ty p.1.1)) [p.1.1, p.1.2.1, p.1.2.2] fl)
    { value := ofCodes w (rs.map Prod.fst), tally := b.2.plus (Tally.ofEvs (rs.map Prod.snd)),
      rounded := if rnd = 2 then xs.length else 0 }

def fvAt (vs : List Fv) (i : Nat) : Fv := vs.getD i zeroFv

/-- `V.FMA`: VA·VB + VC. -/
def vFmaOf (k : CoreState) (slot : Nat) (f : VFields) : VResult :=
  vArith k slot f (fun vs => ((fvAt vs 0).mul (fvAt vs 1)).add (fvAt vs 2)) (fun a b c => a * b + c)

/-- `V.ADD`: VA + VB. The third argument is VB again, so that no NaN of VC counts as an operand. -/
def vAddOf (k : CoreState) (slot : Nat) (f : VFields) : VResult :=
  vArith k slot { f with vc := f.va } (fun vs => (fvAt vs 0).add (fvAt vs 1)) (fun a b _ => a + b)

/-- `V.MUL`: VA·VB. -/
def vMulOf (k : CoreState) (slot : Nat) (f : VFields) : VResult :=
  vArith k slot { f with vc := f.va } (fun vs => (fvAt vs 0).mul (fvAt vs 1)) (fun a b _ => a * b)

/-! ### Comparison and selection (R172) -/

/-- Elements of VA, source B and VC combined by a function of codes. -/
def vCodes (k : CoreState) (f : VFields) (g : Nat → Nat → Nat → Nat) : VResult :=
  let ty := f.ty.toNat
  let w := laneW ty
  let b := sourceB ty f (k.getV f.vb)
  let xs := (codesOf w (k.getV f.va)).zip (b.1.zip (codesOf w (k.getV f.vc)))
  { value := ofCodes w (xs.map (fun x => g x.1 x.2.1 x.2.2)), tally := b.2, rounded := 0 }

/-- The larger or the smaller of two elements of a `TYPE`. -/
def pick (ty : Nat) (max : Bool) (a b : Nat) : Nat :=
  if ty = 3 then
    let lt := (BitVec.ofNat 32 a).slt (BitVec.ofNat 32 b)
    if lt = max then b else a
  else
    let fmt := laneFmt ty
    let x := fmt.decode a
    let y := fmt.decode b
    if x.isNan || y.isNan then fmt.nan
    else if x.lt y then (if max then b else a)
    else if y.lt x then (if max then a else b)
    else if x.isNeg = max then b else a

def vMaxOf (k : CoreState) (f : VFields) : VResult := vCodes k f (fun a b _ => pick f.ty.toNat true a b)
def vMinOf (k : CoreState) (f : VFields) : VResult := vCodes k f (fun a b _ => pick f.ty.toNat false a b)

/-- The conditions of `V.CMP` between two elements. -/
def holds (ty fn a b : Nat) : Bool :=
  let nan := ty != 3 && ((laneFmt ty).decode a).isNan || ty != 3 && ((laneFmt ty).decode b).isNan
  let lt (x y : Nat) : Bool :=
    if ty = 3 then (BitVec.ofNat 32 x).slt (BitVec.ofNat 32 y)
    else ((laneFmt ty).decode x).lt ((laneFmt ty).decode y)
  if nan then fn == 1 || fn == 6
  else match fn with
    | 0 => !lt a b && !lt b a
    | 1 => lt a b || lt b a
    | 2 => lt a b
    | 3 => !lt b a
    | 4 => lt b a
    | 5 => !lt a b
    | _ => false

def vCmpOf (k : CoreState) (f : VFields) : VResult :=
  let ty := f.ty.toNat
  vCodes k f (fun a b _ => if holds ty f.fn.toNat a b then 2 ^ laneW ty - 1 else 0)

def vSelOf (k : CoreState) (f : VFields) : VResult := vCodes k f (fun a b c => if c = 0 then b else a)

/-! ### exp2 and log2 (R175 to R179) -/

def vSfu (k : CoreState) (f : VFields) (g : Fmt → Nat → Rnd → Nat → Nat × Ev) : VResult :=
  let ty := f.ty.toNat
  let w := laneW ty
  let rs := (codesOf w (k.getV f.va)).map (g (laneFmt ty) f.ofmt.toNat (rndOf f.rnd.toNat 0))
  { value := ofCodes w (rs.map Prod.fst), tally := Tally.ofEvs (rs.map Prod.snd), rounded := 0 }

def vExp2Of (k : CoreState) (sat4 : Bool) (f : VFields) : VResult :=
  vSfu k f (fun lane ofmt r x => exp2Elem lane ofmt r sat4 x)

def vLog2Of (k : CoreState) (sat4 : Bool) (f : VFields) : VResult :=
  vSfu k f (fun lane ofmt r x => log2Elem lane ofmt r sat4 x)

/-! ### Conversion (R173) -/

/-- A conversion format of R170 other than I32. -/
def cvtFmt (n : Nat) : Fmt :=
  match n with
  | 0 => fp32
  | 1 => bf16
  | 2 => fp16
  | 4 => e4m3
  | _ => e5m2

def cvtW (n : Nat) : Nat :=
  match n with
  | 0 => 32
  | 1 => 16
  | 2 => 16
  | 3 => 32
  | _ => 8

/-- One element converted: a widening is exact, an infinity staying infinite (R119); anything else is a conversion under
R119 to R122, FP32 to FP32 among them (DESIGN CHOICE: log entry 81). -/
def cvtElem (sf df : Nat) (r : Rnd) (sat4 : Bool) (code : Nat) : Nat × Ev :=
  if sf = 3 then
    if df = 3 then (code, {})
    else
      let z := (BitVec.ofNat 32 code).toInt
      (cvtFmt df).round r sat4 (z < 0) z.natAbs 0
  else if df = 3 then ((toI32 r ((cvtFmt sf).decode code)).toNat, {})
  else
    let v := (cvtFmt sf).decode code
    if (cvtFmt sf).widens (cvtFmt df) then (cvtFmt df).write r sat4 v else (cvtFmt df).convert r sat4 v

/-- The pattern of a source element (R266). -/
def cvtPattern (sf code : Nat) : W32 := if sf = 0 ∨ sf = 3 then BitVec.ofNat 32 code else widen (cvtFmt sf) code

def vCvtOf (k : CoreState) (slot : Nat) (sat4 : Bool) (f : VFields) : VResult :=
  let sf := f.sfmt.toNat
  let df := f.dfmt.toNat
  let rnd := f.rnd.toNat
  let src := ((codesOf (cvtW sf) (k.getV f.va)).drop (128 * f.spart.toNat)).take 128
  let base := 128 * f.dpart.toNat
  let rs := src.zipIdx.map (fun p =>
    cvtElem sf df (elemRnd k.rng slot rnd (base + p.2) (cvtPattern sf p.1)) sat4 p.1)
  let old := codesOf (cvtW df) (k.getV f.vc)
  { value := ofCodes (cvtW df) (old.take base ++ rs.map Prod.fst ++ old.drop (base + 128)),
    tally := Tally.ofEvs (rs.map Prod.snd), rounded := if rnd = 2 then 128 else 0 }

end Sys2Proof.Machine
end

