-- ==== Sys2Proof/Machine/Routines.lean ====
section
/-! DEFINITION. The library routines of R181 as R442 fixes them: the content of `FUNC_ROUTINES`, the run of a routine's
bundles, and the activation entries of a chain (R196, R200), with the special values and the bounds of R181. The bundles
themselves, which the manual does not print, are a constant of Config. -/

namespace Sys2Proof.Machine

/-! ### A routine's bundles -/

/-- The fields of a V slot's 128 bits (table under R61, and R170). -/
def vFieldsOf (w : BitVec 128) : VFields :=
  { vd := w.extractLsb' 106 6, va := w.extractLsb' 100 6, vb := w.extractLsb' 94 6, vc := w.extractLsb' 88 6,
    ty := w.extractLsb' 85 3, rnd := w.extractLsb' 82 3, immSel := w.getLsbD 81, wsLine := w.extractLsb' 65 16,
    gOff := w.extractLsb' 59 6, sfmt := w.extractLsb' 45 3, dfmt := w.extractLsb' 42 3, spart := w.extractLsb' 40 2,
    dpart := w.extractLsb' 38 2, ofmt := w.extractLsb' 35 3, fn := w.extractLsb' 32 3, imm32 := w.extractLsb' 0 32 }

/-- An element-wise operation by the V slot's opcode (table under R61): destination and result. -/
def vOpOf (k : CoreState) (w : BitVec 128) : Option (BitVec 6 × VResult) :=
  let f := vFieldsOf w
  let res (r : VResult) : Option (BitVec 6 × VResult) := some (f.vd, r)
  match (w.extractLsb' 120 8).toNat with
  | 0x01 => res (vFmaOf k 5 f)
  | 0x02 => res (vAddOf k 5 f)
  | 0x03 => res (vMulOf k 5 f)
  | 0x04 => res (vMaxOf k f)
  | 0x05 => res (vMinOf k f)
  | 0x06 => res (vExp2Of k true f)
  | 0x07 => res (vLog2Of k true f)
  | 0x08 => res (vCvtOf k 5 true f)
  | 0x0C => res (vSelOf k f)
  | 0x0D => res (vCmpOf k f)
  | _ => none

/-- One bundle of a routine (R53, R56): V0 and V1 read the registers as they stood before it. -/
def routineBundle (x : CoreState × Tally) (b : BitVec 1024) : CoreState × Tally :=
  [vOpOf x.1 (b.extractLsb' 640 128), vOpOf x.1 (b.extractLsb' 768 128)].foldl
    (fun y o => match o with
      | some (vd, r) => (y.1.setV vd r.value, y.2.plus r.tally)
      | none => y) x

/-- A routine run on a register of one value (R442): the input in v0, the result in v0, and the numeric events that some
operation of it raises (R125). -/
def runRoutine (n : Nat) (x : W32) : W32 × Ev :=
  let k := CoreState.reset.setV 0 (ofElems 32 (List.replicate 128 x))
  let r := (Config.routineBundles n).foldl routineBundle (k, {})
  (elem 32 (r.1.getV 0) 0, { ovf := r.2.ovf != 0, nanc := r.2.nanc != 0 })

/-! ### `FUNC_ROUTINES` (R442) -/

/-- The routine numbers, in the directory's order (DESIGN CHOICE: log entry 4). -/
def routineNumbers : List Nat := [0, 1, 2, 3, 4, 5, 16, 17, 18, 19, 20, 21]

/-- A directory record: number, bundle count, offset of the first bundle, 8 reserved bytes. -/
def routineRecord (n count offset : Nat) : List Byte :=
  toBytes 2 n ++ toBytes 2 count ++ toBytes 4 offset ++ List.replicate 8 0

/-- The records of routines whose bundles begin at an offset, one after another. -/
def routineRecords : Nat → List Nat → List Byte
  | _, [] => []
  | off, n :: r =>
    let count := (Config.routineBundles n).length
    routineRecord n count off ++ routineRecords (off + 128 * count) r

/-- The content of `FUNC_ROUTINES`: the directory, its end record, the bundles. (DESIGN CHOICE: log entry 4) -/
def funcRoutines : List Byte :=
  routineRecords (16 * (routineNumbers.length + 1)) routineNumbers
    ++ (toBytes 2 0xFFFF ++ toBytes 6 Config.routineEnd.toNat ++ List.replicate 8 0)
    ++ routineNumbers.flatMap (fun n => (Config.routineBundles n).flatMap (fun b => toBytes 128 b.toNat))

/-! ### The exact functions, at the tables' scale -/

/-- A finite FP32 value at the tables' scale, exactly. -/
def fixOf : Fv → Int
  | .fin n m e => signedMant n (m * 2 ^ (e + tblBits).toNat)
  | _ => 0

/-- e^(−y) for y ≥ 0. -/
def expNeg (y : Nat) : Nat :=
  let k := y / ln2Fix
  if 300 < k then 0 else expFix (ln2Fix - y % ln2Fix) / 2 ^ (k + 1)

/-- 1 / (1 + e^(−x)). -/
def sigmoidFix (x : Int) : Int :=
  let e := expNeg x.natAbs
  if 0 ≤ x then ((tblOne * tblOne / (tblOne + e) : Nat) : Int) else ((e * tblOne / (tblOne + e) : Nat) : Int)

def tanhFix (x : Int) : Int :=
  let e := expNeg (2 * x.natAbs)
  let t : Int := (((tblOne - e) * tblOne / (tblOne + e) : Nat) : Int)
  if 0 ≤ x then t else -t

/-- The normal integral, 0 or 1 from 8 on, far within the bound of R181. -/
def phiFix (x : Int) : Int :=
  let h : Int := if x.natAbs < 8 * tblOne then (phiHalf x.natAbs : Int) else (tblOne / 2 : Nat)
  ((tblOne / 2 : Nat) : Int) + (if 0 ≤ x then h else -h)

/-- The argument of tanh in `GELU_TANH` (R181); ±16 where |x| is so large that tanh is ±1 within the bound. -/
def geluArg (x : Int) : Int :=
  if 16 * tblOne ≤ x.natAbs then (if 0 ≤ x then 16 * (tblOne : Int) else -(16 * (tblOne : Int)))
  else
    let cube := x * x / tblOne * x / tblOne
    (x + cube * 44715 / 1000000) * 7978845608 / 10000000000

/-- The function of an `ACT` code at a finite input (R181); GELU is x·Φ(x), and x·(1 + tanh)/2 in its other form
(DESIGN CHOICE: log entry 4). -/
def actExact (act : Nat) (x : Int) : Int :=
  match act with
  | 0 => x * sigmoidFix x / tblOne
  | 1 => x * phiFix x / tblOne
  | 2 => x * (tblOne + tanhFix (geluArg x)) / (2 * tblOne)
  | 3 => tanhFix x
  | 4 => sigmoidFix x
  | _ => max x 0 + (lnFix (tblOne + expNeg x.natAbs) : Int)

/-- One unit in the last place of an FP32 value, at the tables' scale. -/
def ulpFix (v : Int) : Nat :=
  let e : Int := if v = 0 then -126 else max ((v.natAbs.log2 : Int) - tblBits) (-126)
  2 ^ (e - 23 + tblBits).toNat

/-- How far an FP32 result `y` of a routine may lie from the exact value (R181). -/
def actBound (act : Nat) (x y : Int) : Nat :=
  match act with
  | 0 => 4 * ulpFix y
  | 1 => max tblOne x.natAbs / 2 ^ 22
  | 2 => max tblOne x.natAbs / 2 ^ 22
  | _ => 3 * ulpFix y

/-! ### The activation entries (R196, R200) -/

/-- The infinite inputs whose result R181 gives, by `ACT` code. -/
def actSpecial (act : Nat) (v : Fv) : Option W32 :=
  match act, v with
  | 0, .inf true => some 0x80000000#32
  | 1, .inf n => some (if n then 0x80000000#32 else 0x7F800000#32)
  | 2, .inf n => some (if n then 0x80000000#32 else 0x7F800000#32)
  | 3, .inf n => some (if n then 0xBF800000#32 else 0x3F800000#32)
  | 4, .inf n => some (if n then 0 else 0x3F800000#32)
  | 5, .inf n => some (if n then 0 else 0x7F800000#32)
  | _, _ => none

/-- A routine's bits, which meet the bound of R181 at every finite input: bits beyond it, which no sequence of R442 has,
give the nearest FP32 of the exact value instead. (DESIGN CHOICE: log entry 4) -/
def bounded (act : Nat) (x : Fv) (y : W32) : W32 :=
  if !x.isFinite then y
  else
    let v := actExact act (fixOf x)
    let d := fixOf (fv32 y) - v
    if (fv32 y).isFinite && d.natAbs ≤ actBound act (fixOf x) (fixOf (fv32 y)) then y else fixToFp32 (v < 0) v.natAbs

/-- An activation (R196): ReLU is `V.MAX` of x and +0, the others the bits of their routine's sequence (R442) with the
special values of R181. (DESIGN CHOICE: log entry 4) -/
def actOf (act : Nat) (x : W32) : W32 × Ev :=
  if act = 6 then (max32 x 0, {})
  else match actSpecial act (fv32 x) with
    | some y => (y, {})
    | none =>
      let r := runRoutine act x
      (bounded act (fv32 x) r.1, r.2)

end Sys2Proof.Machine
end

