-- ==== Sys2Proof/Machine/Cache.lean ====
section
/-! DEFINITION. The key-value cache's structures in memory (11_kv_sequences.md R229 to R233, R247): geometry, regions,
sequence entries, page tables, metadata and the free stack. The operations on them stand in KvCache.lean. -/

namespace Sys2Proof.Machine

/-- `CACHE_CONFIG` of a polder (R247). -/
structure CacheCfg where
  seqBase : W64
  seqCount : Nat
  arenaBase : W64
  arenaBytes : Nat
  poolBase : W64
  poolPages : Nat
  metaBase : W64
  heads : Nat
  headDim : Nat
  fmt : Nat
  layers : Nat

def State.cacheCfg (s : State) (p : Nat) : CacheCfg :=
  let e := s.entry (0x7010 + p)
  { seqBase := BitVec.ofNat 64 (e 1), seqCount := e 2, arenaBase := BitVec.ofNat 64 (e 3), arenaBytes := e 4,
    poolBase := BitVec.ofNat 64 (e 5), poolPages := e 6, metaBase := BitVec.ofNat 64 (e 7), heads := e 8,
    headDim := e 9, fmt := e 0xA, layers := e 0xB }

/-- Bytes of an element by `KV_FMT` (R229). -/
def CacheCfg.elem (c : CacheCfg) : Nat := if c.fmt = 5 ∨ c.fmt = 6 then 2 else 1

/-- d by the code of R210. -/
def dimOf (code : Nat) : Nat := 64 * (code + 1)

/-- Bytes of one token row of one head: d·e. -/
def CacheCfg.rowBytes (c : CacheCfg) : Nat := dimOf c.headDim * c.elem

/-- PAGE_BYTES (R229). -/
def CacheCfg.pageBytes (c : CacheCfg) : Nat := 2 * c.heads * 16 * c.rowBytes

/-- Whether every geometry member is defined (R229, R247). (DESIGN CHOICE: log entry 50) -/
def CacheCfg.geometryOk (c : CacheCfg) : Bool :=
  1 ≤ c.heads && c.heads ≤ 64 && c.headDim ≤ 3 && [0, 1, 5, 6].contains c.fmt && 1 ≤ c.layers && c.layers ≤ 256

/-- Bytes of the metadata words, rounded up to 64 (R247). -/
def CacheCfg.metaBytes (c : CacheCfg) : Nat := (8 * c.poolPages + 63) / 64 * 64

/-- The four regions as base and length (R230). -/
def CacheCfg.regions (c : CacheCfg) : List (W64 × Nat) :=
  [(c.seqBase, 64 * c.seqCount), (c.arenaBase, c.arenaBytes), (c.poolBase, c.poolPages * c.pageBytes),
   (c.metaBase, c.metaBytes + 4 * c.poolPages)]

/-- Whether a site-view byte lies in a region of the polder's initialised cache (R231). -/
def State.inCache (s : State) (p phys : Nat) : Bool :=
  (s.polder p).cacheInit && (s.cacheCfg p).regions.any (fun r => s.inRegion p r.1 r.2 phys)

/-! ### Reads and writes of the home (R234): they name the polder's own memory -/

/-- The cache home as a requester: the site of `CACHE_HOME`. (DEDUCED: log entry 51) -/
def State.homeFor (s : State) (p : Nat) : Requester := { polder := p, site := some (s.entry (0x7010 + p) 0xC / 16) }

/-- A number of `n` bytes in memory, as it stands. -/
def State.peekNat (s : State) (p : Nat) (addr : W64) (n : Nat) : Nat :=
  match s.resolve p addr with
  | some ph => ofBytes (cells s.mem ph n)
  | none => 0

/-- The home while it serves one operation: the code words it has read, as they were delivered, those it will rewrite,
the first poisoned address it needed, and what the operation makes of `SEQ_OPEN`, `PAGES_PINNED` and the free stack.
Nothing is written before the operation is complete (R244, R310, R311). -/
structure Home where
  state : State
  polder : Nat
  words : Tbl (List Byte)
  changed : List Nat
  last : Option Nat
  poison : Option W64
  opened : Nat
  pinned : Nat
  depth : Nat
  pops : Nat
  pushes : Nat

def State.home (s : State) (p : Nat) : Home :=
  { state := s, polder := p, words := [], changed := [], last := none, poison := none,
    opened := s.entry (0x7020 + p) 1, pinned := s.entry (0x7020 + p) 3, depth := (s.polder p).stackDepth, pops := 0,
    pushes := 0 }

def Home.cfg (h : Home) : CacheCfg := h.state.cacheCfg h.polder

/-- The code word of an address is read, once for the operation; none after a poisoned one (R308, R310).
(DEDUCED: log entry 51) -/
def Home.fetch (h : Home) (a : W64) : Home :=
  match h.poison, h.state.resolve h.polder a with
  | none, some ph =>
    let n := ph / 64
    if (tblFind h.words n).isSome then h
    else
      let s := if h.last = some (n - 1) ∧ n % 32 ≠ 0 then h.state else h.state.burst ph
      let w := s.readWord (s.homeFor h.polder) n
      { h with state := w.state, words := tblPut h.words n w.data, last := some n,
               poison := if w.poisoned then some a else none }
  | _, _ => h

def Home.fetchAll (h : Home) (as : List W64) : Home := as.foldl Home.fetch h

/-- The word that the home holds for a site-view address. -/
def Home.word (h : Home) (ph : Nat) : List Byte := (tblFind h.words (ph / 64)).getD []

/-- A number of `n` bytes of a word that the home holds. -/
def Home.peek (h : Home) (a : W64) (n : Nat) : Nat :=
  match h.state.resolve h.polder a with
  | some ph => fieldAt (h.word ph) (ph % 64) n
  | none => 0

/-- Bytes put into the word of an address, which is read first unless they are the whole of it. -/
def Home.put (h : Home) (a : W64) (bs : List Byte) : Home :=
  let h := if bs.length = 64 then h else h.fetch a
  match h.state.resolve h.polder a with
  | some ph =>
    let w := h.word ph
    { h with words := tblPut h.words (ph / 64) (padTo 64 (w.take (ph % 64) ++ bs ++ w.drop (ph % 64 + bs.length))),
             changed := if h.changed.contains (ph / 64) then h.changed else h.changed ++ [ph / 64] }
  | none => h

def Home.poke (h : Home) (a : W64) (n v : Nat) : Home := h.put a (toBytes n v)

/-! ### Sequence entries and page tables (R232, R233) -/

/-- A sequence table entry (R232). -/
structure SeqEntry where
  isOpen : Bool
  maxLen : Nat
  length : Nat
  stride : Nat
  ptBase : W64
  deriving DecidableEq, Repr

def CacheCfg.seqAddr (c : CacheCfg) (q : Nat) : W64 := c.seqBase + BitVec.ofNat 64 (64 * q)

/-- The entry of a sequence, whose word the home holds. -/
def Home.seqEntry (h : Home) (q : Nat) : SeqEntry :=
  let a := h.cfg.seqAddr q
  { isOpen := h.peek a 4 == 1, maxLen := h.peek (a + 4) 4, length := h.peek (a + 8) 4, stride := h.peek (a + 12) 4,
    ptBase := BitVec.ofNat 64 (h.peek (a + 16) 8) }

def Home.setSeqEntry (h : Home) (q : Nat) (e : SeqEntry) : Home :=
  h.put (h.cfg.seqAddr q)
    (toBytes 4 (if e.isOpen then 1 else 0) ++ toBytes 4 e.maxLen ++ toBytes 4 e.length ++ toBytes 4 e.stride
      ++ toBytes 8 e.ptBase.toNat ++ List.replicate 40 0)

/-- The address of the page-table entry of a layer and page index (R232). -/
def SeqEntry.ptAddr (e : SeqEntry) (layer i : Nat) : W64 := e.ptBase + BitVec.ofNat 64 (8 * (layer * e.stride + i))

/-- The page an entry maps, if it is valid (R233). -/
def Home.ptEntry (h : Home) (a : W64) : Option Nat :=
  let v := h.peek a 8
  if v.testBit 63 then some (v % 2 ^ 32) else none

def Home.setPtEntry (h : Home) (a : W64) (page : Option Nat) : Home :=
  h.poke a 8 (match page with
    | some n => 2 ^ 63 + n
    | none => 0)

/-! ### Metadata and the free stack (R233) -/

def CacheCfg.metaAddr (c : CacheCfg) (n : Nat) : W64 := c.metaBase + BitVec.ofNat 64 (8 * n)

def CacheCfg.stackAddr (c : CacheCfg) (i : Nat) : W64 := c.metaBase + BitVec.ofNat 64 (c.metaBytes + 4 * i)

/-- A page's `REFS` and `PINS`, whose word the home holds. -/
def Home.refs (h : Home) (n : Nat) : Nat := h.peek (h.cfg.metaAddr n) 4
def Home.pins (h : Home) (n : Nat) : Nat := h.peek (h.cfg.metaAddr n + 4) 4

def Home.setMeta (h : Home) (n refs pins : Nat) : Home := h.poke (h.cfg.metaAddr n) 8 (refs * 2 ^ 32 + pins)

/-- A page returns to the free stack (R233). -/
def Home.push (h : Home) (n : Nat) : Home :=
  let h := h.poke (h.cfg.stackAddr h.depth) 4 n
  { h with depth := h.depth + 1, pushes := h.pushes + 1 }

/-- A page leaves the free stack (R233); its number and metadata are read. -/
def Home.pop (h : Home) : Home × Nat :=
  let a := h.cfg.stackAddr (h.depth - 1)
  let h := h.fetch a
  let n := h.peek a 4
  ({ h with depth := h.depth - 1, pops := h.pops + 1 }.fetch (h.cfg.metaAddr n), n)

/-- A page's references and pins after an operation that lowered one of them: at 0 and 0 it returns to the stack. -/
def Home.lowered (h : Home) (n refs pins : Nat) : Home :=
  let h := h.setMeta n refs pins
  if refs = 0 ∧ pins = 0 then h.push n else h

def Home.dropRef (h : Home) (n : Nat) : Home :=
  let h := h.fetch (h.cfg.metaAddr n)
  h.lowered n (h.refs n - 1) (h.pins n)

def Home.addRef (h : Home) (n : Nat) : Home :=
  let h := h.fetch (h.cfg.metaAddr n)
  h.setMeta n (h.refs n + 1) (h.pins n)

def Home.pin (h : Home) (n : Nat) : Home :=
  let h := h.fetch (h.cfg.metaAddr n)
  { h.setMeta n (h.refs n) (h.pins n + 1) with pinned := if h.pins n = 0 then h.pinned + 1 else h.pinned }

def Home.unpin (h : Home) (n : Nat) : Home :=
  let h := h.fetch (h.cfg.metaAddr n)
  { h.lowered n (h.refs n) (h.pins n - 1) with pinned := if h.pins n = 1 then h.pinned - 1 else h.pinned }

/-! ### The end of an operation -/

/-- A U32 entry of the cache's counters set to a value. -/
def State.setCacheCount (s : State) (p sub v : Nat) : State := s.setEntry (0x7020 + p) sub (v % 2 ^ 32)

/-- `PAGES_FREE` follows the stack; `POOL_LOW` is set when it falls below `LOW_MARK` (R247). -/
def State.setStackDepth (s : State) (p d : Nat) : State :=
  let old := (s.polder p).stackDepth
  let s := (s.onPolder p (fun x => { x with stackDepth := d })).setCacheCount p 2 d
  let low := s.entry (0x7010 + p) 0xD
  if d < low ∧ low ≤ old then s.event (0x7030 + p) 1 1 else s

/-- The words that an operation changed are rewritten, each with a fresh check, in ascending order (R311). -/
def Home.rewrite (h : Home) : State :=
  ((sortBy Nat.ble h.changed).foldl (fun (a : State × Option Nat) n =>
    let s := if a.2 = some (n - 1) ∧ n % 32 ≠ 0 then a.1 else a.1.burst (64 * n)
    (s.writeWord (s.homeFor h.polder) n (h.word (64 * n)), some n)) (h.state, none)).1

/-- The operation takes effect, unless a word that it needs is poisoned (R310). -/
def Home.close (h : Home) : State :=
  if h.poison.isSome then h.state
  else
    let p := h.polder
    let s := h.rewrite
    let s := if h.opened = s.entry (0x7020 + p) 1 then s else s.setCacheCount p 1 h.opened
    let s := if h.pinned = s.entry (0x7020 + p) 3 then s else s.setCacheCount p 3 h.pinned
    let s := if h.depth = (s.polder p).stackDepth then s else s.setStackDepth p h.depth
    (s.bump (0x7020 + p) 4 h.pops).bump (0x7020 + p) 6 h.pushes

/-! ### Zeroing (R235, R247) -/

/-- The parts of `n` bytes from an address that lie in one 2 KiB unit each (R235, R305), as address and length. -/
def unitsOf (a n : Nat) : List (Nat × Nat) :=
  if n = 0 then []
  else (List.range ((a + n - 1) / 2048 + 1 - a / 2048)).map (fun i =>
    let lo := max a (2048 * (a / 2048 + i))
    (lo, min (a + n) (2048 * (a / 2048 + i + 1)) - lo))

/-- Whole code words of a range are zeroed by the home in bursts of one 2 KiB unit (R235, R304, R305, R309). -/
def State.zeroRange (s : State) (p : Nat) (base : W64) (n : Nat) : State :=
  let home := s.homeFor p
  let s := (unitsOf base.toNat n).foldl (fun (s : State) u =>
    match s.resolve p (BitVec.ofNat 64 u.1) with
    | none => s
    | some ph =>
      let words := (wordsOf u.1 u.2).length
      ((s.burst ph).bump (channelIndex ph) 2 words).bump (0x3020 + p) (if home.near ph then 3 else 4) (64 * words)) s
  { s with
    mem := s.mem.filter (fun c => !(s.inRegion p base n c.1)),
    check := s.check.filter (fun c => !(s.inRegion p base n (64 * (c.1 / 16)))),
    memErr := s.memErr.filterMap (fun c =>
      if s.inRegion p base n (64 * c.1) then
        (if c.2.hard = [] then none else some (c.1, { c.2 with soft := [] }))
      else some c) }

/-- What `INIT` does once it is accepted (R247): every sequence closed, metadata zeroed, the stack filled so that page
0 is popped first. The last word of the stack may hold bytes that are no entry; they keep their content.
(DEDUCED: log entry 51) -/
def State.initCache (s : State) (p : Nat) : State :=
  let c := s.cacheCfg p
  let n := c.poolPages
  let s := (s.zeroRange p c.seqBase (64 * c.seqCount)).zeroRange p c.metaBase c.metaBytes
  let s := s.writeView (s.homeFor p) (c.stackAddr 0) ((List.range (n / 16 * 16)).flatMap (fun i => toBytes 4 (n - 1 - i)))
  let s := ((List.range (n % 16)).foldl (fun (h : Home) i => h.poke (c.stackAddr (n / 16 * 16 + i)) 4 (n % 16 - 1 - i))
    (s.home p)).close
  let s := s.onPolder p (fun x => { x with cacheInit := true, stackDepth := n, homeQ := [] })
  ((s.setCacheCount p 1 0).setCacheCount p 2 n).setCacheCount p 3 0

end Sys2Proof.Machine
end

