-- ==== Sys2Proof/Machine/Contexts.lean ====
section
/-! DEFINITION. Contexts as every family needs them (16_partitions.md, 17_ports_transport.md): protected regions,
completion records, the scheduler and its wake requests, saves, teardown, polder reset, and the taking of a fault. -/

namespace Sys2Proof.Machine

/-! ### Protected regions -/

/-- Bytes of one core's save image, and of a site's nine (R76, R326). -/
def imageBytes : Nat := 4820992
def siteSaveBytes : Nat := 43388928

/-- The contexts of a polder that are not CLOSED. -/
def State.ctxsOf (s : State) (p : Nat) : List (Nat × Ctx) :=
  s.ctxs.filter (fun x => polderOf x.1 == p && x.2.state != 0)

/-- Whether a site-view byte lies in a context's save area (R326). -/
def Ctx.inSave (c : Ctx) (phys : Nat) : Bool :=
  c.preemptible && c.sites.toNat.testBit (phys / 2 ^ 34)
    && c.saveOff.toNat ≤ phys % 2 ^ 34 && phys % 2 ^ 34 < c.saveOff.toNat + siteSaveBytes

/-- A READY slot holds a record that is not yet released (R359 to R361). -/
def ResultSlot.ready (r : ResultSlot) : Bool := r.record.isSome && !r.released

/-- Whether a site-view byte is a result byte of a READY slot of the polder (R360). -/
def State.inResult (s : State) (p phys : Nat) : Bool :=
  s.ctxs.any (fun x => polderOf x.1 == p
    && x.2.slots.any (fun r => r.2.ready && s.inRegion p r.2.resAddr r.2.resBytes phys))

/-- Whether a write by a core faults with `POLDER_ACCESS` though it lies in the polder (R231, R326, R360). -/
def State.guardedByte (s : State) (p phys : Nat) : Bool :=
  s.inCache p phys || (s.ctxsOf p).any (fun x => x.2.inSave phys) || s.inResult p phys

/-- The context-record region of a polder (R340). -/
def State.recordsAt (s : State) (p : Nat) : W64 := BitVec.ofNat 64 (s.entry (polderIndex p 0) 4)

def State.recordsOk (s : State) (p : Nat) : Bool :=
  (s.recordsAt p).toNat < 2 ^ 38 && s.rangeIn p (s.recordsAt p) 65536

/-- Whether a site-view byte lies in the context-record region. -/
def State.inRecords (s : State) (p phys : Nat) : Bool :=
  (s.recordsAt p).toNat ≤ phys && phys < (s.recordsAt p).toNat + 65536

/-- Whether `n` bytes from an address of a polder touch a byte that `bad` names, taken code word by code word. -/
def State.touches (s : State) (p : Nat) (addr : W64) (n : Nat) (bad : Nat → Bool) : Bool :=
  (wordsOf addr.toNat n).any (fun cw =>
    match s.resolve p (BitVec.ofNat 64 (64 * cw)) with
    | some ph => bad ph
    | none => false)

/-- The regions that packages, fabric writes and media jobs may not land in (R354 0x11, R374, R382).
(DESIGN CHOICE: log entry 45) -/
def State.touchesGuarded (s : State) (p : Nat) (addr : W64) (n : Nat) : Bool :=
  s.touches p addr n (fun ph => s.guardedByte p ph || s.inRecords p ph)

/-! ### Completion records and slots (R359 to R362) -/

/-- The generation tag of a package's slot (R359). -/
def resultTag (ordinal : Nat) : Nat := (ordinal / 256 + 1) % 2 ^ 32

/-- Whether a slot is FREE (R336). -/
def Ctx.slotFree (c : Ctx) (i : Nat) : Bool :=
  match tblFind c.slots i with
  | none => true
  | some r => !r.ready

/-- The completion record (R359, R415). (DESIGN CHOICE: log entry 53) -/
def completionRecord (status flags resBytes ordinal crc : Nat) (tag : List Byte) : List Byte :=
  [BitVec.ofNat 8 status, BitVec.ofNat 8 flags, 0, 0] ++ toBytes 4 resBytes ++ toBytes 8 ordinal ++ toBytes 8 crc
    ++ padTo 16 tag ++ List.replicate 24 0

/-- A `READY` notice to every association in scope (R359). -/
def State.notifyReady (s : State) (ctx slot tag : Nat) : State :=
  (s.assocs.filter (fun a => a.scope.toNat.testBit (polderOf ctx))).foldl
    (fun s a => s.send (.ready a.num (BitVec.ofNat 12 ctx) slot tag)) s

/-- A package's record enters its slot, which is FREE (R359, R362, R367, R415). (DEDUCED: log entry 52) -/
def State.placeRecord (s : State) (ctx : Nat) (u : Unplaced) : State :=
  let slot := u.ordinal % 256
  let tag := resultTag u.ordinal
  let put (s : State) (r : ResultSlot) : State :=
    (s.onCtx ctx (fun c => { c with slots := tblPut c.slots slot r })).notifyReady ctx slot tag
  match u.ran with
  | none =>
    put s { tag := tag, record := some (completionRecord u.code 1 0 u.ordinal 0 []), released := false, resAddr := 0,
            resBytes := 0, sealed := none }
  | some k =>
    let sealing := k.sealed && k.key.isSome
    let r := s.readView (ioFor (polderOf ctx)) k.resAddr (if k.e2e || sealing then k.resBytes else 0)
    let s := r.state
    let rkey := Config.hkdf [] (k.key.getD 0) (ascii "IK2 result")
    let sent := if sealing then (Config.gcmSeal rkey k.nonce [] r.data).take k.resBytes else r.data
    let flags := (if k.e2e then 2 else 0) + (if sealing then 4 else 0)
    -- the check and the tag of a result that holds a poisoned word are free values
    let crc : W64 := if k.e2e then (if r.poison.isSome then s.freeVal 64 else crc64 sent) else 0
    let s := if k.e2e && r.poison.isSome then s.usedFree else s
    let aad := completionRecord u.code flags k.resBytes u.ordinal crc.toNat []
    let open128 : BitVec 128 := s.freeVal 128
    let bad := sealing && r.poison.isSome
    let gtag := if bad then toBytes 16 open128.toNat
      else if sealing then (Config.gcmSeal rkey k.nonce aad r.data).drop k.resBytes else []
    let s := if bad then s.usedFree else s
    put s { tag := tag, record := some (completionRecord u.code flags k.resBytes u.ordinal crc.toNat gtag),
            released := false, resAddr := k.resAddr, resBytes := k.resBytes,
            sealed := if sealing then some sent else none }

/-- A record that enters its slot now if the slot is FREE, and waits for it otherwise (R362). -/
def State.completePkg (s : State) (ctx : Nat) (u : Unplaced) : State :=
  if (s.ctx ctx).slotFree (u.ordinal % 256) then s.placeRecord ctx u
  else s.onCtx ctx (fun c => { c with discards := c.discards ++ [u] })

/-- After a release: the first record that waits for the slot enters it (R362). -/
def State.placeWaiting (s : State) (ctx slot : Nat) : State :=
  match (s.ctx ctx).discards.find? (fun u => u.ordinal % 256 == slot) with
  | none => s
  | some u => (s.onCtx ctx (fun c => { c with discards := c.discards.erase u })).placeRecord ctx u

/-! ### Wake requests (R425, R426, R328) -/

/-- The block of a site (R436). -/
def siteIndex (site : Nat) : Nat := 0x2100 + 16 * site

/-- A core's wake request in the admission queue, held by the scheduler while the queue is full. -/
def State.queueWake (s : State) (core : Nat) : State :=
  if s.wakeQ.contains core || s.wakeHeld.contains core then s
  else if s.wakeQ.length < 256 then { s with wakeQ := s.wakeQ ++ [core] }
  else { s with wakeHeld := s.wakeHeld ++ [core] }

/-- The scheduler asks for a core: a core in SLEEP asks for its site's start. (DESIGN CHOICE: log entry 57) -/
def State.requestWake (s : State) (core : Nat) : State :=
  let c := s.core core
  if c.power = 0 || c.waking then s
  else if c.power = 3 then
    let site := siteOf core
    if s.startQ.contains site || s.entry (siteIndex site) 5 == 1 then s
    else { s with startQ := s.startQ ++ [site] }
  else s.queueWake core

/-- Whether every core of a context is in RUN. -/
def State.allRun (s : State) (c : Ctx) : Bool := c.cores.all (fun n => (s.core n).power == 0)

/-- A context whose cores are all in RUN: a SAVED one begins its restore (R323, R427). -/
def State.afterWake (s : State) (ctx : Nat) : State :=
  let c := s.ctx ctx
  if c.granted && c.state == 5 && s.allRun c then s.setCtx ctx { c with state := 6 } else s

/-! ### The scheduler (R324, R325) -/

/-- Whether a context's state stands on its cores. -/
def Ctx.resident (c : Ctx) : Bool := c.hasState && c.images.isEmpty && c.state != 6

/-- Whether a context keeps its sites from others: it runs, is being saved or restored, was chosen, or is not
pre-emptible (R325). -/
def Ctx.holds (c : Ctx) : Bool :=
  c.granted || c.state == 3 || c.state == 4 || c.state == 6 || (!c.preemptible && c.state != 0)

/-- Whether a ready context waits for its sites (R323). -/
def Ctx.waits (c : Ctx) : Bool :=
  !c.granted && (c.state == 2 || (c.state == 5 && (!c.queue.isEmpty || c.running.isSome)))

def Ctx.overlaps (c d : Ctx) : Bool := (c.sites &&& d.sites) != 0

/-- The other contexts that stand on any site of a context: they hold it, or keep their state on its cores. A context
that is not pre-emptible does so only against contexts opened after it. -/
def State.inTheWay (s : State) (ctx : Nat) : List (Nat × Ctx) :=
  let c := s.ctx ctx
  s.ctxs.filter (fun x => x.1 != ctx && x.2.state != 0 && x.2.overlaps c
    && (x.2.resident || x.2.granted || x.2.state == 3 || x.2.state == 4 || x.2.state == 6
        || (!x.2.preemptible && (c.preemptible || x.2.openAt < c.openAt))))

/-- A pre-emption request to a context that stands on its cores, or the withdrawal of one only chosen (R327). -/
def State.preempt (s : State) (ctx : Nat) : State :=
  let c := s.ctx ctx
  if c.resident then s.setCtx ctx { c with state := 4, granted := true }
  else
    let s := c.cores.foldl (fun s n => s.onCore n (fun k => if k.power = 0 then { k with power := 1 } else k)) s
    s.setCtx ctx { c with granted := false }

/-- Whether a ready context may displace another (R324, R325). -/
def Ctx.yields (c d : Ctx) : Bool :=
  c.preemptible
    && ((c.state != 4 && c.state != 6 && c.state != 3 && !c.granted)
        || ((c.state == 3 || c.state == 2 || c.state == 5) && c.prio < d.prio))

/-- The sites of a context are chosen for it, and its cores are asked for (R324, R328).
(DESIGN CHOICE: log entry 57) -/
def State.grant (s : State) (ctx : Nat) : State :=
  let c := s.ctx ctx
  let s := s.setCtx ctx { c with granted := true, driven := true }
  (c.cores.foldl State.requestWake s).afterWake ctx

/-- One ready context at a scheduling point: it starts when its sites are free, and displaces those that stand on them
when every one of them yields. -/
def State.consider (s : State) (ctx : Nat) : State :=
  if !(s.ctx ctx).waits then s
  else
    let others := s.inTheWay ctx
    if others.isEmpty then s.grant ctx
    else if others.all (fun x => x.2.yields (s.ctx ctx)) then
      let s := others.foldl (fun s x => s.preempt x.1) s
      if (s.inTheWay ctx).isEmpty then s.grant ctx else s
    else s

/-- Ready contexts by priority, then in the order in which they became ready. -/
def Ctx.before (c d : Ctx) : Bool := d.prio < c.prio || (c.prio == d.prio && c.readyAt ≤ d.readyAt)

/-- A scheduling point of a polder (R324). (DESIGN CHOICE: log entry 57) -/
def State.schedule (s : State) (p : Nat) : State :=
  let ready := sortBy (fun a b => a.2.before b.2) ((s.ctxsOf p).filter (fun x => x.2.waits))
  ready.foldl (fun s x => s.consider x.1) s

/-- A context takes its place among the ready ones. -/
def State.stampReady (s : State) (ctx : Nat) : State :=
  { s.onCtx ctx (fun c => { c with readyAt := s.readyCount }) with readyCount := s.readyCount + 1 }

/-! ### Posts of the Sluice (R254) -/

/-- The home sets a post's bit by rewriting its code word: the state, and the poisoned address that stops it, of a word
that is then left as it is (R310, R311). -/
def State.setMapBit (s : State) (x : Post) : State × Option W64 :=
  let p := polderOf x.ctx.toNat
  let home : Requester := { polder := p, site := some (s.entry (0x7110 + p) 0 / 16) }
  let s := s.bump (0x7120 + p) 6 1
  let o := x.addr.toNat % 64
  let r := s.readView home (x.addr - BitVec.ofNat 64 o) 64
  if r.poison.isSome then (r.state, some x.addr)
  else
    let byte := r.data.getD o 0 ||| (1 : Byte) <<< x.bit
    (r.state.writeView home (x.addr - BitVec.ofNat 64 o) (r.data.set o byte), none)

/-! ### Teardown (R331) and polder reset (R332) -/

/-- The pages a context's loads hold pinned, on its cores and in its images (R246). -/
def State.pinsOf (s : State) (c : Ctx) : List Nat :=
  let opsOf (k : CoreState) : List Nat := k.ops.flatMap (fun o => match o.op with
    | .kvload j => j.pins
    | _ => [])
  (if c.images.isEmpty then c.cores.flatMap (fun n => opsOf (s.core n)) else c.images.flatMap opsOf)

/-- Whether an `X.FABRIC` is a collective: ALLREDUCE, REDUCE, BROADCAST (R369). -/
def FabricOp.collective (o : FabricOp) : Bool := o.func == 2 || o.func == 3 || o.func == 4

def FabricOp.collId (o : FabricOp) : W64 := o.words.getD 6 0

/-- The collective engine abandons a context's operations and sends aborts for its collectives in progress (R373). Packets
that have left are still repeated until they are acknowledged. -/
def State.abandonFabric (s : State) (ctx : Nat) : State :=
  let mine := s.fabricOps.filter (fun o => o.ctx.toNat == ctx)
  let g := (s.ctx ctx).group
  let peers := match g with
    | some g => g.members.eraseIdx g.mine
    | none => []
  let s := mine.foldl (fun s o =>
    if o.collective && o.state == 0 then peers.foldl (fun s d => s.send (.fabricAbort d o.collId)) s else s) s
  { s with
    fabricOps := s.fabricOps.filter (fun o => o.ctx.toNat != ctx)
    fabricPkts := s.fabricPkts.filter (fun k => !(k.waiting && mine.any (fun o => o.id == k.op))) }

/-- Queued media jobs of a torn-down context are dropped; a running one completes unwritten (R384). -/
def State.dropMedia (s : State) (ctx : Nat) : State :=
  { s with
    engines := s.engines.map (fun e =>
      (e.1, { e.2 with
        queue := e.2.queue.filter (fun j => j.ctx.toNat != ctx)
        running := e.2.running.map (fun j => if j.ctx.toNat = ctx then { j with dropped := true } else j) })) }

/-- The posts a context has issued are completed, in order (R254, R331). (DEDUCED: log entry 52) -/
def State.servePosts (s : State) (ctx : Nat) : State :=
  let p := polderOf ctx
  let mine := (s.polder p).posts.filter (fun x => x.ctx.toNat == ctx)
  let s := s.onPolder p (fun q => { q with posts := q.posts.filter (fun x => x.ctx.toNat != ctx) })
  mine.foldl (fun s x => (s.setMapBit x).1) s

/-- A core that a context leaves: clock-gated, its stores zeroed before the next context's first bundle (R325). -/
def State.leaveCore (s : State) (ctx core : Nat) : State :=
  let k := s.core core
  if k.ctx = some (BitVec.ofNat 12 ctx) then
    s.setCore core { CoreState.reset with power := if k.power = 0 then 1 else k.power, waking := k.waking }
  else if k.power = 0 && k.ctx.isNone then s.setCore core { k with power := 1 }
  else s

def HomeReq.ctx : HomeReq → W12
  | .seq r => r.ctx
  | .translate r => r.ctx
  | .release r => r.ctx

/-- A context is torn down with a code and a scope (R331, R362), and what waits for its packages to be posted is answered.
Beside the state, whether a word that holds its pins is poisoned (R245). (DEDUCED: log entry 49) (DEDUCED: log entry 52) -/
def State.dismantle (s : State) (ctx code scope : Nat) : State × Bool :=
  let c := s.ctx ctx
  let p := polderOf ctx
  if c.state = 0 then (s, false)
  else
    let s := s.servePosts ctx
    let pins := (s.pinsOf c).foldl Home.unpin (s.home p)
    let s := pins.close.onPolder p (fun q => { q with homeQ := q.homeQ.filter (fun r => r.ctx.toNat != ctx) })
    let s := (s.abandonFabric ctx).dropMedia ctx
    let s := c.cores.foldl (fun s n => s.leaveCore ctx n) s
    let lost := c.queue.map Pkg.ordinal ++ c.asm.map Assembly.ordinal
    let s := s.setCtx ctx
      { c with state := 0, cores := [], images := [], queue := [], asm := [], running := none, granted := false,
               hasState := false, moveTo := none, group := none, lastFault := code, faultScope := scope }
    let s := (c.asm.flatMap Assembly.replies).foldl (fun s h => s.send (.host 0x85 h 0 [])) s
    let s := match c.running with
      | some k => s.completePkg ctx { ordinal := k.ordinal, code := code, ran := some k }
      | none => s
    let s := lost.foldl (fun s k => s.completePkg ctx { ordinal := k, code := code, ran := none }) s
    ((s.bump (0x6200 + p) 2 lost.length).bump (polderIndex p 3) 4 1, pins.poison.isSome)

/-- The work counters of a site read 0 (R71, R97). -/
def State.zeroCounters (s : State) (site : Nat) : State := { s with counters := clearCells s.counters (256 * site) 256 }

/-- Every media stream of a polder is closed and its jobs dropped (R384). -/
def State.closeStreams (s : State) (p : Nat) : State :=
  { s with
    engines := s.engines.map (fun e =>
      (e.1, { e.2 with
        queue := e.2.queue.filter (fun j => j.polder != p)
        running := e.2.running.filter (fun j => j.polder != p)
        streams := e.2.streams.filter (fun x => x.2.polder != p) })) }

/-- The seal slots of a polder are erased (R413). -/
def State.eraseSeals (s : State) (p : Nat) : State :=
  { s with sealKeys := s.sealKeys.filter (fun x => x.1 / 16 != p) }

/-- A context's record is written in its place of the context-record region; its bytes are free values.
(DESIGN CHOICE: log entry 54) (DESIGN CHOICE: log entry 84) -/
def State.writeRecord (s : State) (ctx : Nat) : State :=
  let v : BitVec 2048 := s.freeVal 2048
  let p := polderOf ctx
  s.usedFree.writeView (ioFor p) (s.recordsAt p + BitVec.ofNat 64 (256 * (ctx % 256))) (toBytes 256 v.toNat)

/-- A polder is reset with the triggering code (R332). A counter request that still waits is served after the counters
are zeroed (R97). (DESIGN CHOICE: log entry 84) -/
def State.resetPolder (s : State) (p code : Nat) : State :=
  let s := (s.openCtxs p).foldl (fun s c => (s.dismantle c code 2).1) s
  let s := (sitesOf (s.polderMask p)).foldl State.zeroCounters s
  let s := if (s.polder p).cacheInit then s.initCache p else s
  let s := if s.recordsOk p then (List.range 256).foldl (fun s c => s.writeRecord (256 * p + c)) s else s
  let s := (s.closeStreams p).eraseSeals p
  ((s.bump32 (polderIndex p 3) 5).event (polderIndex p 1) 1 1).schedule p

/-- A context is torn down; a poisoned word among those that hold its pins resets the polder (R245). -/
def State.teardown (s : State) (ctx code scope : Nat) : State :=
  let r := s.dismantle ctx code scope
  if r.2 then r.1.resetPolder (polderOf ctx) 3 else r.1

/-! ### Taking a fault (R73, R77, R331) -/

/-- The fault codes of R330. -/
def faultLoop : Nat := 1
def faultNarrow : Nat := 2
def faultUncorrectable : Nat := 3
def faultMenu : Nat := 4
def faultFormat : Nat := 5
def faultEphemeris : Nat := 6
def faultPage : Nat := 7
def faultSequence : Nat := 8
def faultIllegal : Nat := 9
def faultPolder : Nat := 10
def faultEdition : Nat := 11
def faultWake : Nat := 12
def faultSampler : Nat := 13

/-- Whether a fault is a poisoned word of the polder's cache or context records (R245, R332). -/
def State.sharedPoison (s : State) (ctx code : Nat) (detail : W64) : Bool :=
  let p := polderOf ctx
  code == faultUncorrectable && (match s.resolve p detail with
    | some ph => s.inCache p ph || s.inRecords p ph
    | none => false)

/-- A context ends with a fault: itself alone, or with its polder when an uncorrectable word was taken from a cache
region or the context-record region (R245, R331, R332). (DESIGN CHOICE: log entry 17) -/
def State.faultContext (s : State) (ctx code : Nat) (detail : W64) : State :=
  let p := polderOf ctx
  let s := s.event (polderIndex p 1) 0 1
  if s.sharedPoison ctx code detail then s.resetPolder p code else (s.teardown ctx code 1).schedule p

/-- A core's own entries record its fault (R77). -/
def State.recordFault (s : State) (ctx : Nat) (x : Nat × PendingFault) : State :=
  let e (s : State) (sub v : Nat) : State := s.setEntry (coreIndex x.1 3) sub v
  let s := e (e (e (e (e (e s 1 x.2.code) 2 x.2.slot) 3 x.2.bundle) 4 x.2.detail.toNat) 5 ctx) 6 x.2.more
  s.event (coreIndex x.1 2) 0 1

/-- A core takes a fault, and with it the cores of its context that have found one and reach their bundle boundary now:
each records its own (R73, R77), and the context ends with that of the lowest core, or with a word that its polder shares
(R331, R332). (DESIGN CHOICE: log entry 17) -/
def State.takeFault (s : State) (core : Nat) (f : PendingFault) : State :=
  match (s.core core).ctx with
  | none => s
  | some ctx =>
    let also := (s.ctx ctx.toNat).cores.filterMap (fun n =>
      if n = core then none else (s.core n).fault.map (fun g => (n, g)))
    let all := sortBy (fun x y => decide (x.1 ≤ y.1)) ((core, f) :: also)
    let first := (all.find? (fun x => s.sharedPoison ctx.toNat x.2.code x.2.detail)).getD (all.headD (core, f))
    (all.foldl (fun s x => s.recordFault ctx.toNat x) s).faultContext ctx.toNat first.2.code first.2.detail

/-- A fault found inside an asynchronous operation: it waits for the core's next bundle boundary, one fault only, the
lower slot first (R73, R74). -/
def CoreState.noteFault (k : CoreState) (f : PendingFault) : CoreState :=
  match k.fault with
  | none => { k with fault := some f }
  | some g =>
    if f.bundle ≠ g.bundle then k
    else if f.slot < g.slot then { k with fault := some { f with more := g.more + 1 } }
    else { k with fault := some { g with more := g.more + 1 } }

def State.raise (s : State) (core : Nat) (f : PendingFault) : State := s.onCore core (fun k => k.noteFault f)

/-! ### Operations that outlive a save (R234, R373, R379) -/

/-- The state of the core of a rank of a context, on its core or in its save image. -/
def State.atRank (s : State) (ctx rank : Nat) (f : CoreState → CoreState) : State :=
  let c := s.ctx ctx
  if c.images.isEmpty then
    match c.cores[rank]? with
    | some n => if (s.core n).ctx = some (BitVec.ofNat 12 ctx) then s.onCore n f else s
    | none => s
  else s.setCtx ctx { c with images := c.images.modify rank f }

/-- A tag becomes free. -/
def CoreState.freeTag (k : CoreState) (t : Nat) : CoreState := { k with ops := k.ops.filter (fun o => o.tag != some t) }

/-! ### Choice counters (R339) -/

/-- One choice that depends on timing. -/
def State.timingChoice (s : State) (ctx : Nat) : State :=
  ((s.bump 0xA000 1 1).bump (0xA050 + polderOf ctx) 1 1).onCtx ctx (fun c => { c with timing := (c.timing + 1) % 2 ^ 64 })

/-- One combination in an order other than that of R114. -/
def State.resultChoice (s : State) (ctx : Nat) : State :=
  ((s.bump 0xA000 2 1).bump (0xA050 + polderOf ctx) 2 1).onCtx ctx (fun c => { c with result := (c.result + 1) % 2 ^ 64 })

end Sys2Proof.Machine
end

