-- ==== Sys2Proof/Machine/Walk.lean ====
section
/-! DEFINITION. Descriptor tables and walks (04_loops_tiling.md): binding, the visit order, the resource checks, reads by
code word, and the collection of writes into whole code words. -/

namespace Sys2Proof.Machine

/-! ### Binding (R78 to R83) -/

/-- A level's three words, for operand column `n` (R82). -/
def levelOf (w0 w1 w2 : W64) (n : Nat) : Level :=
  let stride := match n with
    | 0 => bits w1 63 32
    | 1 => bits w1 31 0
    | 2 => bits w2 63 32
    | _ => bits w2 31 0
  { bound := bits w0 63 32, order := bits w0 31 29, dim := bits w0 28 26, pad := w0.getLsbD 25,
    dscale := signed 16 (bits w0 15 0), stride := signed 32 stride }

/-- The walk that a 35-word table describes for a column, or none where R83 faults. -/
def walkOf (t : List W64) (n : Nat) : Option Walk :=
  let w (i : Nat) : W64 := t.getD i 0
  let nl := bits (w 0) 59 57
  let nd := bits (w 0) 56 54
  let lv := (List.range nl).map (fun l => levelOf (w (17 + 3 * l)) (w (18 + 3 * l)) (w (19 + 3 * l)) n)
  let c0 := w (5 + 3 * n)
  let ok := bits (w 0) 63 60 == 1 && 1 ≤ nl && nl ≤ 6 && nd ≤ 4
    && (List.range nl).all (fun j => (lv.filter (fun l => l.order == j)).length == 1)
    && lv.all (fun l => l.dim == 7 || l.dim < nd)
    && bits c0 44 28 != 0
  if ok then some
    { levels := (List.range nl).filterMap (fun j => lv.find? (fun l => l.order == j))
      dims := (List.range nd).map (fun d => (bits (w (1 + d)) 63 32, signed 32 (bits (w (1 + d)) 31 0)))
      space := c0.getLsbD 63, elem := bits c0 62 61, wsBase := bits c0 60 45, wsWindow := bits c0 44 28,
      memBase := w (6 + 3 * n), memSpan := bits (w (7 + 3 * n)) 39 0 }
  else none

/-- s, the element size in bytes (R81). -/
def Walk.size (w : Walk) : Nat :=
  match w.elem with
  | 0 => 1
  | 1 => 1
  | 2 => 2
  | _ => 4

/-! ### The walk (R87) -/

/-- A visited element: ordinal, indices by ascending `ORDER`, offset, validity. -/
structure Elt where
  k : Nat
  idx : List Nat
  off : Int
  valid : Bool

/-- Elements that a walk visits. -/
def Walk.count (w : Walk) : Nat := w.levels.foldl (fun a l => a * l.bound) 1

/-- The index vector of ordinal `k`, by ascending `ORDER`. -/
def indicesAt : List Level → Nat → List Nat
  | [], _ => []
  | l :: r, k => k % l.bound :: indicesAt r (k / l.bound)

/-- Whether a dimension is checked, and its coordinate lies outside its extent (R87). -/
def Walk.outside (w : Walk) (idx : List Nat) (d : Nat) (dim : Nat × Int) : Bool :=
  let mine := (w.levels.zip idx).filter (fun p => p.1.dim == d)
  mine.any (fun p => p.1.pad)
    && (let c : Int := mine.foldl (fun a p => a + (p.2 : Int) * p.1.dscale) dim.2
        c < 0 || (dim.1 : Int) ≤ c)

/-- The element of ordinal `k`. -/
def Walk.eltAt (w : Walk) (k : Nat) : Elt :=
  let idx := indicesAt w.levels k
  { k := k, idx := idx,
    off := (w.levels.zip idx).foldl (fun (a : Int) p => a + (p.2 : Int) * p.1.stride) 0
    valid := !((w.dims.zipIdx).any (fun p => w.outside idx p.2 p.1)) }

/-- Lanes of an array walk: the bound of the `ORDER` 0 level (R89). -/
def Walk.lanes (w : Walk) : Nat := (w.levels.head?.map Level.bound).getD 0

/-- K steps of an array walk: the index vectors above the lane level; none where any level is empty (R96). -/
def Walk.ksteps (w : Walk) : Nat := if w.count = 0 then 0 else w.count / w.lanes

/-! ### Faults of a walk (R90, R91) -/

/-- A fault at an element: code, detail, and the ordinal of the element. -/
structure WalkFault where
  code : Nat
  detail : W64
  k : Nat
  deriving DecidableEq, Repr

/-- `DETAIL` of R91. -/
def walkDetail (resource ag : Nat) (mem : Bool) (addr : Int) : W64 :=
  BitVec.ofNat 64 (resource * 2 ^ 60 + ag * 2 ^ 57 + (if mem then 2 ^ 56 else 0) + (addr % 2 ^ 48).toNat)

def overflowAt (resource ag : Nat) (mem : Bool) (addr : Int) (k : Nat) : WalkFault :=
  { code := faultLoop, detail := walkDetail resource ag mem addr, k := k }

/-- Where a walk's own elements lie: the working store or memory (R85). -/
inductive Side where
  | ws (base : Nat) (window : Nat)
  | mem (base : W64) (span : Nat)

/-- The byte address of an element on its side. -/
def Side.addr : Side → Int → Int
  | .ws b _, off => (b : Int) + off
  | .mem b _, off => (b.toNat : Int) + off

def Side.isMem : Side → Bool
  | .ws _ _ => false
  | .mem _ _ => true

/-- Checks 3 and 4 of R90 on a walk's own side, for an element of `size` bytes; the resource that fails. -/
def Side.check (d : Side) (size : Nat) (off : Int) : Option Nat :=
  match d with
  | .ws b window =>
    let a := d.addr off
    if a < b ∨ (b + 64 * window : Nat) < a + size ∨ a % size ≠ 0 then some 3 else none
  | .mem _ span =>
    if off < 0 ∨ (span : Int) < off + size ∨ d.addr off % size ≠ 0 then some 4 else none

/-- The side of an array walk (R85). -/
def Walk.side (w : Walk) : Side := if w.space then .mem w.memBase w.memSpan else .ws (64 * w.wsBase) w.wsWindow

/-! ### Reading the elements of a walk (R88, R94) -/

/-- A walk being read: the run's code word and its content, the last word read, the elements so far (none where
invalid), last first, and the fault that stopped it. -/
structure Fetch where
  state : State
  run : Option Int
  word : Option (List Byte × Bool)
  last : Option Nat
  out : List (Option (List Byte))
  fault : Option WalkFault

def Fetch.start (s : State) : Fetch :=
  { state := s, run := none, word := none, last := none, out := [], fault := none }

/-- The word of a memory element, read once for each run of elements that stay in it. (DEDUCED: log entry 31) -/
def Fetch.load (f : Fetch) (r : Requester) (k size : Nat) (addr : Int) : Fetch :=
  let cw := addr / 64
  let f := if f.run = some cw then f else { f with run := some cw, word := none }
  let a : W64 := BitVec.ofInt 64 addr
  if addr < 0 ∨ 2 ^ 64 ≤ addr then { f with fault := some ⟨faultPolder, a, k⟩ }
  else match f.state.resolve r.polder a with
    | none => { f with fault := some ⟨faultPolder, a, k⟩ }
    | some ph =>
      let f := match f.word with
        | some _ => f
        | none =>
          let n := a.toNat / 64
          let s := if f.last = some (n - 1) ∧ n % 32 ≠ 0 then f.state else f.state.burst ph
          let w := s.readWord r (ph / 64)
          { f with state := w.state, word := some (w.data, w.poisoned), last := some n }
      match f.word with
      | none => f
      | some (data, bad) =>
        if bad then { f with fault := some ⟨faultUncorrectable, a, k⟩ }
        else { f with out := some ((data.drop (ph % 64)).take size) :: f.out }

/-- One element of a walk is read. `pre` gives the checks of R90 that concern more than the walk's own side.
(DEDUCED: log entry 31) (DEDUCED: log entry 32) -/
def Fetch.visit (f : Fetch) (r : Requester) (ws : Store 8) (ag : Nat) (w : Walk) (d : Side)
    (pre : Elt → Option WalkFault) (k : Nat) : Fetch :=
  let e := w.eltAt k
  if 2 ^ 40 ≤ k then { f with fault := some (overflowAt 1 ag d.isMem (d.addr e.off) k) }
  else match pre e with
    | some x => { f with fault := some x }
    | none =>
      if !e.valid then
        { f with out := none :: f.out,
                 run := if d.isMem then some (d.addr e.off / 64) else f.run,
                 word := if f.run = some (d.addr e.off / 64) then f.word else none }
      else match d.check w.size e.off with
        | some res => { f with fault := some (overflowAt res ag d.isMem (d.addr e.off) k) }
        | none => match d with
          | .ws _ _ => { f with out := some (cells ws (d.addr e.off).toNat w.size) :: f.out }
          | .mem _ _ => f.load r k w.size (d.addr e.off)

/-- The elements of a walk from ordinal `k` on, until the first that faults. -/
def Fetch.run' (r : Requester) (ws : Store 8) (ag : Nat) (w : Walk) (d : Side) (pre : Elt → Option WalkFault) :
    Nat → Nat → Fetch → Fetch
  | 0, _, f => f
  | n + 1, k, f =>
    match f.fault with
    | some _ => f
    | none => Fetch.run' r ws ag w d pre n (k + 1) (f.visit r ws ag w d pre k)

/-- A whole walk read. -/
def fetchWalk (s : State) (r : Requester) (ws : Store 8) (ag : Nat) (w : Walk) (d : Side)
    (pre : Elt → Option WalkFault) : Fetch :=
  Fetch.run' r ws ag w d pre (min w.count (2 ^ 40 + 1)) 0 (Fetch.start s)

/-! ### Collecting writes (R93) -/

/-- A walk's writes to memory: the code word being collected with its bytes, the last word issued. -/
structure Collect where
  state : State
  word : Option (Nat × List (Option Byte))
  last : Option Nat

def Collect.start (s : State) : Collect := { state := s, word := none, last := none }

/-- The collected word is issued when all its bytes are supplied, and is discarded otherwise (R92). -/
def Collect.flush (c : Collect) (r : Requester) : Collect :=
  match c.word with
  | none => c
  | some (n, bs) =>
    if bs.all Option.isSome then
      match c.state.resolve r.polder (BitVec.ofNat 64 (64 * n)) with
      | none => { c with word := none }
      | some ph =>
        let s := if c.last = some (n - 1) ∧ n % 32 ≠ 0 then c.state else c.state.burst ph
        { state := s.writeWord r (ph / 64) (bs.map (fun b => b.getD 0)), word := none, last := some n }
    else { c with word := none }

/-- Whether a word is being collected that lacks a byte. -/
def Collect.incomplete (c : Collect) : Bool :=
  match c.word with
  | none => false
  | some (_, bs) => !bs.all Option.isSome

/-- Bytes put into a word being collected. -/
def putBytes (ws : List (Option Byte)) (o : Nat) (bs : List Byte) : List (Option Byte) :=
  ws.zipIdx.map (fun p => if o ≤ p.2 ∧ p.2 < o + bs.length then some (bs.getD (p.2 - o) 0) else p.1)

/-- Whether an element joins a word other than the one being collected. -/
def Collect.moves (c : Collect) (addr : Nat) : Bool :=
  match c.word with
  | none => false
  | some (n, _) => n != addr / 64

/-- An element's bytes are collected; the word before it has been issued if the element lies in another. -/
def Collect.add (c : Collect) (r : Requester) (addr : Nat) (bs : List Byte) : Collect :=
  let c := if c.moves addr then c.flush r else c
  let cur := match c.word with
    | some (_, w) => w
    | none => List.replicate 64 none
  { c with word := some (addr / 64, putBytes cur (addr % 64) bs) }

/-- The address of the word being collected. -/
def Collect.wordAddr (c : Collect) : Nat := match c.word with
  | some (n, _) => 64 * n
  | none => 0

/-- `NARROW_WRITE` of the word being collected (R91, R93). -/
def Collect.narrow (c : Collect) (ag k : Nat) : WalkFault :=
  { code := faultNarrow, detail := walkDetail 5 ag true c.wordAddr, k := k }

/-- The polder check of an element written to memory: R11, and the regions that only other engines write (R231, R326,
R360). -/
def State.writable (s : State) (p : Nat) (addr : Int) : Bool :=
  0 ≤ addr && addr < 2 ^ 64 && (match s.resolve p (BitVec.ofInt 64 addr) with
    | some ph => !s.guardedByte p ph
    | none => false)

/-- An element written to memory: the polder check, then the code-word rule. -/
def Collect.write (c : Collect) (r : Requester) (ag k : Nat) (addr : Int) (bs : List Byte) :
    Collect × Option WalkFault :=
  if !c.state.writable r.polder addr then (c.flush r, some ⟨faultPolder, BitVec.ofInt 64 addr, k⟩)
  else if c.moves addr.toNat && c.incomplete then (c, some (c.narrow ag k))
  else (c.add r addr.toNat bs, none)

/-- The end of a writing walk (R93). -/
def Collect.finish (c : Collect) (r : Requester) (ag k : Nat) : Collect × Option WalkFault :=
  if c.incomplete then (c, some (c.narrow ag k)) else (c.flush r, none)

/-! ### A.LOAD and A.STORE (R88) -/

/-- What a transfer leaves: the state with the core's working store, and the fault that stopped it. -/
structure Moved where
  state : State
  fault : Option WalkFault

/-- The load walk of a core (R88, R94): elements land packed from line `line`. -/
def State.runLoad (s : State) (core p ag : Nat) (w : Walk) (base : W64) (line : Nat) : Moved :=
  let pre (e : Elt) : Option WalkFault :=
    let a := 64 * line + e.k * w.size
    if 64 * (line + w.wsWindow) < a + w.size then some (overflowAt 3 ag false a e.k) else none
  let f := fetchWalk s (coreFor p core) [] ag w (.mem base w.memSpan) pre
  let bytes := (f.out.reverse.map (fun o => o.getD (List.replicate w.size 0))).flatten
  { state := f.state.onCore core (fun k => k.putWs (64 * line) bytes), fault := f.fault }

/-- The store walk of a core from ordinal `k` on (R88, R93); the fault of ordinal 2^40 names the memory side (R91).
(DEDUCED: log entry 31) -/
def storeFrom (r : Requester) (ws : Store 8) (ag : Nat) (w : Walk) (base : W64) (line : Nat) :
    Nat → Nat → Collect → Collect × Option WalkFault
  | 0, k, c => c.finish r ag k
  | n + 1, k, c =>
    let e := w.eltAt k
    let src := 64 * line + k * w.size
    let d : Side := .mem base w.memSpan
    if 2 ^ 40 ≤ k then (c.flush r, some (overflowAt 1 ag true (d.addr e.off) k))
    else if !e.valid then storeFrom r ws ag w base line n (k + 1) c
    else if 64 * (line + w.wsWindow) < src + w.size then (c.flush r, some (overflowAt 3 ag false src k))
    else match d.check w.size e.off with
      | some res => (c.flush r, some (overflowAt res ag true (d.addr e.off) k))
      | none =>
        let x := c.write r ag k (d.addr e.off) (cells ws src w.size)
        match x.2 with
        | some fl => (x.1, some fl)
        | none => storeFrom r ws ag w base line n (k + 1) x.1

/-- The store walk of a core. -/
def State.runStore (s : State) (core p ag : Nat) (w : Walk) (base : W64) (line : Nat) : Moved :=
  let x := storeFrom (coreFor p core) (s.core core).ws ag w base line (min w.count (2 ^ 40 + 1)) 0 (Collect.start s)
  { state := x.1.state, fault := x.2 }

end Sys2Proof.Machine
end

