-- ==== Sys2Proof/Machine/Chains.lean ====
section
/-! DEFINITION. Fused prologues and epilogues (09_fused_chains.md): the menu, the chain words and their checks, the
prologue of an operand element, the epilogue of a drained element, mirror rounding, and `mx_quantise` (R123). -/

namespace Sys2Proof.Machine

/-- The entries of a chain code (R190). -/
structure Menu where
  pAct : Bool := false
  pNorm : Bool := false
  pWiden : Bool := false
  bias : Bool := false
  act : Bool := false
  scale : Bool := false
  res : Bool := false
  emit : Bool := false
  capture : Bool := false
  quant : Bool := false

/-- The menu of R190. -/
def menuOf : Nat → Option Menu
  | 0 => some {}
  | 1 => some { pAct := true }
  | 2 => some { pNorm := true }
  | 3 => some { pNorm := true, pAct := true }
  | 4 => some { pWiden := true }
  | 5 => some { bias := true }
  | 6 => some { scale := true }
  | 7 => some { bias := true, act := true }
  | 8 => some { bias := true, act := true, capture := true, quant := true }
  | 9 => some { bias := true, res := true }
  | 10 => some { bias := true, res := true, emit := true }
  | 11 => some { bias := true, scale := true, res := true, emit := true }
  | 12 => some { capture := true, quant := true }
  | 13 => some { bias := true, capture := true, quant := true }
  | 14 => some { res := true, emit := true }
  | 15 => some { bias := true, act := true, scale := true }
  | 16 => some { act := true, capture := true, quant := true }
  | 17 => some { pNorm := true, bias := true }
  | 18 => some { pNorm := true, bias := true, act := true, capture := true, quant := true }
  | 19 => some { pNorm := true, pAct := true, capture := true, quant := true }
  | 20 => some { pWiden := true, bias := true }
  | 21 => some { pWiden := true, bias := true, res := true, emit := true }
  | 22 => some { pWiden := true, bias := true, scale := true, res := true, emit := true }
  | 23 => some { pAct := true, capture := true, quant := true }
  | _ => none

/-- Whether a code has a prologue (R208). -/
def Menu.hasPrologue (m : Menu) : Bool := m.pAct || m.pNorm || m.pWiden

/-- Whether a code has an epilogue entry (R206, R208). -/
def Menu.hasEpilogue (m : Menu) : Bool := m.bias || m.act || m.scale || m.res || m.emit || m.capture || m.quant

/-- The stream word's fields (R132) and the chain words' (R193, R194), as copied at issue. -/
structure Chain where
  scaleAgA : Nat
  scaleAgB : Nat
  metaAg : Nat
  histWs : Bool
  histLine : Nat
  histBase : Int
  outFmt : Nat
  rnd : Nat
  mirror : Bool
  mirrorFmt : Fmt
  act : Nat
  qexp : Int
  proFmt : Nat
  pqexp : Int
  widenB : Bool
  widenFmt : Nat
  rms : Bool
  resAg : Nat
  resFmt : Nat
  biasLine : Nat
  scaleLine : Nat
  statLine : Nat
  amaxLine : Nat
  normLine : Nat
  gammaLine : Nat
  betaLine : Nat
  mxsLine : Nat

/-- The words from g[`G_PARAM`] on, as fields. -/
def chainOf (ws : List W64) : Chain :=
  let w (i : Nat) : W64 := ws.getD i 0
  { scaleAgA := bits (w 0) 63 61, scaleAgB := bits (w 0) 60 58, metaAg := bits (w 0) 57 55,
    histWs := (w 0).getLsbD 54, histLine := bits (w 0) 53 38, histBase := signed 8 (bits (w 0) 37 30),
    outFmt := bits (w 1) 63 61, rnd := bits (w 1) 60 59, mirror := (w 1).getLsbD 58,
    mirrorFmt := if (w 1).getLsbD 57 then fp16 else bf16, act := bits (w 1) 56 53,
    qexp := signed 8 (bits (w 1) 52 45), proFmt := bits (w 1) 44 42, pqexp := signed 8 (bits (w 1) 41 34),
    widenB := (w 1).getLsbD 33, widenFmt := bits (w 1) 32 31, rms := (w 1).getLsbD 30, resAg := bits (w 1) 29 27,
    resFmt := bits (w 1) 26 25, biasLine := bits (w 2) 63 48, scaleLine := bits (w 2) 47 32,
    statLine := bits (w 2) 31 16, amaxLine := bits (w 2) 15 0, normLine := bits (w 3) 63 48,
    gammaLine := bits (w 3) 47 32, betaLine := bits (w 3) 31 16, mxsLine := bits (w 3) 15 0 }

/-- Whether a field that the code uses holds an undefined value (R193, R195 0x03). `QEXP` and `PQEXP` run from −127. -/
def Chain.undefinedField (c : Chain) (m : Menu) : Bool :=
  c.rnd == 3
    || ((m.pAct || m.act) && 7 ≤ c.act)
    || ((m.pAct || m.pNorm) && (4 ≤ c.proFmt || c.pqexp < -127))
    || (m.pWiden && c.widenFmt == 3)
    || (m.res && c.resFmt == 3)
    || (m.quant && c.outFmt ≤ 4 && c.qexp < -127)

/-- Whether `OUT_FMT` is allowed for a code (R190). -/
def Chain.outAllowed (c : Chain) (m : Menu) : Bool := if m.quant then 3 ≤ c.outFmt else c.outFmt ≤ 2

/-- The format code that an operand's elements have after a widening (R108): 5, 6 or 2; none where R108 defines none. -/
def widenTo (src target : Nat) : Option Nat :=
  match target with
  | 0 => if src ≤ 4 then some 5 else none
  | 1 => if src ≤ 1 then some 6 else none
  | 2 => if src = 4 then some 2 else none
  | _ => none

/-- The format codes of both operands after the prologue; none where the prologue does not fit (R195 0x06). -/
def Chain.fit (c : Chain) (m : Menu) (fa fb : Nat) : Option (Nat × Nat) :=
  if m.pWiden then
    if c.widenB then (widenTo fb c.widenFmt).map (fun f => (fa, f))
    else (widenTo fa c.widenFmt).map (fun f => (f, fb))
  else if m.pAct || m.pNorm then
    if 2 ≤ fa ∧ fa ≤ 4 then none
    else some ((match c.proFmt with
      | 0 => 0
      | 1 => 1
      | 2 => 5
      | _ => 6), fb)
  else some (fa, fb)

/-- The first `MENU` cause that does not concern the bank (R195): 0x01, 0x05, 0x03, 0x04, 0x06.
(DESIGN CHOICE: log entry 37) -/
def menuFault (code : Nat) (attn : Bool) (c : Chain) (fmts : Option (Nat × Nat)) : Option Nat :=
  match menuOf code with
  | none => some 1
  | some m =>
    if attn && code != 0 then some 5
    else if c.undefinedField m then some 3
    else if !c.outAllowed m then some 4
    else match fmts with
      | some (fa, fb) => if (c.fit m fa fb).isNone then some 6 else none
      | none => none

/-! ### Entries on one element -/

/-- The FP32 number `i` of a run that starts at a line (R194). -/
def lineWord (ws : Store 8) (line i : Nat) : W32 := BitVec.ofNat 32 (ofBytes (cells ws (64 * line + 4 * i) 4))

/-- An FP32 value rounded once to the mirror format, kept as FP32 (R206). -/
def Chain.mirrored (c : Chain) (x : W32) : W32 × Ev :=
  if c.mirror then
    let r := narrow c.mirrorFmt .near true x
    (widen c.mirrorFmt r.1, r.2)
  else (x, {})

/-- The exact sum or product of an entry, rounded once to FP32 or to the mirror format (R200, R205, R206). -/
def Chain.arith (c : Chain) (mul : Bool) (x y : W32) : W32 × Ev :=
  let v := if mul then (fv32 x).mul (fv32 y) else (fv32 x).add (fv32 y)
  let f := if c.mirror then c.mirrorFmt else fp32
  let r := f.write .near true v
  (widen f r.1, { r.2 with nanc := v.isNan && !isNan32 x && !isNan32 y })

/-- One step of a chain on a value with its events. -/
def thenEv (a : W32 × Ev) (f : W32 → W32 × Ev) : W32 × Ev :=
  let r := f a.1
  (r.1, a.2.merge r.2)

/-- `PRO_FMT` as a format. -/
def proFormat (n : Nat) : Fmt :=
  match n with
  | 0 => e4m3
  | 1 => e5m2
  | 2 => bf16
  | _ => fp16

/-- The normalisation entry on element x at row i and K position k (R196, R198). -/
def Chain.normalise (c : Chain) (ws : Store 8) (i k : Nat) (x : W32) : W32 × Ev :=
  let mean := lineWord ws c.normLine (2 * i)
  let r := lineWord ws c.normLine (2 * i + 1)
  let gamma := lineWord ws c.gammaLine k
  if c.rms then thenEv (mul32 x r) (fun t => mul32 t gamma)
  else
    let beta := lineWord ws c.betaLine k
    thenEv (thenEv (sub32 x mean) (fun t => mul32 t r)) (fun t => fma32 t gamma beta)

/-- Activation and normalisation of an element of A, from its code in format `f` to its value in `PRO_FMT` (R196). -/
def Chain.prologueA (c : Chain) (m : Menu) (sat4 : Bool) (ws : Store 8) (i k : Nat) (f : Fmt) (code : Nat) :
    Fv × Ev :=
  let a : W32 × Ev := (widen f code, {})
  let a := if m.pNorm then thenEv a (c.normalise ws i k) else a
  let a := if m.pNorm && m.pAct then thenEv a c.mirrored else a
  let a := if m.pAct then thenEv a (actOf c.act) else a
  let p := proFormat c.proFmt
  let r := p.convert .near sat4 ((fv32 a.1).scale c.pqexp)
  (p.decode r.1, a.2.merge r.2)

/-! ### Quantising to MX (R123) -/

/-- The largest exponent of an MX element format. -/
def emaxOf (f : Fmt) : Int :=
  if f = e4m3 then 8 else if f = e5m2 then 15 else 2

/-- `mx_quantise` (R123): the scale code, the element codes with their events, and whether the scale was clamped. -/
def mxQuantise (el : Fmt) (rnd : Nat) (vs : List (W32 × Nat)) : Nat × List (Nat × Ev) × Bool :=
  let fs := vs.map (fun v => fv32 v.1)
  if fs.any (fun v => !v.isFinite) then (0xFF, vs.map (fun _ => (0, {})), false)
  else
    let a := fs.foldl (fun (a : Fv) v => if a.lt v.abs then v.abs else a) (.fin false 0 0)
    if a.isZero then (0, fs.map (fun v => (el.sign v.isNeg 0, {})), false)
    else
      let x0 := a.exponent - emaxOf el
      let x : Int := max (-127) (min 127 x0)
      ((x + 127).toNat, (vs.zip fs).map (fun p => el.saturate (rndOf rnd p.1.2) (p.2.scale (-x))), x != x0)

/-- The output format of a drain (R193). -/
def outFormat (n : Nat) : Fmt :=
  match n with
  | 0 => fp32
  | 1 => bf16
  | 2 => fp16
  | 3 => e4m3
  | 4 => e5m2
  | 5 => e4m3
  | 6 => e5m2
  | _ => e2m1

/-- `ELEM` that fits an output format (R195). -/
def outElem (n : Nat) : Nat :=
  match n with
  | 0 => 3
  | 1 => 2
  | 2 => 2
  | 7 => 0
  | _ => 1

/-- `RES_FMT` as a format, and the `ELEM` that fits it. -/
def resFormat (n : Nat) : Fmt :=
  match n with
  | 0 => fp32
  | 1 => bf16
  | _ => fp16

def resElem (n : Nat) : Nat := if n = 0 then 3 else 2

/-! ### The epilogue's FP32 entries (R200) -/

/-- Bias, activation, scale and residual on a bank value, with mirror rounding; `rho` is the residual's FP32 value. -/
def Chain.epilogue (c : Chain) (m : Menu) (ws : Store 8) (col : Nat) (rho v : W32) : W32 × Ev :=
  let a := c.mirrored v
  let a := if m.bias then thenEv a (fun x => c.arith false x (lineWord ws c.biasLine col)) else a
  let a := if m.act then thenEv (thenEv a (actOf c.act)) c.mirrored else a
  let a := if m.scale then thenEv a (fun x => c.arith true x (lineWord ws c.scaleLine col)) else a
  if m.res then thenEv a (fun x => c.arith false x rho) else a

/-- The value before the final conversion: E4M3 and E5M2 quantising multiplies by 2^`QEXP` exactly (R200). -/
def Chain.quantised (c : Chain) (m : Menu) (x : W32) : Fv :=
  if m.quant && c.outFmt ≤ 4 then (fv32 x).scale c.qexp else fv32 x

end Sys2Proof.Machine
end

