-- ==== Sys2Proof/Machine/Flags.lean ====
section
/-! DEFINITION. Flags: the predicates of the scalar compares (R58), the numeric events of R125 as they reach a polder's
`NUMERIC_STATUS`, and the flags of status records (R29 to R32). -/

namespace Sys2Proof.Machine

/-- The results of the six scalar compares (R58). -/
def cmpEq (a b : W64) : Bool := a == b
def cmpNe (a b : W64) : Bool := a != b
def cmpLt (a b : W64) : Bool := a.slt b
def cmpLtu (a b : W64) : Bool := a.ult b
def cmpLe (a b : W64) : Bool := a.sle b
def cmpLeu (a b : W64) : Bool := a.ule b

/-- The numeric events of an operation go to the polder's record (R125). -/
def State.tally (s : State) (p : Nat) (t : Tally) : State :=
  let ix := 0xA010 + p
  (((((s.event ix 0 t.sat).event ix 1 t.e4nan).event ix 2 t.ovf).event ix 3 t.nanc).event ix 4 t.disc).event ix 5
    t.clamp

/-! ### Status records -/

/-- Whether a status record has an enabled flag that is 1 (R32). -/
def State.recordAlerts (s : State) (index : Nat) : Bool := (s.entry index 1 &&& s.entry index 2) != 0

/-- The indices of the status records that hold any flag. -/
def State.flagged (s : State) : List Nat :=
  (s.dict.filter (fun e => e.1 % 256 == 1 && e.2 != 0 && (statusOf (e.1 / 256)).isSome)).map (fun e => e.1 / 256)

/-- Whether any enabled flag of any record is 1 (R32). -/
def State.alerting (s : State) : Bool := s.flagged.any s.recordAlerts

/-- One `NOTIFY` (R43): the record's index and its flag word. -/
def State.sendNotice (s : State) (n : W16) (edition index : Nat) (flags : W32) : State :=
  let seq := Config.notifySeq s.tx.length
  s.send (.notify n index flags
    (s.wire n seq (tsusenHeader edition 7 n seq index 0 0 4 0) (toBytes 4 flags.toNat)))

/-- A `NOTIFY` to every session that has subscribed to a record (R32). -/
def State.notify (s : State) (index : Nat) : State :=
  (s.sessions.filter (fun x => x.2.subs.contains index)).foldl
    (fun s x => s.sendNotice (BitVec.ofNat 16 x.1) x.2.edition index (BitVec.ofNat 32 (s.entry index 1))) s

/-- One arrived event takes effect at a slow-cycle edge: its flag is set, its counter advances modulo 2^32, `ALERT_N` is
asserted and `NOTIFY` sent where R32 says, with the flags as they stand then. (DESIGN CHOICE: log entry 58) -/
def State.postEvent (s : State) (index b n : Nat) : State :=
  let old := s.entry index 1
  let s := (s.setEntry index 1 (old ||| 2 ^ b)).bumpW 32 index (3 + b) n
  let enabled := (s.entry index 2).testBit b
  let s := if enabled then { s with alertN := true } else s
  if enabled && !old.testBit b then s.notify index else s

/-- Every arrived event takes effect (R30). (DESIGN CHOICE: log entry 58) -/
def State.postAll (s : State) : State :=
  s.arrived.foldl (fun s e => s.postEvent e.1 e.2.1 e.2.2) { s with arrived := [] }

end Sys2Proof.Machine
end

