-- ==== Sys2Proof/Machine/Stats.lean ====
section
/-! DEFINITION. Row statistics (08_vector_functions.md R183 to R185): nodes (s, A, B, n), their combination and their
finish. A node's events are merged: its four lanes count as one element (R125). -/

namespace Sys2Proof.Machine

/-- A statistics node: shift, sum, sum of squares, count, all FP32. -/
structure Node where
  s : W32
  a : W32
  b : W32
  n : W32
  deriving DecidableEq, Repr

def qnan32 : W32 := 0x7FC00000#32

/-- The events of a list of FP32 results, merged. -/
def mergeEvs (xs : List (W32 × Ev)) : Ev := xs.foldl (fun e x => e.merge x.2) {}

/-- The node of a run of elements under a shift (R183 `STAT`, `STAT0`). -/
def nodeOf (s : W32) (xs : List W32) : Node × Ev :=
  let d := xs.map (fun x => sub32 x s)
  let sq := d.map (fun x => mul32 x.1 x.1)
  let a := meridianTree (d.map Prod.fst)
  let b := meridianTree (sq.map Prod.fst)
  ({ s := s, a := a.1, b := b.1, n := ofNat32 xs.length },
    (((mergeEvs d).merge (mergeEvs sq)).merge a.2).merge b.2)

/-- `COMBINE` (R184): a left node followed by a right one. -/
def Node.combine (l r : Node) : Node × Ev :=
  let delta := sub32 r.s l.s
  let a2r := fma32 r.n delta.1 r.a
  let two := mul32 0x40000000#32 r.a
  let u := fma32 r.n delta.1 two.1
  let b2r := fma32 delta.1 u.1 r.b
  let a := add32 l.a a2r.1
  let b := add32 l.b b2r.1
  let n := add32 l.n r.n
  ({ s := l.s, a := a.1, b := b.1, n := n.1 }, mergeEvs [delta, a2r, two, u, b2r, a, b, n])

/-- `FINISH` (R185): mean, variance, mean square about the shift, n. -/
def Node.finish (x : Node) : List W32 × Ev :=
  let bad (v : W32) : Bool := isNan32 v || isInf32 v
  if bad x.s || bad x.a || bad x.b then
    ([qnan32, qnan32, qnan32, x.n], { nanc := !isNan32 x.s && !isNan32 x.a && !isNan32 x.b })
  else
    let q := div32 x.a x.n
    let mean := add32 x.s q.1
    let t := fma32 (neg32 x.a) q.1 x.b
    let v := div32 t.1 x.n
    let var : W32 := if lt32 v.1 0 || (fv32 v.1).isZero then 0 else v.1
    let ms := div32 x.b x.n
    ([mean.1, var, ms.1, x.n], mergeEvs [q, mean, t, v, ms])

def Node.words (x : Node) : List W32 := [x.s, x.a, x.b, x.n]

end Sys2Proof.Machine
end

