-- ==== Sys2Proof/Machine/Array.lean ====
section
/-! DEFINITION. The matrix array's completed operations: what an `M.STREAM` or `M.GSTREAM` leaves in its bank, and what an
`M.DRAIN` writes (06_matrix_array.md, 07_convolution_resampling.md, 09_fused_chains.md). Issue checks stand in
Issue.lean; attention streams in Attention.lean. -/

namespace Sys2Proof.Machine

/-! ### Banks -/

def CoreState.bank (k : CoreState) (b : Bool) : Bank := if b then k.bankB else k.bankA

def CoreState.setBank (k : CoreState) (b : Bool) (x : Bank) : CoreState :=
  if b then { k with bankB := x } else { k with bankA := x }

/-- The cells of a canonical store from `a`, one by one. -/
def denseFrom {w : Nat} : Nat → Nat → Store w → List (BitVec w)
  | 0, _, _ => []
  | n + 1, a, [] => 0 :: denseFrom n (a + 1) []
  | n + 1, a, (b, v) :: r =>
    if b = a then v :: denseFrom n (a + 1) r else 0 :: denseFrom n (a + 1) ((b, v) :: r)

/-- Rows of a bank, as lists. -/
def bankRows (acc : Store 32) : List (List W32) :=
  let all := denseFrom 16384 0 acc
  (List.range 128).map (fun i => (all.drop (128 * i)).take 128)

/-- A bank's cells from its rows. -/
def rowsBank (rows : List (List W32)) : Store 32 := listed 0 rows.flatten

/-- The edition and the E4M3 mode of the context on a core (R118, R122): true for saturating. -/
def State.coreCtx (s : State) (core : Nat) : Ctx :=
  match (s.core core).ctx with
  | some c => s.ctx c.toNat
  | none => Ctx.closed

/-- Whether the address generators run reduced: self-test and recovery mode (R158). -/
def State.reduced (s : State) : Bool := s.entry 0x9000 1 == 1 || s.entry 0x9000 1 == 2

/-- A reduced walk's limits (R158). -/
def Walk.beyondReduced (w : Walk) : Bool :=
  4 < w.levels.length || (w.levels.zipIdx).any (fun p => (p.2 == 2 || p.2 == 3) && 7 < p.1.bound)

/-! ### Reading operand walks -/

/-- The checks of R90 and R158 that go before the walk's own side: reduced walks, lanes, K steps. -/
def arrayPre (red : Bool) (ag : Nat) (w : Walk) (lanes ksteps : Nat) (e : Elt) : Option WalkFault :=
  let d := w.side
  if red && w.beyondReduced then some (overflowAt 1 ag d.isMem (d.addr e.off) e.k)
  else if lanes ≤ e.idx.headD 0 ∨ ksteps ≤ e.k / w.lanes then some (overflowAt 2 ag d.isMem (d.addr e.off) e.k)
  else none

/-- A list cut into pieces of a length. -/
def pieces {α : Type} (n : Nat) : Nat → List α → List (List α)
  | 0, _ => []
  | k + 1, l => l.take n :: pieces n k (l.drop n)

/-- The elements read, by K step and lane, as numbers; none where invalid, or not read of a last K step. -/
def stepsOf (w : Walk) (out : List (Option (List Byte))) : List (List (Option Nat)) :=
  let n := max 1 w.lanes
  pieces w.lanes ((out.length + n - 1) / n) (out.reverse.map (Option.map ofBytes))

/-- One lane's elements. -/
def laneOf (steps : List (List (Option Nat))) (lane : Nat) : List (Option Nat) :=
  steps.map (fun s => s.getD lane none)

/-- K positions per K step of a stored format (R131). -/
def perStep (fmt : Nat) : Nat := if fmt = 4 then 2 else 1

/-- The codes of one lane by K position, or by stored value where `stored` says that each K step supplies one (R134):
MXFP4 holds two in a byte, the lower position in the lower half. (DEDUCED: log entry 82) -/
def laneCodes (stored : Bool) (fmt : Nat) (steps : List (List (Option Nat))) (lane : Nat) : List (Option Nat) :=
  if fmt = 4 then
    if stored then (laneOf steps lane).map (Option.map (· % 16))
    else (laneOf steps lane).flatMap (fun o => match o with
      | some b => [some (b % 16), some (b / 16)]
      | none => [none, none])
  else laneOf steps lane

/-- The E8M0 codes of one lane by block; what a scale walk does not supply is fed as zero bits.
(DEDUCED: log entry 35) -/
def laneScales (steps : List (List (Option Nat))) (lane : Nat) : List Nat :=
  (laneOf steps lane).map (fun o => o.getD 0)

/-- A widened element (R108): MX elements to BF16 take their block's scale. -/
def widened (src target scale : Nat) (code : Nat) : Fv × Ev :=
  let v := (elemFmt src).decode code
  if target = 5 ∧ 2 ≤ src ∧ src ≤ 4 then
    if scale = 0xFF then (.nan, {})
    else
      let r := bf16.convert .near true (v.scale ((scale : Int) - 127))
      (bf16.decode r.1, r.2)
  else (v, {})

/-- The values of one lane of an operand, by K position (R88, R196, R197), or by stored value of a sparse column, of
which 16 lie in each block of 32 positions (R133, R134). (DEDUCED: log entry 35) -/
def laneValues (isA : Bool) (c : Chain) (m : Menu) (sat4 : Bool) (ws : Store 8) (fmt target lane perBlock : Nat)
    (codes : List (Option Nat)) (scales : List Nat) : List (Fv × Ev) :=
  codes.zipIdx.map (fun p => match p.1 with
    | none => (zeroFv, {})
    | some code =>
      if isA && (m.pAct || m.pNorm) then c.prologueA m sat4 ws lane p.2 (elemFmt fmt) code
      else if m.pWiden && c.widenB != isA then widened fmt target (scales.getD (p.2 / perBlock) 0) code
      else ((elemFmt fmt).decode code, {}))

/-! ### Accumulating (R110, R113) -/

/-- Groups added to an accumulator in ascending order; `sc` gives the scale exponent of a group. -/
def addGroups (w : Nat) (sc : Nat → Option Int) (acc : W32 × Ev) (gs : List (List (Fv × Fv))) : W32 × Ev :=
  gs.zipIdx.foldl (fun a p => addEv a (groupOf w p.1 (sc p.2))) acc

/-- The groups of a dense dot product. -/
def denseGroups (g : Nat) (a b : List Fv) : List (List (Fv × Fv)) :=
  groupsOf g (a.zipIdx.map (fun p => (p.1, b.getD p.2 zeroFv))) a.length

/-- One group of four positions of a sparse column (R134, R135): the stored values at their positions, +0 elsewhere. -/
def fourOf (a : List Fv) (v0 v1 : Fv) (nibble : Nat) : List (Fv × Fv) :=
  let i0 := nibble % 4
  let i1 := nibble / 4
  (a.getD i0 zeroFv, v0) :: (a.getD i1 zeroFv, v1)
    :: ((List.range 4).filter (fun i => i != i0 && i != i1)).map (fun i => (a.getD i zeroFv, zeroFv))

/-- The groups of a sparse dot product: `b` holds the stored values in order, `meta` the bytes of the metadata walk. -/
def sparseGroups (g : Nat) (a b : List Fv) (metas : List (Option Nat)) : List (List (Fv × Fv)) :=
  let n4 := (a.length + 3) / 4
  let fours := (List.range n4).map (fun i =>
    let byte := (metas.getD (i / 2) none).getD 0
    fourOf ((a.drop (4 * i)).take 4) (b.getD (2 * i) zeroFv) (b.getD (2 * i + 1) zeroFv)
      (if i % 2 = 0 then byte % 16 else byte / 16))
  let per := g / 4
  (pieces per ((n4 + per - 1) / per) fours).map (fun fs =>
    fs.flatten ++ List.replicate (g - 4 * fs.length) (zeroFv, zeroFv))

/-- The scale exponent of block `i` (R110): none where either code is NaN. (DEDUCED: log entry 35) -/
def scaleExp (sa sb : List Nat) (i : Nat) : Option Int :=
  let a := sa.getD i 0
  let b := sb.getD i 0
  if a = 0xFF ∨ b = 0xFF then none else some (((a : Int) - 127) + ((b : Int) - 127))

/-! ### Streams outside attention mode (R126, R131 to R136, R150 to R152) -/

/-- The fill that limits a stream (R113): the bank's, or the largest of the active columns of an `M.GSTREAM`. -/
def Bank.fillOf (b : Bank) (col : Nat) : Nat := (tblFind b.colFill col).getD b.fill

def StreamJob.startFill (j : StreamJob) (b : Bank) : Nat :=
  if j.f.accClear then 0
  else match j.cols with
    | none => b.fill
    | some (c0, n) => (List.range n).foldl (fun m i => max m (b.fillOf (c0 + i))) 0

/-- One of a stream's walks as it is read: its place in the order of R136, its generator, the K positions from one of
its K steps to the next (two K steps share a position where `pair` holds), its checks beside its own side's. -/
structure Read where
  order : Nat
  ag : Nat
  walk : Walk
  unit : Nat
  pair : Bool
  pre : Elt → Option WalkFault
  fetch : Fetch

/-- The K steps of a walk that begin at a K position. -/
def Read.stepsAt (x : Read) (p : Nat) : List Nat :=
  if p % x.unit ≠ 0 then []
  else
    let q := p / x.unit
    (if x.pair then [2 * q, 2 * q + 1] else [q]).filter (fun n => n < x.walk.ksteps)

/-- The K steps that begin at a position are read, walk by walk; the walks stand still at the first fault. -/
def readsAt (r : Requester) (ws : Store 8) (p : Nat) : State → List Read → State × List Read × Option WalkFault
  | s, [] => (s, [], none)
  | s, x :: rest =>
    let f := (x.stepsAt p).foldl (fun (f : Fetch) q =>
      Fetch.run' r ws x.ag x.walk x.walk.side x.pre x.walk.lanes (q * x.walk.lanes) f) { x.fetch with state := s }
    match f.fault with
    | some e => (f.state, { x with fetch := f } :: rest, some e)
    | none =>
      let y := readsAt r ws p f.state rest
      (y.1, { x with fetch := f } :: y.2.1, y.2.2)

/-- The walks of a stream advance together, position by position (R89), up to the first fault: the earliest K step, and
in one K step the first walk in order (R136). The position of the fault is given with it. -/
def lockstep (r : Requester) (ws : Store 8) :
    Nat → Nat → State → List Read → State × List Read × Option (Nat × WalkFault)
  | 0, _, s, xs => (s, xs, none)
  | n + 1, p, s, xs =>
    let y := readsAt r ws p s xs
    match y.2.2 with
    | some f => (y.1, y.2.1, some (p, f))
    | none => lockstep r ws n (p + 1) y.1 y.2.1

/-- A stream as it was read: its walks, its K positions, its fault with the position, format codes after the prologue,
class. -/
structure StreamRead where
  state : State
  reads : List Read
  positions : Nat
  fault : Option (Nat × WalkFault)
  fmtA : Nat
  fmtB : Nat
  cls : Class

/-- The chain and its menu entry that a job copied. (DEDUCED: log entry 36) -/
def StreamJob.chain (j : StreamJob) : Chain := chainOf j.words
def StreamJob.menu (j : StreamJob) : Menu := (menuOf j.f.chain.toNat).getD {}

/-- The format codes of a stream's operands after its prologue. -/
def StreamJob.formats (j : StreamJob) : Nat × Nat :=
  (j.chain.fit j.menu j.f.fmtA.toNat j.f.fmtB.toNat).getD (j.f.fmtA.toNat, j.f.fmtB.toNat)

def StreamJob.cls (j : StreamJob) : Class := (Class.ofFmt j.formats.1).getD .fp8

/-- G of a stream (R106, R151). -/
def StreamJob.group (j : StreamJob) (edition : Nat) : Nat :=
  if j.cols.isSome then 1 else j.cls.group edition

/-- A stream's walks are read in step (R90, R136), a short walk stopping its partner at the K step that it cannot
supply. (DEDUCED: log entry 82) -/
def State.readStream (s : State) (core p edition : Nat) (j : StreamJob) : StreamRead :=
  let k := s.core core
  let red := s.reduced
  let ppa := perStep j.f.fmtA.toNat
  let na := j.a.2.ksteps
  let nb := j.b.2.ksteps
  let total := na * ppa
  let room := (chunkLen edition - j.startFill (k.bank j.f.bank)) / ppa
  let n4 := 2 * ((total + 3) / 4)
  let n8 := (total + 7) / 8
  let n32 := (total + 31) / 32
  -- A's K steps that a walk of `need` K steps, one for each `unit` positions, lets through
  let short (o : Option (Nat × Walk)) (need unit : Nat) : Nat :=
    match o with
    | none => na
    | some x => if x.2.ksteps < need then unit * x.2.ksteps / ppa else na
  let fromB := if j.f.sparse then (if nb < n4 then 4 * (nb / 2) / ppa else na) else nb
  let allowA := min (min room fromB) (min (min (short j.scaleA n32 32) (short j.scaleB n32 32))
    (short j.sparseMeta n8 8))
  let lanesB := match j.cols with
    | none => 128
    | some (_, n) => n
  let read (order : Nat) (x : Nat × Walk) (unit : Nat) (pair reduces : Bool) (lanes ksteps : Nat) : Read :=
    { order := order, ag := x.1, walk := x.2, unit := unit, pair := pair,
      pre := arrayPre (red && reduces) x.1 x.2 lanes ksteps, fetch := Fetch.start s }
  let part (o : Option (Nat × Walk)) (order unit need : Nat) (reduces : Bool) : List Read :=
    o.toList.map (fun x => read order x unit false reduces 128 need)
  let reads := read 0 j.a ppa false true 128 allowA
    :: read 1 j.b (if j.f.sparse then 4 else ppa) j.f.sparse true lanesB (if j.f.sparse then n4 else min na room)
    :: (part j.scaleA 2 32 n32 true ++ part j.scaleB 3 32 n32 true ++ part j.sparseMeta 4 8 n8 false)
  let y := lockstep (coreFor p core) k.ws (min total ((room + 1) * ppa) + 33) 0 s reads
  { state := y.1, reads := y.2.1, positions := total, fault := y.2.2, fmtA := j.formats.1, fmtB := j.formats.2,
    cls := j.cls }

/-- The K positions whose groups are complete: all of them, or those before the group in which a walk fails
(DEDUCED: log entry 34). -/
def StreamRead.complete (x : StreamRead) (g : Nat) : Nat :=
  match x.fault with
  | none => x.positions
  | some (p, _) => p / g * g

/-- The steps of the walk with an order number. -/
def StreamRead.steps (x : StreamRead) (order : Nat) : List (List (Option Nat)) :=
  match x.reads.find? (fun r => r.order == order) with
  | some r => stepsOf r.walk r.fetch.out
  | none => []

/-- What a stream adds: the rows of the bank after it, and the events. (DEDUCED: log entry 34) -/
def StreamRead.result (x : StreamRead) (j : StreamJob) (ws : Store 8) (sat4 : Bool) (edition : Nat) (old : Bank) :
    List (List W32) × Tally :=
  let c := j.chain
  let m := j.menu
  let sa := x.steps 2
  let sb := x.steps 3
  let rowVals := (List.range 128).map (fun i =>
    laneValues true c m sat4 ws j.f.fmtA.toNat x.fmtA i 32 (laneCodes false j.f.fmtA.toNat (x.steps 0) i)
      (laneScales sa i))
  let lanesB := match j.cols with
    | none => 128
    | some (_, n) => n
  let colVals := (List.range lanesB).map (fun n =>
    laneValues false c m sat4 ws j.f.fmtB.toNat x.fmtB n (if j.f.sparse then 16 else 32)
      (laneCodes j.f.sparse j.f.fmtB.toNat (x.steps 1) n) (laneScales sb n))
  let pre := Tally.ofEvs ((rowVals ++ colVals).flatMap (fun l => l.map Prod.snd))
  let g := j.group edition
  let w := discardDepth edition
  let rows := rowVals.map (fun l => (l.map Prod.fst).take (x.complete g))
  let cols := colVals.map (fun l => l.map Prod.fst)
  let metas := (List.range lanesB).map (laneOf (x.steps 4))
  let scs := (List.range 128).map (laneScales sb)
  let c0 := (j.cols.map Prod.fst).getD 0
  let cellOf (col : Nat) (row : List Fv) (sar : List Nat) (v : W32) : W32 × Ev :=
    if col < c0 ∨ c0 + lanesB ≤ col then (v, {})
    else
      let n := col - c0
      let start : W32 := if j.f.accClear then 0 else v
      let gs := if j.f.sparse then sparseGroups g row (cols.getD n []) (metas.getD n [])
                else denseGroups g row (cols.getD n [])
      let sc (q : Nat) : Option Int := if x.cls.isMx then scaleExp sar (scs.getD n []) q else some 0
      addGroups w sc (start, {}) gs
  let cells := (bankRows old.acc).zipIdx.map (fun r =>
    let row := rows.getD r.2 []
    let sar := laneScales sa r.2
    r.1.zipIdx.map (fun v => cellOf v.2 row sar v.1))
  (cells.map (fun r => r.map Prod.fst), pre.plus (Tally.ofEvs (cells.flatMap (fun r => r.map Prod.snd))))

/-- A number raised to the next multiple. -/
def raiseTo (g n : Nat) : Nat := (n + g - 1) / g * g

/-- A bank after a stream (R113, R151, R191, R220): contents, fill, recorded class and code.
(DEDUCED: log entry 36) -/
def Bank.streamed (b : Bank) (j : StreamJob) (rows : Option (List (List W32))) (positions edition : Nat) : Bank :=
  let g := j.group edition
  let acc := match rows with
    | some r => rowsBank r
    | none => if j.f.accClear && j.cols.isNone then [] else b.acc
  match j.cols with
  | none =>
    if j.f.accClear then
      { acc := acc, fill := raiseTo g positions, colFill := [], grouped := false, governed := true,
        cls := some j.cls, chain := j.f.chain.toNat, attn := none, scores := false }
    else { b with acc := acc, fill := raiseTo g (b.fill + positions), cls := b.cls <|> some j.cls }
  | some (c0, n) =>
    let acc := if rows.isNone && j.f.accClear then b.acc.filter (fun x => x.1 % 128 < c0 || c0 + n ≤ x.1 % 128)
               else acc
    let fills := (List.range n).foldl (fun (t : Tbl Nat) i =>
      tblPut t (c0 + i) ((if j.f.accClear then 0 else b.fillOf (c0 + i)) + positions)) b.colFill
    { b with
      acc := acc, colFill := fills, grouped := true
      cls := if j.f.accClear then some j.cls else b.cls <|> some j.cls
      chain := if j.f.accClear then j.f.chain.toNat else b.chain
      scores := b.scores && !j.f.accClear }

/-- A stream outside attention mode completes (R126, R129): its bank, its counters; or it faults, and what its walks
fed before the fault has taken effect (R92). (DEDUCED: log entry 34) -/
def State.runStream (s : State) (core : Nat) (j : StreamJob) : State × Option WalkFault :=
  let c := s.coreCtx core
  let p := polderOf (((s.core core).ctx.map BitVec.toNat).getD 0)
  let x := s.readStream core p c.mEd j
  let k := x.state.core core
  let b := k.bank j.f.bank
  let res := if x.positions = 0 then none else some (x.result j k.ws (!c.e4nan) c.mEd b)
  let b' := b.streamed j (res.map Prod.fst) (x.complete (j.group c.mEd)) c.mEd
  let s := x.state.setCore core (k.setBank j.f.bank b')
  let s := s.tally p ((res.map Prod.snd).getD {})
  match x.fault with
  | some (_, f) => (s, some f)
  | none =>
    let n := match j.cols with
      | none => 16384
      | some (_, n) => 128 * n
    let s := if j.cols.isNone then s.bump (coreIndex core 5) 1 1 else s.bump (coreIndex core 9) 2 1
    let s := s.bump (coreIndex core 5) 4 (n * x.positions)
    let s := if j.f.sparse then s.bump (coreIndex core 5) 9 1 else s
    (if j.menu.hasPrologue then s.bump (coreIndex core 11) 1 1 else s, none)

/-! ### Drains (R139, R142, R200 to R206, R218, R219) -/

/-- The bin of a drained value (R142). -/
def histBin (h : Int) (v : W32) : Nat :=
  match fv32 v with
  | .nan => 63
  | .inf _ => 62
  | .fin _ m e =>
    if m = 0 then 0
    else
      let ex : Int := (m.log2 : Int) + e
      if ex < -126 then 1
      else if ex < h then 2
      else min 61 (2 + ((ex - h) / 2).toNat)

/-- A visited element of a drain: ordinal, row, lane, address on its side, and validity. -/
structure Out where
  k : Nat
  row : Nat
  lane : Nat
  off : Int
  valid : Bool

/-- The check of R90 on an element of a drain's walk: `lanes` is 128, or 64 where a lane carries two columns. -/
def drainPre (ag : Nat) (w : Walk) (lanes : Nat) (e : Elt) : Option WalkFault :=
  let d := w.side
  if lanes ≤ e.idx.headD 0 ∨ 128 ≤ e.idx.getD 1 0 ∨ (e.idx.drop 2).any (fun i => i != 0) then
    some (overflowAt 2 ag d.isMem (d.addr e.off) e.k)
  else none

/-- The elements of an output walk up to its first fault of checks 1 to 4. -/
def outsFrom (ag : Nat) (w : Walk) (lanes : Nat) : Nat → Nat → List Out × Option WalkFault
  | 0, _ => ([], none)
  | n + 1, k =>
    let e := w.eltAt k
    let d := w.side
    if 2 ^ 40 ≤ k then ([], some (overflowAt 1 ag d.isMem (d.addr e.off) k))
    else match drainPre ag w lanes e with
      | some f => ([], some f)
      | none =>
        match (if e.valid then d.check w.size e.off else none) with
        | some res => ([], some (overflowAt res ag d.isMem (d.addr e.off) k))
        | none =>
          let r := outsFrom ag w lanes n (k + 1)
          ({ k := k, row := e.idx.getD 1 0, lane := e.idx.headD 0, off := e.off, valid := e.valid } :: r.1, r.2)

/-- The elements of the `q`-th bank row of an output walk, up to a number of lanes (R89, R139). -/
def rowElts (w : Walk) (lanes q : Nat) : List Out :=
  (List.range (min lanes w.lanes)).map (fun l =>
    let e := w.eltAt (q * w.lanes + l)
    { k := e.k, row := e.idx.getD 1 0, lane := e.idx.headD 0, off := e.off, valid := e.valid })

/-- A drained column of one element: the value before the final conversion and before the quantise scale (FP32), the
bank value or quotient that the histogram and the rounding see, the events so far. -/
structure Col where
  col : Nat
  seen : W32
  value : W32
  ev : Ev

/-- What a row of a drain produces: bytes by ordinal, the node, the scale codes, the events. -/
structure DrainRow where
  data : List (Nat × List Byte)
  node : Option (List Byte)
  scales : List (Nat × Nat)
  tally : Tally

/-- A job's chain and menu. -/
def DrainJob.chain (j : DrainJob) : Chain := chainOf j.words
def DrainJob.menu (j : DrainJob) : Menu := if j.attn then {} else (menuOf j.f.chain.toNat).getD {}

/-- The u of a drained element (R266). -/
def DrainJob.u (j : DrainJob) (g : RngState) (row col : Nat) (seen : W32) : Nat :=
  if j.chain.rnd = 2 then
    stochU g.seed g.step (g.dxbase + (g.dxrow.setWidth 64) * BitVec.ofNat 64 row + BitVec.ofNat 64 col) seen
  else 0

/-- The final conversion of an element, and the value that is stored, widened (R200, R201).
(DESIGN CHOICE: log entry 81) -/
def DrainJob.convert (j : DrainJob) (g : RngState) (sat4 : Bool) (row : Nat) (c : Col) : Nat × Ev :=
  let f := outFormat j.chain.outFmt
  let r := f.convert (rndOf j.chain.rnd (j.u g row c.col c.seen)) sat4 (j.chain.quantised j.menu c.value)
  (r.1, c.ev.merge r.2)

/-- The MX blocks of a row (R203): the scale code of each block that holds a valid column, and its element codes.
(DESIGN CHOICE: log entry 33) -/
def DrainJob.mxBlock (j : DrainJob) (g : RngState) (row q : Nat) (cols : List Col) : Nat × List (Nat × Ev) × Bool :=
  mxQuantise (outFormat j.chain.outFmt) j.chain.rnd ((List.range 32).map (fun i =>
    match cols.find? (fun c => c.col == 32 * q + i) with
    | some c => (c.value, j.u g row c.col c.seen)
    | none => (0, 0)))

/-- The bank columns that a valid element of a drain carries (R203). -/
def DrainJob.colsOf (j : DrainJob) (o : Out) : List Nat :=
  if j.chain.outFmt = 7 then [2 * o.lane, 2 * o.lane + 1] else [o.lane]

/-- One bank row drained: the elements of it that take effect, and all its columns with their values. Events are those
of elements that take effect; a node and scale codes go with a row that is drained whole (R92, R201 to R204).
(DESIGN CHOICE: log entry 33) -/
def DrainJob.row (j : DrainJob) (g : RngState) (sat4 : Bool) (row : Nat) (whole : Bool) (outs : List Out)
    (cols : List Col) : DrainRow :=
  let c := j.chain
  let mine := (outs.filter Out.valid).flatMap j.colsOf
  if 5 ≤ c.outFmt then
    let qs := (List.range 4).filter (fun q => cols.any (fun x => x.col / 32 == q))
    let blocks := qs.map (fun q => (q, j.mxBlock g row q cols))
    let codeOf (col : Nat) : Nat :=
      match blocks.find? (fun b => b.1 == col / 32) with
      | some b => (b.2.2.1.getD (col % 32) (0, {})).1
      | none => 0
    let data := outs.map (fun o =>
      if c.outFmt = 7 then (o.k, [BitVec.ofNat 8 (codeOf (2 * o.lane) + 16 * codeOf (2 * o.lane + 1))])
      else (o.k, [BitVec.ofNat 8 (codeOf o.lane)]))
    let evs := (cols.filter (fun x => mine.contains x.col)).map (fun x =>
      match blocks.find? (fun b => b.1 == x.col / 32) with
      | some b => x.ev.merge (b.2.2.1.getD (x.col % 32) (0, {})).2
      | none => x.ev)
    let clamps := (blocks.filter (fun b => b.2.2.2 && mine.any (fun col => col / 32 == b.1))).map
      (fun _ => ({ clamp := true } : Ev))
    { data := data, node := none, scales := if whole then blocks.map (fun b => (b.1, b.2.1)) else [],
      tally := Tally.ofEvs (evs ++ clamps) }
  else
    let f := outFormat c.outFmt
    let res := cols.map (fun x => (x.col, j.convert g sat4 row x))
    let data := outs.map (fun o => (o.k, toBytes (f.bits / 8) (((res.find? (fun r => r.1 == o.lane)).map
      (fun r => r.2.1)).getD 0)))
    let stored := res.map (fun r => widen f r.2.1)
    let node := if whole && j.menu.emit && !cols.isEmpty then some (nodeOf (stored.headD 0) stored) else none
    { data := data
      node := node.map (fun n => n.1.words.flatMap (fun w => toBytes 4 w.toNat))
      scales := []
      tally := Tally.ofEvs ((res.filter (fun r => mine.contains r.1)).map (fun r => r.2.2)
        ++ (node.map (fun n => [n.2])).getD []) }

/-- The quotient of R218. -/
def quotient (v l : W32) : W32 × Ev := if (fv32 l).isZero then (0, {}) else div32 v l

/-- The statistic of R219. -/
def rowStat (m l : W32) : W32 × Ev :=
  if isNan32 m || isNan32 l then (qnan32, {})
  else if (fv32 l).isZero then (0xFF800000#32, {})
  else
    let lg := log2Elem fp32 0 .near true l.toNat
    thenEv (BitVec.ofNat 32 lg.1, lg.2) (fun x => add32 m x)

/-- A drain as it goes on: the state, the collector of a memory walk, whether it goes on. -/
structure Draining where
  collect : Collect
  ws : Store 8
  fault : Option WalkFault

/-- The bytes of one element go where its walk puts them (R88). -/
def Draining.put (x : Draining) (r : Requester) (ag : Nat) (w : Walk) (o : Out) (bs : List Byte) : Draining :=
  match x.fault with
  | some _ => x
  | none =>
    if !o.valid then x
    else match w.side with
      | .ws b _ => { x with ws := putCells x.ws ((b : Int) + o.off).toNat bs }
      | .mem b _ =>
        let a := x.collect.write r ag o.k ((b.toNat : Int) + o.off) bs
        match a.2 with
        | some f => { x with collect := a.1, fault := some f }
        | none => { x with collect := a.1 }

/-- The elements of an output walk's memory or store, put with any bytes: where the walk stops (R90 to R93). -/
def State.outFault (s : State) (r : Requester) (ag : Nat) (w : Walk) (lanes : Nat) : Option WalkFault :=
  let outs := outsFrom ag w lanes (min w.count (2 ^ 40 + 1)) 0
  let start : Draining := { collect := Collect.start s, ws := [], fault := none }
  let x := outs.1.foldl (fun (d : Draining) o => d.put r ag w o (List.replicate w.size 0)) start
  x.fault <|> (outs.2 <|> (if w.space then (x.collect.finish r ag w.count).2 else none))

/-- One bank row of a drain: its number, the elements that take effect, its columns in ascending order, whether it is
drained whole, what it writes. -/
structure RowOut where
  row : Nat
  outs : List Out
  cols : List Col
  whole : Bool
  out : DrainRow

/-- The residual's values by bank row and column (R200). -/
def residuals (c : Chain) (f : Fetch) (w : Walk) : List ((Nat × Nat) × W32) :=
  f.out.reverse.zipIdx.filterMap (fun (b : Option (List Byte) × Nat) =>
    let e := w.eltAt b.2
    b.1.map (fun bs => ((e.idx.getD 1 0, e.idx.headD 0), widen (resFormat c.resFmt) (ofBytes bs))))

/-- A row of the attention state of a bank: m and l (R215). -/
def Bank.rowM (b : Bank) (i : Nat) : W32 := (b.attn.map (fun a => cell a.m i)).getD 0
def Bank.rowL (b : Bank) (i : Nat) : W32 := (b.attn.map (fun a => cell a.l i)).getD 0

/-- The column `col` of row `row` before the final conversion (R200, R218). -/
def DrainJob.colOf (j : DrainJob) (b : Bank) (ws : Store 8) (rhos : List ((Nat × Nat) × W32)) (row col : Nat) : Col :=
  let v := cell b.acc (128 * row + col)
  if j.attn then
    let q := quotient v (b.rowL row)
    { col := col, seen := q.1, value := q.1, ev := q.2 }
  else
    let rho := ((rhos.find? (fun x => x.1 == (row, col))).map Prod.snd).getD 0
    let e := j.chain.epilogue j.menu ws col rho v
    { col := col, seen := v, value := e.1, ev := e.2 }

/-- The rows of a drain whose first `n` elements take effect. (DESIGN CHOICE: log entry 33) -/
def DrainJob.rows (j : DrainJob) (g : RngState) (sat4 : Bool) (colOf : Nat → Nat → Col) (w : Walk) (lanes n : Nat) :
    List RowOut :=
  let per := max 1 w.lanes
  (List.range ((n + per - 1) / per)).map (fun q =>
    let all := rowElts w lanes q
    let row := (all.head?.map Out.row).getD 0
    let outs := all.filter (fun o => o.k < n)
    let cols := (all.filter Out.valid).flatMap (fun o => (j.colsOf o).map (colOf row))
    let sorted := sortBy (fun a b => a.col ≤ b.col) cols
    let whole := (q + 1) * per ≤ n
    { row := row, outs := outs, cols := sorted, whole := whole, out := j.row g sat4 row whole outs sorted })

/-- The nodes and scale codes of rows that were drained whole (R201 to R203). (DESIGN CHOICE: log entry 33) -/
def Chain.writeRows (c : Chain) (ws : Store 8) (rows : List RowOut) : Store 8 :=
  rows.foldl (fun (t : Store 8) (x : RowOut) =>
    let t := match x.out.node with
      | some bs => putCells t (64 * c.statLine + 16 * x.row) bs
      | none => t
    x.out.scales.foldl (fun (t : Store 8) (q : Nat × Nat) =>
      putCells t (64 * c.mxsLine + 4 * x.row + q.1) [BitVec.ofNat 8 q.2]) t) ws

/-- The capture line (R202). -/
def captureLine (vals : List W32) : List Byte :=
  let nans := (vals.filter isNan32).length
  let big := (vals.filter (fun v => !isNan32 v)).foldl (fun (a v : W32) => max32 a (v &&& 0x7FFFFFFF#32)) 0
  toBytes 4 big.toNat ++ toBytes 4 nans ++ List.replicate 56 0

/-- The statistics of the rows that an attention drain writes (R219). -/
def DrainJob.rowStats (j : DrainJob) (b : Bank) (rows : List RowOut) : List (Nat × (W32 × Ev)) :=
  if j.attn then (rows.filter (fun x => !x.cols.isEmpty)).map (fun x => (x.row, rowStat (b.rowM x.row) (b.rowL x.row)))
  else []

/-- The earlier of a residual's and an output's fault; the residual's at the same element (R200).
(DEDUCED: log entry 32) -/
def earlier (a b : Option WalkFault) : Option WalkFault :=
  match a, b with
  | some x, some y => if x.k ≤ y.k then some x else some y
  | some x, none => some x
  | none, y => y

/-- The counters of a drain that has completed (R144, R208, R228), and `EMPTY_OUTPUT` (R146). -/
def State.countDrain (s : State) (core : Nat) (j : DrainJob) (empty : Bool) : State :=
  let s := s.bump (coreIndex core 5) 2 1
  let s := if j.menu.hasEpilogue then s.bump (coreIndex core 11) 2 1 else s
  let s := if j.chain.mirror then s.bump (coreIndex core 11) 4 1 else s
  let s := if j.attn then s.bump (coreIndex core 12) 7 1 else s
  if empty then s.event (coreIndex core 8) 0 1 else s

/-- A drain completes, or it faults and its elements before the fault have taken effect (R92, R139, R142, R143, R146,
R200 to R203, R218, R219). The residual is visited element by element with the output. (DEDUCED: log entry 32)
(DESIGN CHOICE: log entry 33) -/
def State.runDrain (s : State) (core : Nat) (j : DrainJob) : State × Option WalkFault :=
  let sat4 := !(s.coreCtx core).e4nan
  let p := polderOf (((s.core core).ctx.map BitVec.toNat).getD 0)
  let r := coreFor p core
  let c := j.chain
  let m := j.menu
  let ag := j.out.1
  let w := j.out.2
  let lanes := if c.outFmt = 7 then 64 else 128
  let outStop := s.outFault r ag w lanes
  let met := match outStop with
    | some f => f.k + 1
    | none => w.count
  let rf : Option (Fetch × Walk) := j.res.map (fun x =>
    (Fetch.run' r (s.core core).ws x.1 x.2 x.2.side (drainPre x.1 x.2 128) (min (min x.2.count w.count) met) 0
      (Fetch.start s), x.2))
  let s := match rf with
    | some f => f.1.state
    | none => s
  let stop := earlier (rf.bind (fun f => f.1.fault)) outStop
  let n := match stop with
    | some f => min f.k w.count
    | none => w.count
  let rhos := match rf with
    | some f => residuals c f.1 f.2
    | none => []
  let k := s.core core
  let b := k.bank j.f.bank
  let rows := j.rows j.rng sat4 (j.colOf b k.ws rhos) w lanes n
  let start : Draining := { collect := Collect.start s, ws := k.ws, fault := none }
  let fin := (rows.flatMap (fun x => x.outs.zip x.out.data)).foldl
    (fun (d : Draining) (x : Out × (Nat × List Byte)) => d.put r ag w x.1 x.2.2) start
  let written := fin.collect.flush r
  let whole := rows.filter RowOut.whole
  let seen := rows.flatMap (fun x => (x.outs.filter Out.valid).flatMap (fun o =>
    x.cols.filter (fun y => (j.colsOf o).contains y.col)))
  let bins := (List.range 64).map (fun n => (seen.filter (fun x => histBin c.histBase x.seen == n)).length)
  let full := stop.isNone && n != 0
  let stats := j.rowStats b whole
  let ws := c.writeRows fin.ws whole
  let ws := if full && m.capture then putCells ws (64 * c.amaxLine) (captureLine (seen.map Col.value)) else ws
  let lse := bits (j.words.getD 7 0) 15 0
  let ws := stats.foldl (fun (t : Store 8) (x : Nat × (W32 × Ev)) =>
    putCells t (64 * lse + 4 * x.1) (toBytes 4 x.2.1.toNat)) ws
  let ws := if full && c.histWs then putCells ws (64 * c.histLine) (bins.flatMap (toBytes 4)) else ws
  let s := written.state.onCore core (fun k => { k with ws := ws })
  let s := bins.zipIdx.foldl (fun (s : State) (x : Nat × Nat) => s.bump (coreIndex core 6) (x.2 + 1) x.1) s
  let s := s.tally p ((rows.foldl (fun (t : Tally) (x : RowOut) => t.plus x.out.tally) {}).plus
    (Tally.ofEvs (stats.map (fun x => x.2.2))))
  let s := if c.rnd = 2 then s.bump (coreIndex core 14) 2 seen.length else s
  let s := s.bump (coreIndex core 11) 3 (whole.filter (fun x => x.out.node.isSome)).length
  match stop with
  | some f => (s, some f)
  | none => (s.countDrain core j (w.count == 0), none)

end Sys2Proof.Machine
end

