-- ==== Sys2Proof/Machine/Attention.lean ====
section
/-! DEFINITION. Attention mode (10_attention.md): the attention words, masks and skipped blocks, the pass over key blocks
and its faults. Its drain stands in Array.lean, its issue checks in Issue.lean. -/

namespace Sys2Proof.Machine

/-- The attention words' fields (R210). -/
structure AttnWords where
  headDim : Nat
  vhalf : Nat
  fmtV : Nat
  bitmapEn : Bool
  bitmapLine : Nat
  scale : W32
  qPos : Nat
  kPos : Nat
  winLo : Nat
  winHi : Nat
  kblocks : Nat
  keyCount : Nat
  lseLine : Nat

/-- The attention words of a job's copied words. -/
def attnWords (ws : List W64) : AttnWords :=
  let w (i : Nat) : W64 := ws.getD i 0
  { headDim := bits (w 4) 63 61, vhalf := bits (w 4) 60 60, fmtV := bits (w 4) 59 56, bitmapEn := (w 4).getLsbD 55,
    bitmapLine := bits (w 4) 54 39, scale := (w 4).setWidth 32, qPos := bits (w 5) 63 32, kPos := bits (w 5) 31 0,
    winLo := bits (w 6) 63 32, winHi := bits (w 6) 31 0, kblocks := bits (w 7) 63 48, keyCount := bits (w 7) 47 16,
    lseLine := bits (w 7) 15 0 }

/-- Lines of the block bitmap (R213). -/
def AttnWords.bitmapLines (a : AttnWords) : Nat := (a.kblocks + 511) / 512

/-- Whether a field of words 1 or 4 that a stream uses is undefined or out of range (R211). -/
def AttnWords.undefinedField (a : AttnWords) : Bool :=
  4 ≤ a.headDim || (a.vhalf == 1 && a.headDim ≤ 1) || a.kblocks == 0
    || a.keyCount ≤ 128 * (a.kblocks - 1) || 128 * a.kblocks < a.keyCount

/-- d. -/
def AttnWords.d (a : AttnWords) : Nat := dimOf a.headDim

/-! ### Masks (R213, R214) -/

/-- Whether the bitmap allows key block `j`. -/
def AttnWords.blockBit (a : AttnWords) (ws : Store 8) (j : Nat) : Bool :=
  !a.bitmapEn || (cell ws (64 * a.bitmapLine + j / 8)).getLsbD (j % 8)

/-- Whether the pair of query row i and key r is allowed, the bitmap apart. -/
def AttnWords.pairOk (a : AttnWords) (i r : Nat) : Bool :=
  r < a.keyCount
    && (a.winLo == 0xFFFFFFFF || a.qPos + i ≤ a.kPos + r + a.winLo)
    && (a.winHi == 0xFFFFFFFF || a.kPos + r ≤ a.qPos + i + a.winHi)

/-- Whether key block `j` is processed: some pair of it is allowed. -/
def AttnWords.processed (a : AttnWords) (ws : Store 8) (j : Nat) : Bool :=
  a.blockBit ws j && (List.range 128).any (fun i => (List.range 128).any (fun r => a.pairOk i (128 * j + r)))

/-! ### The pass (R215) -/

/-- P's format (R215). -/
def pFormat : Class → Fmt
  | .bf16 => bf16
  | .fp16 => fp16
  | _ => e4m3

/-- One row's attention state, with row i of bank B and the events of its state and of its cells. -/
structure RowState where
  m : W32
  l : W32
  b : List (W32 × Ev)
  rescaled : Bool

/-- One key block on one row: `ok` says which keys are allowed, `s` their scores, `v` the key block's V by column.
(DEDUCED: log entry 38) -/
def RowState.block (x : RowState) (cls : Class) (edition : Nat) (c : W32) (ok : List Bool) (s : List W32)
    (v : List (List Fv)) : RowState × List Ev :=
  let ninf : W32 := 0xFF800000#32
  let t := (ok.zip s).map (fun p => if p.1 then mul32 p.2 c else (ninf, {}))
  let bm := (t.map Prod.fst).foldl max32 ninf
  let mn := max32 x.m bm
  if mn = ninf then (x, t.map Prod.snd)
  else
    let alpha : W32 × Ev :=
      if x.m = ninf then (0, {})
      else if (fv32 mn).eq (fv32 x.m) then (0x3F800000#32, {})
      else
        let d := sub32 x.m mn
        let e := exp2Short bf16 d.1
        (widen bf16 e.1, d.2.merge e.2)
    let f := pFormat cls
    let p : List (Option Fv × Ev) := (ok.zip t).map (fun q =>
      if q.1 then
        let d := sub32 q.2.1 mn
        let e := exp2Short f d.1
        (some (f.decode e.1), (q.2.2.merge d.2).merge e.2)
      else (none, {}))
    let leaf : List W32 := p.map (fun q => match q.1 with
      | some w => BitVec.ofNat 32 (fp32.write .near true w).1
      | none => 0)
    let rs := meridianTree leaf
    let sc := mul32 x.l alpha.1
    let l := add32 sc.1 rs.1
    let g := cls.group edition
    let w := discardDepth edition
    let b := x.b.zipIdx.map (fun q =>
      let start := thenEv q.1 (fun y => mul32 y alpha.1)
      let col := v.getD q.2 []
      let pairs := p.zipIdx.map (fun y => match y.1.1 with
        | some pv => (pv, col.getD y.2 zeroFv)
        | none => (zeroFv, zeroFv))
      addGroups w (fun _ => some 0) start (pieces g (128 / g) pairs))
    ({ m := mn, l := l.1, b := b,
       rescaled := !isNan32 x.m && !isInf32 x.m && alpha.1 != 0x3F800000#32 },
      ((((alpha.2.merge rs.2).merge sc.2).merge l.2) :: p.map Prod.snd))

/-- The scores of one query row against the keys of a block (R117). -/
def scoreRow (cls : Class) (edition : Nat) (q : List Fv) (keys : List (List Fv)) : List (W32 × Ev) :=
  keys.map (fun k => addGroups (discardDepth edition) (fun _ => some 0) (0, {}) (denseGroups (cls.group edition) q k))

/-! ### Reading a block (R212) -/

/-- A stretch of a walk's elements, read from a fetch that goes on; its own elements are the last `n` of `out`. -/
def stretch (f : Fetch) (s : State) (r : Requester) (ws : Store 8) (ag : Nat) (w : Walk)
    (pre : Elt → Option WalkFault) (k n : Nat) : Fetch :=
  Fetch.run' r ws ag w w.side pre n k { f with state := s, out := [] }

/-- A walk that the pass reads as it goes. -/
structure Feed where
  ag : Nat
  walk : Walk
  fetch : Fetch

/-- What the pass has done so far: the blocks to come are taken in order. -/
structure Pass where
  state : State
  q : Feed
  k : Feed
  v : Feed
  rows : List RowState
  scores : Option (List (List W32))
  tally : Tally
  processed : Nat
  rescales : Nat
  held : Option (Nat × List (List (W32 × Ev)))
  fault : Option WalkFault

/-- Check 2 of R90 at a walk's element of K step `q`, whether or not the element is read. -/
def Feed.stopAt (f : Feed) (q : Nat) : WalkFault :=
  let k := q * f.walk.lanes
  overflowAt 2 f.ag f.walk.side.isMem (f.walk.side.addr (f.walk.eltAt k).off) k

/-- Check 2 of R90 of a walk that ends early and has no partner that begins the K step it lacks: the address of the last
element that it supplied, or its base (R212; DESIGN CHOICE: log entry 83 where the walk is Q).
(DEDUCED: log entry 83) -/
def Feed.spent (f : Feed) : WalkFault :=
  let n := f.walk.ksteps * f.walk.lanes
  overflowAt 2 f.ag f.walk.side.isMem (f.walk.side.addr (if n = 0 then 0 else (f.walk.eltAt (n - 1)).off)) n

/-- Q and K of a block end early at one K step (R212). (DEDUCED: log entry 83) -/
def Pass.bothEnd (x : Pass) (d j : Nat) : Option WalkFault :=
  let nq := x.q.walk.ksteps
  if nq < d && x.k.walk.ksteps == j * d + nq then some x.q.spent else none

/-- S of a block is formed (R212): Q is walked again from its start, K goes on. Q is reported before K. -/
def Pass.takeS (x : Pass) (r : Requester) (ws : Store 8) (red : Bool) (a : AttnWords) (cls : Class) (edition : Nat)
    (fa fb : Nat) (last : Bool) (j : Nat) : Pass :=
  let d := a.d
  let nq := x.q.walk.ksteps
  let nk := x.k.walk.ksteps
  let qf := stretch (Fetch.start x.state) x.state r ws x.q.ag x.q.walk
    (arrayPre red x.q.ag x.q.walk 128 (min d (nk - j * d))) 0 (min x.q.walk.count ((d + 1) * x.q.walk.lanes))
  let kn := if last then nk - j * d else min d (nk - j * d)
  let kn := match qf.fault with
    | some f => min kn (f.k / max 1 x.q.walk.lanes)
    | none => kn
  let kf := stretch x.k.fetch qf.state r ws x.k.ag x.k.walk
    (arrayPre red x.k.ag x.k.walk 128 (j * d + min d nq)) (j * d * x.k.walk.lanes)
    (kn * x.k.walk.lanes)
  let y := { x with state := kf.state, k := { x.k with fetch := kf } }
  match qf.fault <|> (kf.fault <|> x.bothEnd d j) with
  | some f => { y with fault := some f }
  | none =>
    let qs := stepsOf x.q.walk qf.out
    let ks := stepsOf x.k.walk kf.out
    let vals (fmt : Nat) (steps : List (List (Option Nat))) (i : Nat) : List Fv :=
      (laneOf steps i).map (fun o => match o with
        | some c => (elemFmt fmt).decode c
        | none => zeroFv)
    let keys := (List.range 128).map (vals fb ks)
    { y with held := some (j, (List.range 128).map (fun i => scoreRow cls edition (vals fa qs i) keys)) }

/-- P·V of the block whose scores are held (R215). (DEDUCED: log entry 38) -/
def Pass.takePV (x : Pass) (r : Requester) (ws : Store 8) (a : AttnWords) (cls : Class) (edition : Nat)
    (j : Nat) (s : List (List (W32 × Ev))) (last : Bool) : Pass :=
  let nv := x.v.walk.ksteps
  let lanes := x.v.walk.lanes
  let vn := if last then nv - j * 128 else min 128 (nv - j * 128)
  let vf := stretch x.v.fetch x.state r ws x.v.ag x.v.walk
    (arrayPre false x.v.ag x.v.walk 128 (a.kblocks * 128)) (j * 128 * lanes) (vn * lanes)
  let x := { x with state := vf.state, v := { x.v with fetch := vf } }
  match vf.fault with
  | some f => { x with fault := some f }
  | none =>
    if nv < (j + 1) * 128 then { x with fault := some x.v.spent }
    else
      let vs := stepsOf x.v.walk vf.out
      let w := min 128 (a.d - 128 * a.vhalf)
      let cols := (List.range 128).map (fun col =>
        if w ≤ col then List.replicate 128 zeroFv
        else (laneOf (vs.take 128) col).map (fun o => match o with
          | some c => (elemFmt a.fmtV).decode c
          | none => zeroFv))
      let done := (x.rows.zip s).zipIdx.map (fun p =>
        let ok := (List.range 128).map (fun n => a.blockBit ws j && a.pairOk p.2 (128 * j + n))
        p.1.1.block cls edition a.scale ok (p.1.2.map Prod.fst) cols)
      let rose := done.any (fun y => y.1.rescaled)
      { x with
        rows := done.map (fun y => { y.1 with rescaled := false })
        scores := some (s.map (fun row => row.map Prod.fst))
        tally := (x.tally.plus (Tally.ofEvs (s.flatMap (fun row => row.map Prod.snd)))).plus
          (Tally.ofEvs (done.flatMap Prod.snd))
        processed := x.processed + 1
        rescales := x.rescales + (if rose then 1 else 0) }

/-- One processed block at its turn: S of it, then P·V of the block before it (R224). -/
def Pass.step (x : Pass) (r : Requester) (ws : Store 8) (red : Bool) (a : AttnWords) (cls : Class) (edition : Nat)
    (fa fb : Nat) (last : Bool) (j : Nat) : Pass :=
  let before := x.held
  let y := x.takeS r ws red a cls edition fa fb last j
  match y.fault, before with
  | none, some b => y.takePV r ws a cls edition b.1 b.2 false
  | _, _ => y

/-- A skipped block (R214): its walks pass it as if it had been visited, so a K walk that ends in it stops the pass at
Q's element of the K step that it lacks (R212). (DEDUCED: log entry 83) -/
def Pass.skip (x : Pass) (d j : Nat) : Pass :=
  let nk := x.k.walk.ksteps
  if nk < (j + 1) * d then
    { x with fault := some (if x.q.walk.ksteps ≤ nk - j * d then x.q.spent else x.q.stopAt (nk - j * d)) }
  else x

/-- The key blocks in ascending order, each processed or skipped, up to the first fault. -/
def Pass.block (x : Pass) (r : Requester) (ws : Store 8) (red : Bool) (a : AttnWords) (cls : Class) (edition : Nat)
    (fa fb : Nat) (j : Nat) : Pass :=
  if x.fault.isSome then x
  else if a.processed ws j then x.step r ws red a cls edition fa fb (j + 1 == a.kblocks) j
  else x.skip a.d j

/-- A walk that begins a K step beyond its count although no block needs it (R212). -/
def Feed.overlong (f : Feed) (steps : Nat) : Option WalkFault :=
  if steps < f.walk.ksteps then some (f.stopAt steps) else none

/-- After the last block: its P·V, then the walks' ends that no processed block has met (R212). -/
def Pass.finish (x : Pass) (r : Requester) (ws : Store 8) (a : AttnWords) (cls : Class) (edition : Nat) : Pass :=
  let y := match x.fault, x.held with
    | none, some b => x.takePV r ws a cls edition b.1 b.2 (b.1 + 1 == a.kblocks)
    | _, _ => x
  let short := if y.v.walk.ksteps < a.kblocks * 128 then some y.v.spent else none
  { y with fault := y.fault <|> (y.k.overlong (a.kblocks * a.d) <|> (short <|> y.v.overlong (a.kblocks * 128))) }

/-- The banks and the events that a pass has come to (R215, R220); events of a bank element count once a stream. -/
def Pass.leave (x : Pass) (core p : Nat) (a : AttnWords) (cls : Class) : State :=
  let lists (f : RowState → W32) : Store 32 := listed 0 (x.rows.map f)
  let bankB : Bank :=
    { acc := rowsBank (x.rows.map (fun y => y.b.map Prod.fst)), fill := 0, colFill := [], grouped := false,
      governed := true, cls := some cls, chain := 0,
      attn := some { d := a.d, cls := cls, vhalf := a.vhalf, m := lists RowState.m, l := lists RowState.l },
      scores := false }
  let s := x.state.onCore core (fun k => { k with
    bankA := { Bank.reset with
      acc := match x.scores with
        | some rows => rowsBank rows
        | none => k.bankA.acc
      governed := true, scores := true }
    bankB := bankB })
  s.tally p (x.tally.plus (Tally.ofEvs (x.rows.flatMap (fun y => y.b.map Prod.snd))))

/-- An attention stream completes (R215 to R221): bank A holds S, bank B the attention state; or it faults, and the
blocks before the fault have taken effect (R92). (DEDUCED: log entry 38) -/
def State.runAttn (s : State) (core : Nat) (j : StreamJob) : State × Option WalkFault :=
  let cx := s.coreCtx core
  let p := polderOf (((s.core core).ctx.map BitVec.toNat).getD 0)
  let r := coreFor p core
  let a := attnWords j.words
  let k := s.core core
  let cls := (Class.ofFmt j.f.fmtA.toNat).getD .bf16
  let old := k.bankB
  let rows0 : List RowState := (List.range 128).map (fun i =>
    if j.f.accClear then { m := 0xFF800000#32, l := 0, b := List.replicate 128 (0, {}), rescaled := false }
    else { m := old.rowM i, l := old.rowL i,
           b := ((bankRows old.acc).getD i []).map (fun v => (v, {})), rescaled := false })
  let v := j.v.getD j.a
  let start : Pass :=
    { state := s, q := ⟨j.a.1, j.a.2, Fetch.start s⟩, k := ⟨j.b.1, j.b.2, Fetch.start s⟩,
      v := ⟨v.1, v.2, Fetch.start s⟩, rows := rows0, scores := none, tally := {}, processed := 0, rescales := 0,
      held := none, fault := none }
  let x := (List.range a.kblocks).foldl (fun (x : Pass) n =>
    x.block r k.ws s.reduced a cls cx.mEd j.f.fmtA.toNat j.f.fmtB.toNat n) start
  let x := x.finish r k.ws a cls cx.mEd
  let s := x.leave core p a cls
  match x.fault with
  | some f => (s, some f)
  | none =>
    let s := (s.bump (coreIndex core 5) 1 1).bump (coreIndex core 5) 4 (16384 * (a.d + 128) * x.processed)
    let s := (s.bump (coreIndex core 12) 1 1).bump (coreIndex core 12) 2 x.processed
    ((s.bump (coreIndex core 12) 3 (a.kblocks - x.processed)).bump (coreIndex core 12) 4 x.rescales, none)

end Sys2Proof.Machine
end

