-- ==== Sys2Proof/Machine/KvCache.lean ====
section
/-! DEFINITION. The operations of the key-value cache (11_kv_sequences.md R234 to R246): what the cache home does for
`X.SEQ`, `A.KVLOAD` and `A.KVAPPEND`. Each checks completely before it changes anything (R244). -/

namespace Sys2Proof.Machine

/-! ### Causes (R244) -/

/-- A fault of the home: its code, cause, sequence, and the offending position, layer or length where the cause has
one. -/
structure KvFault where
  code : Nat
  cause : Nat
  seq : Nat
  low : Option Nat

/-- `DETAIL` of R244; [31:0] is a free value where the cause has no position, layer or length.
(DESIGN CHOICE: log entry 24) (DEDUCED: log entry 47) -/
def State.kvDetail (s : State) (f : KvFault) : W64 :=
  let open32 : W32 := s.freeVal 32
  BitVec.ofNat 64 (f.cause * 2 ^ 56 + f.seq * 2 ^ 40 + (match f.low with
    | some x => x % 2 ^ 32
    | none => open32.toNat))

/-- A fault of the cache is noted: `SEQ_FAULT`, and `POOL_EMPTY` for a stack too short (R247). -/
def State.kvFault (s : State) (p : Nat) (f : KvFault) : State × Option (Nat × W64) :=
  let d := s.kvDetail f
  let s := if f.low.isNone then s.usedFree else s
  let s := s.event (0x7030 + p) 2 1
  (if f.code = faultPage ∧ f.cause = 2 then s.event (0x7030 + p) 0 1 else s, some (f.code, d))

def seqLimit (cause q : Nat) (low : Option Nat) : Option KvFault :=
  some { code := faultSequence, cause := cause, seq := q, low := low }

/-- The first of several causes that holds. (DEDUCED: log entry 46) -/
def firstCause : List (Bool × KvFault) → Option KvFault
  | [] => none
  | (c, f) :: r => if c then some f else firstCause r

/-! ### Page tables -/

/-- `PT_STRIDE` of a maximum length (R232). (DEDUCED: log entry 48) -/
def strideOf (maxLen : Nat) : Nat := 8 * ((maxLen + 127) / 128)

/-- Whether a page table lies in the arena, aligned (R244 cause 0x08). -/
def CacheCfg.tableFits (c : CacheCfg) (ptBase : W64) (maxLen : Nat) : Bool :=
  ptBase.toNat % 64 == 0 && c.arenaBase.toNat ≤ ptBase.toNat
    && ptBase.toNat + c.layers * strideOf maxLen * 8 ≤ c.arenaBase.toNat + c.arenaBytes

/-- The entries of a sequence's table, as (layer, page index). -/
def CacheCfg.entriesOf (c : CacheCfg) (e : SeqEntry) : List (Nat × Nat) :=
  (List.range c.layers).flatMap (fun l => (List.range e.stride).map (fun i => (l, i)))

/-- One entry is invalidated, and its page's `REFS` lowered (R236). -/
def Home.invalidate (h : Home) (a : W64) : Home :=
  let h := h.fetch a
  match h.ptEntry a with
  | none => h
  | some n => (h.setPtEntry a none).dropRef n

/-! ### X.SEQ (R236) -/

/-- The words of a new sequence: q, `MAX_LEN`. -/
def seqNum (a : W64) : Nat := bits a 15 0
def seqMax (a : W64) : Nat := bits a 47 16

/-- The sequences whose entries an `X.SEQ` reads, those that the table holds. -/
def SeqReq.seqs (r : SeqReq) (c : CacheCfg) : List Nat :=
  (seqNum r.a :: (if r.fn = 1 then [r.src] else [])).filter (fun q => q < c.seqCount)

/-- What the home finds wrong with an `X.SEQ` whose entries it has read (R244). (DEDUCED: log entry 46) -/
def Home.seqCheck (h : Home) (r : SeqReq) : Option KvFault :=
  let c := h.cfg
  let q := seqNum r.a
  let m := seqMax r.a
  let e := h.seqEntry q
  let x := h.seqEntry r.src
  let lim (cause n : Nat) (low : Option Nat) : KvFault := { code := faultSequence, cause := cause, seq := n, low := low }
  match r.fn with
  | 0 => firstCause [(c.seqCount ≤ q, lim 1 q none), (e.isOpen, lim 3 q none),
      (!c.tableFits r.b m, lim 8 q none)]
  | 1 => firstCause [(c.seqCount ≤ q, lim 1 q none), (c.seqCount ≤ r.src, lim 1 r.src none),
      (!x.isOpen, lim 2 r.src none), (e.isOpen, lim 3 q none), (m < x.length, lim 7 q (some m)),
      (!c.tableFits r.b m, lim 8 q none)]
  | 3 => firstCause [(c.seqCount ≤ q, lim 1 q none), (!e.isOpen, lim 2 q none),
      (e.maxLen < r.b.toNat, lim 7 q (some r.b.toNat))]
  | _ => firstCause [(c.seqCount ≤ q, lim 1 q none), (!e.isOpen, lim 2 q none)]

/-- A new sequence's entry with an empty page table, whose words are written whole. (DEDUCED: log entry 48) -/
def Home.newSeq (h : Home) (r : SeqReq) (length : Nat) : Home :=
  let e : SeqEntry := { isOpen := true, maxLen := seqMax r.a, length := length, stride := strideOf (seqMax r.a),
                        ptBase := r.b }
  let h := h.setSeqEntry (seqNum r.a) e
  let h := (List.range (h.cfg.layers * e.stride / 8)).foldl (fun (h : Home) i =>
    h.put (r.b + BitVec.ofNat 64 (64 * i)) (List.replicate 64 0)) h
  { h with opened := h.opened + 1 }

/-- What an accepted `X.SEQ` does. -/
def Home.seqDo (h : Home) (r : SeqReq) : Home :=
  let c := h.cfg
  let q := seqNum r.a
  let e := h.seqEntry q
  match r.fn with
  | 0 => h.newSeq r 0
  | 1 =>
    let x := h.seqEntry r.src
    let n : SeqEntry := { e with stride := strideOf (seqMax r.a), ptBase := r.b }
    let from' := (c.entriesOf x).filter (fun y => y.2 < (x.length + 15) / 16)
    let h := h.fetchAll (from'.map (fun y => x.ptAddr y.1 y.2))
    let pages := from'.map (fun y => (y, h.ptEntry (x.ptAddr y.1 y.2)))
    pages.foldl (fun (h : Home) y =>
      match y.2 with
      | none => h
      | some g => (h.setPtEntry (n.ptAddr y.1.1 y.1.2) (some g)).addRef g) (h.newSeq r x.length)
  | 2 =>
    let h := (c.entriesOf e).foldl (fun (h : Home) y => h.invalidate (e.ptAddr y.1 y.2)) h
    { h.setSeqEntry q { e with isOpen := false } with opened := h.opened - 1 }
  | 3 =>
    let n := r.b.toNat
    let h := if n < e.length then
        ((c.entriesOf e).filter (fun y => n ≤ 16 * y.2)).foldl (fun (h : Home) y => h.invalidate (e.ptAddr y.1 y.2)) h
      else h
    h.setSeqEntry q { e with length := n }
  | _ => h

/-- The value that g[`G_DST`] receives: the length before the operation, 0 for OPEN and FORK. -/
def Home.seqValue (h : Home) (r : SeqReq) : W64 :=
  if r.fn = 0 ∨ r.fn = 1 then 0 else BitVec.ofNat 64 (h.seqEntry (seqNum r.a)).length

/-- What an operation of the home comes to: the state, the value it returns, and the fault it raises. -/
structure Served where
  state : State
  value : W64
  fault : Option (Nat × W64)

/-- The home with the entries that an `X.SEQ` needs. -/
def State.seqHome (s : State) (p : Nat) (r : SeqReq) : Home :=
  (s.home p).fetchAll ((r.seqs (s.cacheCfg p)).map (s.cacheCfg p).seqAddr)

/-- The home serves an `X.SEQ`: a poisoned word that it needs stops it before it changes anything (R244, R245, R310).
(DEDUCED: log entry 46) -/
def State.serveSeq (s : State) (p : Nat) (r : SeqReq) : Served :=
  let h := s.seqHome p r
  match h.poison, h.seqCheck r with
  | some a, _ => { state := h.state, value := 0, fault := some (faultUncorrectable, a) }
  | none, some f =>
    let x := h.state.kvFault p f
    { state := x.1, value := 0, fault := x.2 }
  | none, none =>
    let d := h.seqDo r
    { state := d.close, value := h.seqValue r, fault := d.poison.map (fun a => (faultUncorrectable, a)) }

/-! ### Loads and appends (R237 to R241) -/

/-- The positions of a job. -/
def KvJob.positions (j : KvJob) : List Nat := (List.range j.f.count.toNat).map (fun i => j.pos + i)

/-- The parts named by `PARTS`: 0 for K, 1 for V. -/
def KvJob.parts (j : KvJob) : List Nat :=
  match j.f.parts.toNat with
  | 1 => [0]
  | 2 => [1]
  | _ => [0, 1]

/-- The page indices that a range of positions covers, each with the first position it serves. -/
def KvJob.span (j : KvJob) (below : Nat) : List (Nat × Nat) :=
  let hi := min (j.pos + j.f.count.toNat) below
  if hi ≤ j.pos then []
  else (List.range ((hi - 1) / 16 + 1 - j.pos / 16)).map (fun d => (j.pos / 16 + d, max j.pos (16 * (j.pos / 16 + d))))

/-- The byte address of a token row in a page (R229). -/
def CacheCfg.rowAddr (c : CacheCfg) (page part head token : Nat) : W64 :=
  c.poolBase + BitVec.ofNat 64 (page * c.pageBytes + ((part * c.heads + head) * 16 + token) * c.rowBytes)

/-- The rows of a job in image order, as (part, head, position, first working-store byte) (R238). -/
def KvJob.rows (j : KvJob) (c : CacheCfg) (line : Nat) : List (Nat × Nat × Nat × Nat) :=
  let hc := j.f.headCount.toNat
  let n := j.f.count.toNat
  (j.parts.zipIdx).flatMap (fun x => (List.range hc).flatMap (fun h => (List.range n).map (fun i =>
    (x.1, j.f.headFirst.toNat + h, j.pos + i, 64 * line + ((x.2 * hc + h) * n + i) * c.rowBytes))))

/-- Lines of a job's image (R238). -/
def KvJob.lines (j : KvJob) (c : CacheCfg) : Nat :=
  j.parts.length * j.f.headCount.toNat * j.f.count.toNat * (c.rowBytes / 64)

/-- What the home finds wrong with a job's sequence, positions and layer (R244); `append` adds the check against
`LENGTH`. -/
def Home.kvCheck (h : Home) (j : KvJob) (append : Bool) : Option KvFault :=
  let c := h.cfg
  let e := h.seqEntry j.seq
  let lim (cause : Nat) (low : Option Nat) : KvFault := { code := faultSequence, cause := cause, seq := j.seq, low := low }
  firstCause [(c.seqCount ≤ j.seq, lim 1 none), (!e.isOpen, lim 2 none),
    (e.maxLen < j.pos + j.f.count.toNat, lim 4 (some (max j.pos e.maxLen))),
    (append && j.pos < e.length, lim 5 (some j.pos)), (c.layers ≤ j.layer, lim 6 (some j.layer))]

/-- The home with a job's sequence entry. -/
def State.kvHome (s : State) (p : Nat) (j : KvJob) : Home :=
  if j.seq < (s.cacheCfg p).seqCount then (s.home p).fetch ((s.cacheCfg p).seqAddr j.seq) else s.home p

/-- What the translation of a job comes to: the state, the job as translated, and the fault it raises. -/
structure Translated where
  state : State
  job : KvJob
  fault : Option (Nat × W64)

/-- A job that faults in the home's checks changes nothing more. -/
def Home.refuse (h : Home) (j : KvJob) (f : KvFault) : Translated :=
  let x := h.state.kvFault h.polder f
  { state := x.1, job := j, fault := x.2 }

/-- The state of the core that holds a rank of a context, and its number (R329). -/
def State.rankCore (s : State) (ctx rank : Nat) : Option (Nat × CoreState) :=
  let c := s.ctx ctx
  match c.cores[rank]? with
  | none => none
  | some n =>
    if c.images.isEmpty then (if (s.core n).ctx = some (BitVec.ofNat 12 ctx) then some (n, s.core n) else none)
    else (c.images[rank]?).map (fun k => (n, k))

/-- The rows of a load are gathered in order until a poisoned word stops it (R239, R310). -/
def State.gather (s : State) (r : Requester) (c : CacheCfg) (j : KvJob) (snapshot : Nat)
    (put : Nat → List Byte → State → State) : List (Nat × Nat × Nat × Nat) → State × Option (Nat × W64)
  | [] => (s, none)
  | x :: rest =>
    let pos := x.2.2.1
    if pos < snapshot then
      match tblFind j.pages (pos / 16) with
      | none => (s, none)
      | some n =>
        let b := s.readView r (c.rowAddr n x.1 x.2.1 (pos % 16)) c.rowBytes
        match b.poison with
        | some a => (b.state, some (faultUncorrectable, a))
        | none => State.gather (put x.2.2.2 b.data b.state) r c j snapshot put rest
    else State.gather (put x.2.2.2 (List.replicate c.rowBytes 0) s) r c j snapshot put rest

/-- `A.KVLOAD` at the home (R239): checks, snapshot, pins, and the image. -/
def State.kvLoad (s : State) (core p : Nat) (x : KvReq) (j : KvJob) : Translated :=
  let c := s.cacheCfg p
  let h := s.kvHome p j
  match h.poison, h.kvCheck j false with
  | some a, _ => { state := h.state, job := j, fault := some (faultUncorrectable, a) }
  | none, some f => h.refuse j f
  | none, none =>
    let e := h.seqEntry j.seq
    let idx := j.span e.length
    let h := h.fetchAll (idx.map (fun y => e.ptAddr j.layer y.1))
    match h.poison, idx.find? (fun y => (h.ptEntry (e.ptAddr j.layer y.1)).isNone) with
    | some a, _ => { state := h.state, job := j, fault := some (faultUncorrectable, a) }
    | none, some y => h.refuse j { code := faultPage, cause := 1, seq := j.seq, low := some y.2 }
    | none, none =>
      let pages := idx.filterMap (fun y => (h.ptEntry (e.ptAddr j.layer y.1)).map (fun n => (y.1, n)))
      let pins := (pages.map Prod.snd).dedup
      let h := pins.foldl Home.pin h
      match h.poison with
      | some a => { state := h.state, job := j, fault := some (faultUncorrectable, a) }
      | none =>
        let j := { j with stage := .translated, pages := pages, pins := pins }
        let put (o : Nat) (bs : List Byte) (s : State) : State := s.atRank x.ctx.toNat x.rank (fun k => k.putWs o bs)
        let g := h.close.gather (coreFor p core) c j e.length put (j.rows c j.f.wsLine.toNat)
        { state := g.1, job := j, fault := g.2 }

/-- Whether an append's page-table entry needs a page of the stack (R240). (DEDUCED: log entry 47) -/
def Home.needsPage (h : Home) (a : W64) : Bool :=
  match h.ptEntry a with
  | none => true
  | some n => 1 < h.refs n

/-- An append being translated: the home, the pages popped to be zeroed, the pages by index, the copies to be switched. -/
structure Resolving where
  home : Home
  zero : List Nat
  pages : List (Nat × Nat)
  cows : List (W64 × Nat × Nat)

/-- One entry of an append is resolved; a copy on write is left to be switched. -/
def Resolving.entry (x : Resolving) (i : Nat) (a : W64) : Resolving :=
  match x.home.ptEntry a with
  | none =>
    let t := x.home.pop
    { home := (t.1.setMeta t.2 1 (t.1.pins t.2)).setPtEntry a (some t.2), zero := x.zero ++ [t.2],
      pages := x.pages ++ [(i, t.2)], cows := x.cows }
  | some g =>
    if 1 < x.home.refs g then
      let t := x.home.pop
      { x with home := t.1, pages := x.pages ++ [(i, t.2)], cows := x.cows ++ [(a, g, t.2)] }
    else { x with pages := x.pages ++ [(i, g)] }

/-- `A.KVAPPEND` at the home (R240, R244): checks and resolves; the copies on write it waits for.
(DEDUCED: log entry 47) -/
def State.kvAppend (s : State) (p : Nat) (j : KvJob) : Translated :=
  let c := s.cacheCfg p
  let h := s.kvHome p j
  match h.poison, h.kvCheck j true with
  | some a, _ => { state := h.state, job := j, fault := some (faultUncorrectable, a) }
  | none, some f => h.refuse j f
  | none, none =>
    let e := h.seqEntry j.seq
    let idx := (j.span e.maxLen).map (fun y => (y.1, e.ptAddr j.layer y.1, y.2))
    let h := h.fetchAll (idx.map (fun y => y.2.1))
    let h := h.fetchAll (idx.filterMap (fun y => (h.ptEntry y.2.1).map c.metaAddr))
    let need := idx.filter (fun y => h.needsPage y.2.1)
    if h.poison.isNone ∧ h.depth < need.length then
      h.refuse j { code := faultPage, cause := 2, seq := j.seq, low := (need[h.depth]?).map (fun y => y.2.2) }
    else
      let x := idx.foldl (fun (x : Resolving) y => x.entry y.1 y.2.1) { home := h, zero := [], pages := [], cows := [] }
      match x.home.poison with
      | some a => { state := x.home.state, job := j, fault := some (faultUncorrectable, a) }
      | none =>
        { state := x.zero.foldl (fun s n => s.zeroRange p (c.poolBase + BitVec.ofNat 64 (n * c.pageBytes)) c.pageBytes)
            x.home.close
          job := { j with stage := .translated, pages := x.pages, cows := x.cows }, fault := none }

/-- A copy on write is complete (R240, R241): the new page holds the old page's bytes, and the entry switches to it.
(DEDUCED: log entry 49) -/
def State.cowSwitch (s : State) (p : Nat) (a : W64) (old new : Nat) : State × Option (Nat × W64) :=
  let c := s.cacheCfg p
  let home := s.homeFor p
  let r := s.readView home (c.poolBase + BitVec.ofNat 64 (old * c.pageBytes)) c.pageBytes
  match r.poison with
  | some x => (r.state, some (faultUncorrectable, x))
  | none =>
    let h := ((r.state.writeView home (c.poolBase + BitVec.ofNat 64 (new * c.pageBytes)) r.data).home p).fetchAll
      [a, c.metaAddr new]
    let now := (h.ptEntry a).getD old
    let h := ((h.setMeta new 1 (h.pins new)).setPtEntry a (some new)).dropRef now
    match h.poison with
    | some x => (h.state, some (faultUncorrectable, x))
    | none => (h.close.bump (0x7020 + p) 5 1, none)

/-- The last writes of an append (R240, R246): its rows go from the image into the pages it has resolved. -/
def State.kvWrite (s : State) (core p : Nat) (j : KvJob) : State :=
  let c := s.cacheCfg p
  let ws := (s.core core).ws
  (j.rows c j.f.wsLine.toNat).foldl (fun s x =>
    match tblFind j.pages (x.2.2.1 / 16) with
    | none => s
    | some n =>
      s.writeView (coreFor p core) (c.rowAddr n x.1 x.2.1 (x.2.2.1 % 16)) (cells ws x.2.2.2 c.rowBytes)) s

/-- A load's pins are released at the home (R239). -/
def State.releasePins (s : State) (p : Nat) (pins : List Nat) : State × Option (Nat × W64) :=
  let h := pins.foldl Home.unpin (s.home p)
  (h.close, h.poison.map (fun a => (faultUncorrectable, a)))

/-! ### Service in arrival order (R234, R242) -/

/-- An append that the home has translated for a sequence. -/
def Op.appendsTo (q : Nat) : Op → Bool
  | .kvappend j => j.stage != .asked && j.seq == q
  | _ => false

/-- Whether an append that is translated for a sequence is unfinished on a core or in an image of the polder (R242). -/
def State.appending (s : State) (p q : Nat) : Bool :=
  let has (k : CoreState) : Bool := k.ops.any (fun a => a.op.appendsTo q)
  (s.ctxsOf p).any (fun x => if x.2.images.isEmpty then x.2.cores.any (fun n => has (s.core n)) else x.2.images.any has)

/-- Whether the home holds a request (R242). (DESIGN CHOICE: log entry 41) -/
def State.heldSeq (s : State) (p : Nat) (r : SeqReq) : Bool :=
  match r.fn with
  | 1 => s.appending p r.src
  | 2 | 3 => s.appending p (seqNum r.a)
  | _ => false

def State.heldReq (s : State) (p : Nat) : HomeReq → Bool
  | .seq r => s.heldSeq p r
  | _ => false

/-- The first request that the home can serve. (DESIGN CHOICE: log entry 41) -/
def State.servable (s : State) (p : Nat) : Option HomeReq := (s.polder p).homeQ.find? (fun r => !s.heldReq p r)

/-- The operation of a core that a request is for. -/
def CoreState.kvUnder (k : CoreState) (tag : Nat) : Option (AsyncOp × KvJob × Bool) :=
  k.ops.findSome? (fun a => if a.tag != some tag then none else match a.op with
    | .kvload j => some (a, j, false)
    | .kvappend j => some (a, j, true)
    | _ => none)

/-- An operation's job is replaced. -/
def CoreState.setJob (k : CoreState) (stamp : Nat) (j : KvJob) : CoreState :=
  { k with ops := k.ops.map (fun o => if o.stamp != stamp then o else match o.op with
      | .kvload _ => { o with op := .kvload j }
      | .kvappend _ => { o with op := .kvappend j }
      | _ => o) }

/-- A fault of a request is noted at the core that holds its rank (R73). -/
def State.raiseReq (s : State) (x : KvReq) (f : Option (Nat × W64)) : State :=
  match f with
  | none => s
  | some c => s.atRank x.ctx.toNat x.rank (fun k =>
      k.noteFault { code := c.1, detail := c.2, slot := x.slot, bundle := x.bundle, more := 0 })

/-- The home translates a load or an append (R239, R240). (DEDUCED: log entry 26) -/
def State.translate (s : State) (p : Nat) (x : KvReq) : State :=
  match s.rankCore x.ctx.toNat x.rank with
  | none => s
  | some (n, k) =>
    match k.kvUnder x.tag with
    | none => s
    | some (a, j, append) =>
      let t := if append then s.kvAppend p j else s.kvLoad n p x j
      (t.state.atRank x.ctx.toNat x.rank (fun k => k.setJob a.stamp t.job)).raiseReq x t.fault

/-- The home releases a load's pins, and the load frees its tag (R239). -/
def State.unpinFor (s : State) (p : Nat) (x : KvReq) : State :=
  match s.rankCore x.ctx.toNat x.rank with
  | none => s
  | some (_, k) =>
    match k.kvUnder x.tag with
    | none => s
    | some (_, j, _) =>
      let t := s.releasePins p j.pins
      (t.1.atRank x.ctx.toNat x.rank (fun k => k.freeTag x.tag)).raiseReq x t.2

/-- One request is granted, and leaves the home's queue; another that waits meanwhile makes it a choice (R234, R339). -/
def State.granted (s : State) (p : Nat) (r : HomeReq) : State :=
  let s := s.onPolder p (fun q => { q with homeQ := q.homeQ.erase r })
  if (s.polder p).homeQ.isEmpty then s else s.timingChoice r.ctx.toNat

/-- An `X.SEQ` takes effect, and its core gets its value and its tag back, or its fault. -/
def State.answerSeq (s : State) (p : Nat) (r : SeqReq) : State :=
  let t := s.serveSeq p r
  match t.fault with
  | none => t.state.atRank r.ctx.toNat r.rank (fun k => (k.setG r.dst t.value).freeTag r.tag)
  | some f => t.state.atRank r.ctx.toNat r.rank (fun k =>
      k.noteFault { code := f.1, detail := f.2, slot := r.slot, bundle := r.bundle, more := 0 })

/-- Loads, appends and releases whose turn has come are served until an `X.SEQ` is next. (DESIGN CHOICE: log entry 41) -/
def State.drainHome (p : Nat) : Nat → State → State
  | 0, s => s
  | n + 1, s =>
    match s.servable p with
    | some (.translate x) => State.drainHome p n ((s.granted p (.translate x)).translate p x)
    | some (.release x) => State.drainHome p n ((s.granted p (.release x)).unpinFor p x)
    | _ => s

/-- A request arrives at the home. -/
def State.askHome (s : State) (p : Nat) (r : HomeReq) : State :=
  let s := (s.onPolder p (fun q => { q with homeQ := q.homeQ ++ [r] })).mark (0x7020 + p) 7
  State.drainHome p (s.polder p).homeQ.length s

end Sys2Proof.Machine
end

