-- ==== Sys2Proof/Machine/Vector.lean ====
section
/-! DEFINITION. What the V-slot operations compute (08_vector_functions.md R167 to R185, 07_convolution_resampling.md
R153 to R156, 12_sluice.md R248 to R251, 13_random_sampling.md R262 to R269): registers in, registers out. Their issue
checks and their effects on the core stand in Issue.lean. -/

namespace Sys2Proof.Machine

/-! ### Row reductions (R183 to R185) -/

def words32 (v : BitVec 4096) : List W32 := elemsOf 32 v

/-- A register with four lanes set and the rest +0. -/
def fourLanes (xs : List W32) : BitVec 4096 := ofElems 32 (xs.take 4 ++ List.replicate (128 - min 4 xs.length) 0)

def nodeAt (v : BitVec 4096) : Node :=
  let l := words32 v
  { s := l.getD 0 0, a := l.getD 1 0, b := l.getD 2 0, n := l.getD 3 0 }

def nodeResult (x : Node × Ev) : VResult :=
  { value := fourLanes x.1.words, tally := Tally.ofEvs [x.2], rounded := 0 }

/-- The lanes that a reduction takes: the first `IMM32`[7:0]. (DEDUCED: log entry 39) -/
def rsumLanes (k : CoreState) (f : VFields) : List W32 := (words32 (k.getV f.va)).take (f.imm32.toNat % 256)

def vRsumSumOf (k : CoreState) (f : VFields) : VResult :=
  let r := meridianTree (rsumLanes k f)
  { value := fourLanes [r.1], tally := Tally.ofEvs [r.2], rounded := 0 }

def vRsumMaxOf (k : CoreState) (f : VFields) : VResult :=
  { value := fourLanes [(rsumLanes k f).foldl max32 0xFF800000#32], tally := {}, rounded := 0 }

def vRsumStatOf (k : CoreState) (f : VFields) : VResult :=
  let xs := rsumLanes k f
  nodeResult (nodeOf (xs.headD 0) xs)

def vRsumStat0Of (k : CoreState) (f : VFields) : VResult := nodeResult (nodeOf 0 (rsumLanes k f))

def vRsumCombineOf (k : CoreState) (f : VFields) : VResult :=
  nodeResult ((nodeAt (k.getV f.va)).combine (nodeAt (k.getV f.vb)))

def vRsumFinishOf (k : CoreState) (f : VFields) : VResult :=
  let r := (nodeAt (k.getV f.va)).finish
  { value := fourLanes r.1, tally := Tally.ofEvs [r.2], rounded := 0 }

/-! ### Loads and stores (R168) -/

/-- The register that eight lines give: its content from the top is their 512 bytes. -/
def lineReg (bs : List Byte) : BitVec 4096 := ofElems 8 bs

/-- The 512 bytes of a register. -/
def regBytes (v : BitVec 4096) : List Byte := elemsOf 8 v

/-! ### The sliding window (R154) -/

/-- A 16-bit element of channel `c` of the pixel at a line. -/
def pixelAt (ws : Store 8) (line c : Nat) : Nat := ofBytes (cells ws (64 * line + 2 * c) 2)

/-- The lines of each tap's pixel, ty outer, tx inner. -/
def tapLines (b : Nat) (f : WFields) : List Nat :=
  (List.range f.kh.toNat).flatMap (fun ty => (List.range f.kw.toNat).map (fun tx =>
    b + ty * f.dilY.toNat * f.rowPitch.toNat + tx * f.dilX.toNat * f.colPitch.toNat))

/-- One channel of a `V.WIN` (R154). -/
def winLane (ws : Store 8) (edition op : Nat) (f : WFields) (taps : List Nat) (wline c : Nat) : W32 × Ev :=
  let fmt := laneFmt f.ty.toNat
  let xs := taps.map (fun l => fmt.decode (pixelAt ws l c))
  match op with
  | 0 => meridianDot edition 1 (xs.zipIdx.map (fun p => (p.1, fmt.decode (pixelAt ws (wline + 4 * p.2) c))))
  | 1 =>
    if xs.any Fv.isNan then (qnan32, {})
    else
      let m := xs.foldl Fv.max2 (.inf true)
      (BitVec.ofNat 32 (fp32.write .near true m).1, {})
  | _ => meridianDot edition 1 (xs.map (fun x => (x, .fin false 1 0)))

/-- A `V.WIN`: the register, and the events of its 128 elements. -/
def winOf (k : CoreState) (edition op : Nat) (f : WFields) : BitVec 4096 × Tally :=
  let taps := tapLines (k.wsLine f.wsLine f.gOff) f
  let rs := (List.range 128).map (winLane k.ws edition op f taps (k.getG f.gW).toNat)
  (ofElems 32 (rs.map Prod.fst), Tally.ofEvs (rs.map Prod.snd))

/-! ### The comparator (R249 to R251) -/

/-- A magnitude rounded to FP32 toward +∞ (R250). -/
def ceil32 : Fv → W32
  | .fin _ m e =>
    let c := fp32.roundMag .zero m e
    let exact := !(fp32.decode c).lt (.fin false m e)
    BitVec.ofNat 32 (min 0x7F800000 (if exact then c else c + 1))
  | _ => 0x7F800000#32

/-- One pair of elements enters the tile state. -/
def SluiceState.accum (t : SluiceState) (x y : Fv) : SluiceState :=
  if !x.isFinite || !y.isFinite then { t with u := true }
  else { t with d := max32 t.d (ceil32 (x.add y.neg).abs),
                y := max32 t.y (BitVec.ofNat 32 (fp32.round .near true false (match y with
                  | .fin _ m _ => m
                  | _ => 0) (match y with
                  | .fin _ _ e => e
                  | _ => 0)).1) }

/-- ACCUM over two registers. -/
def sluiceAccumOf (k : CoreState) (f : LFields) : SluiceState :=
  let ty := f.ty.toNat
  let w := laneW ty
  let fmt := laneFmt ty
  ((codesOf w (k.getV f.va)).zip (codesOf w (k.getV f.vb))).foldl
    (fun t p => t.accum (fmt.decode p.1) (fmt.decode p.2)) k.sluice

def SluiceState.clear (t : SluiceState) : SluiceState := { t with d := 0, y := 0, u := false }

/-- The job state that 17 lines hold (R249). -/
def sluiceJobOf (bs : List Byte) : SluiceJob :=
  { step := BitVec.ofNat 32 (fieldAt bs 0 4), tide := BitVec.ofNat 32 (fieldAt bs 4 4),
    mapBase := BitVec.ofNat 64 (fieldAt bs 8 8), tiles := fieldAt bs 16 4, blocks := fieldAt bs 20 2,
    weirs := (List.range (min 256 (fieldAt bs 20 2))).map (fun b => BitVec.ofNat 32 (fieldAt bs (64 + 4 * b) 4)) }

/-- Whether job lines are refused (R257). -/
def SluiceJob.bad (j : SluiceJob) : Bool :=
  j.tide == 0 || j.tiles == 0 || 65536 < j.tiles || j.blocks == 0 || 256 < j.blocks || j.mapBase.toNat % 64 != 0
    || j.weirs.any (fun w => isNan32 w || lt32 0x3F800000#32 w || lt32 w 0)

/-- The outcome of a DECIDE (R251): 0 closed, 1 tide, 2 unfit, 3 change. -/
def decideOf (j : SluiceJob) (t : SluiceState) (b : Nat) : Nat :=
  let w := fv32 (j.weirs.getD b 0)
  let d := fv32 t.d
  if j.step.toNat % j.tide.toNat = 0 then 1
  else if t.u then 2
  else if (zeroFv.lt w && d.isZero) || d.lt (w.mul (fv32 t.y)) then 0
  else 3

/-- The address of a tile's bit in the gate map (R254). -/
def mapAddr (j : SluiceJob) (b t : Nat) : Nat := j.mapBase.toNat + 64 * b * ((j.tiles + 511) / 512) + t / 8

/-! ### Generators (R263, R267, R269) -/

/-- `n` consecutive words of the counter stream from `n0`. -/
def counterWords (g : RngState) (stream : W32) (n0 : W64) (n : Nat) : List W32 :=
  let b0 := n0.toNat / 16
  let skip := n0.toNat % 16
  (((List.range ((skip + n + 15) / 16)).flatMap (fun i => chachaBlock g.seed g.step stream ((b0 + i) % 2 ^ 60))).drop
    skip).take n

/-- Blocks that the lane groups of a pipe compute (R268): eight groups of 16 or 32 words. -/
def blocksOf (n0 : W64) (n : Nat) : Nat := 8 * (n / 128 + (if n0.toNat % 16 = 0 then 0 else 1))

/-- A uniform sample (R263). -/
def uniformOf (r : W32) : W32 := BitVec.ofNat 32 (fp32.round .near true false (r.toNat / 256) (-24)).1

/-- A normal sample (R269). -/
def normalOf (r : W32) : W32 × Ev :=
  let i := r.toNat / 2 ^ 20
  let z : Int := ((r.toNat % 2 ^ 20 : Nat) : Int) - 2 ^ 19
  let g : W32 := BitVec.ofNat 32 (fp32.round .near true (z < 0) z.natAbs (-20)).1
  fma32 (normalS i) g (normalN i)

def rngBitsOf (k : CoreState) (f : RFields) : BitVec 4096 :=
  ofElems 32 (counterWords k.rng f.imm32 (k.getG f.gIdx) 128)

def rngUniformOf (k : CoreState) (f : RFields) : BitVec 4096 :=
  ofElems 32 ((counterWords k.rng f.imm32 (k.getG f.gIdx) 128).map uniformOf)

def rngNormalOf (k : CoreState) (f : RFields) : BitVec 4096 × Tally :=
  let ty := f.ty.toNat
  let rs := (counterWords k.rng f.imm32 (k.getG f.gIdx) (4096 / laneW ty)).map (fun r =>
    let x := normalOf r
    let y := narrow (laneFmt ty) .near true x.1
    (y.1, x.2.merge y.2))
  (ofCodes (laneW ty) (rs.map Prod.fst), Tally.ofEvs (rs.map Prod.snd))

/-- Whether DROP drops element `e` (R266). -/
def dropped (k : CoreState) (f : RFields) (e code : Nat) : Bool :=
  let m : BitVec 12 := if f.imm32.getLsbD 16 then 0 else (patternOf f.ty.toNat code).setWidth 12
  (dhash k.rng.seed k.rng.step (k.getG f.gIdx + BitVec.ofNat 64 e) m 1 >>> 48).toNat < f.imm32.toNat % 65536

/-- DROP: the register and the number of elements dropped. -/
def rngDropOf (k : CoreState) (f : RFields) : BitVec 4096 × Nat :=
  let w := laneW f.ty.toNat
  let xs := (codesOf w (k.getV f.va)).zipIdx.map (fun p => (p.1, dropped k f p.2 p.1))
  (ofCodes w (xs.map (fun x => if x.2 then 0 else x.1)), (xs.filter Prod.snd).length)

end Sys2Proof.Machine
end

