-- ==== Sys2Proof/Machine/Sampler.lean ====
section
/-! DEFINITION. Token sampling (13_random_sampling.md R271 to R277): the descriptor, its checks, both modes, the result
line. -/

namespace Sys2Proof.Machine

/-- The sampling descriptor (R272). -/
structure SampleDesc where
  mode : Nat
  fmt : Nat
  vocab : Nat
  topK : Nat
  scale : W32
  topP : W32
  stream : W32
  logitLine : Nat
  resultLine : Nat

def sampleDesc (bs : List Byte) : SampleDesc :=
  { mode := fieldAt bs 0 1, fmt := fieldAt bs 1 1, vocab := fieldAt bs 4 4, topK := fieldAt bs 8 2,
    scale := BitVec.ofNat 32 (fieldAt bs 12 4), topP := BitVec.ofNat 32 (fieldAt bs 16 4),
    stream := BitVec.ofNat 32 (fieldAt bs 20 4), logitLine := fieldAt bs 24 2, resultLine := fieldAt bs 26 2 }

/-- Bytes of a logit. -/
def SampleDesc.size (d : SampleDesc) : Nat := if d.fmt = 0 then 4 else 2

/-- The lines that hold the logits. -/
def SampleDesc.lines (d : SampleDesc) : Nat := (d.vocab * d.size + 63) / 64

/-- The offset of the first field that fails (R273), for a command-stream edition. -/
def SampleDesc.bad (d : SampleDesc) (edition : Nat) : Option Nat :=
  if 2 ≤ d.mode ∨ (d.mode = 0 ∧ edition = 1) ∨ (d.mode = 1 ∧ edition ≠ 1) then some 0
  else if 3 ≤ d.fmt then some 1
  else if d.vocab = 0 ∨ 262144 < d.vocab then some 4
  else if d.topK = 0 ∨ 4096 < d.topK then some 8
  else if !(lt32 0 d.scale) || isInf32 d.scale then some 12
  else if d.mode = 0 ∧ (!(lt32 0 d.topP) || lt32 0x3F800000#32 d.topP) then some 16
  else if 65536 < d.logitLine + d.lines then some 24
  else none

/-- The logits, widened exactly (R274). -/
def SampleDesc.logits (d : SampleDesc) (ws : Store 8) : List W32 :=
  (pieces d.size d.vocab (cells ws (64 * d.logitLine) (d.vocab * d.size))).map (fun b =>
    widen (laneFmt d.fmt) (ofBytes b))

/-- What a sample gives (R276): fields that the mode leaves unstated when nothing is chosen are none. -/
structure Sampled where
  token : Nat
  status : Nat
  kept : Option Nat
  weight : Option W32
  total : Option W32
  u : Option W32
  ev : Ev

def notChosen (status : Nat) (noise : Bool) (ev : Ev) : Sampled :=
  { token := 0xFFFFFFFF, status := status, kept := if noise then some 0 else none, weight := none,
    total := if noise then some 0 else none, u := if noise then some 0 else none, ev := ev }

/-- Running sums in candidate order (R274 `cum`). -/
def cumSums : W32 × Ev → List W32 → List (W32 × Ev)
  | _, [] => []
  | a, w :: r =>
    let b := thenEv a (fun x => add32 x w)
    b :: cumSums b r

/-- Mode 0 (R274). -/
def sampleNative (d : SampleDesc) (g : RngState) (draw : W64) (z : List W32) : Sampled :=
  let ys := z.map (fun x => mul32 x d.scale)
  let ev := mergeEvs ys
  let y := ys.map Prod.fst
  if y.any (fun v => isNan32 v || v == 0x7F800000#32) then notChosen 2 false ev
  else
    let m := y.foldl max32 0xFF800000#32
    if m = 0xFF800000#32 then notChosen 1 false ev
    else
      let order := y.zipIdx.mergeSort (fun a b => !(lt32 a.1 b.1))
      let cand := order.take (min d.topK d.vocab)
      let ws := cand.map (fun c =>
        let e := sub32 c.1 m
        let x := exp2Short fp16 e.1
        (widen fp16 x.1, e.2.merge x.2))
      let cum := cumSums (0, {}) (ws.map Prod.fst)
      let last := (cum.getLast?.map Prod.fst).getD 0
      let h := mul32 d.topP last
      let ks := (cum.findIdx? (fun c => !(lt32 c.1 h.1))).getD (cum.length - 1)
      let word := counterWord g.seed g.step d.stream (draw * 262144)
      let u := uniformOf word
      let cks := ((cum.map Prod.fst).getD ks 0)
      let t := mul32 u cks
      let pick := ((cum.take (ks + 1)).findIdx? (fun c => lt32 t.1 c.1)).getD ks
      { token := (cand.getD pick (0, 0)).2, status := 0, kept := some (ks + 1),
        weight := some ((ws.map Prod.fst).getD pick 0), total := some cks, u := some u,
        ev := (((ev.merge (mergeEvs ws)).merge (mergeEvs cum)).merge h.2).merge t.2 }

/-- Mode 1 (R275). -/
def sampleNoise (d : SampleDesc) (g : RngState) (draw : W64) (z : List W32) : Sampled :=
  let words := counterWords g d.stream (draw * 262144) d.vocab
  let ss := (z.zip words).map (fun p => thenEv (mul32 p.1 d.scale) (fun x => add32 x (gumbelG (p.2.toNat / 2 ^ 20))))
  let ev := mergeEvs ss
  let s := ss.map Prod.fst
  if s.any isNan32 then notChosen 2 true ev
  else
    let m := s.foldl max32 0xFF800000#32
    if m = 0xFF800000#32 then notChosen 1 true ev
    else
      let j := (s.findIdx? (fun v => !(lt32 v m))).getD 0
      { token := j, status := 0, kept := some 0, weight := some (s.getD j 0), total := some 0, u := some 0, ev := ev }

/-- The result line (R276). (DESIGN CHOICE: log entry 42) -/
def resultLine (token status kept weight total u : Nat) : List Byte :=
  toBytes 4 token ++ toBytes 1 status ++ List.replicate 3 0 ++ toBytes 2 kept ++ List.replicate 2 0 ++ toBytes 4 weight
    ++ toBytes 4 total ++ toBytes 4 u ++ List.replicate 40 0

/-- A sampler's completion (R273 to R276): the result line and the counters, or `SAMPLER_RANGE`.
(DESIGN CHOICE: log entry 42) -/
def State.runSample (s : State) (core : Nat) (draw : W64) (rng : RngState) (line : Nat) :
    State × Option WalkFault :=
  let k := s.core core
  let cx := s.coreCtx core
  let p := polderOf ((k.ctx.map BitVec.toNat).getD 0)
  let d := sampleDesc (k.wsBytes (64 * line) 64)
  match d.bad cx.csEd with
  | some off => (s, some { code := faultSampler, detail := BitVec.ofNat 64 off, k := 0 })
  | none =>
    let z := d.logits k.ws
    let r := if d.mode = 0 then sampleNative d rng draw z else sampleNoise d rng draw z
    -- fields that are unstated when nothing is chosen are free values
    let f16 : BitVec 16 := s.freeVal 16
    let fw : W32 := s.usedFree.freeVal 32
    let ft : W32 := s.usedFree.usedFree.freeVal 32
    let fu : W32 := s.usedFree.usedFree.usedFree.freeVal 32
    let bs := resultLine r.token r.status (r.kept.getD f16.toNat) (r.weight.getD fw).toNat (r.total.getD ft).toNat
      (r.u.getD fu).toNat
    let s := if r.status = 0 then s else s.usedFree.usedFree.usedFree.usedFree
    let s := s.onCore core (fun k => k.putWs (64 * d.resultLine) bs)
    let s := (s.tally p (Tally.ofEvs [r.ev])).bump (0x7210 + p) (if d.mode = 0 then 1 else 2) 1
    (if r.status = 0 then s else s.event (0x7220 + p) (r.status - 1) 1, none)

end Sys2Proof.Machine
end

