-- ==== Sys2Proof/Machine/Update.lean ====
section
/-! DEFINITION. Parameter update (14_training_update.md R280 to R293): the descriptor and its issue checks, the mask, the
ephemeris, `NORM`, `APPLY` and `SCALE`. -/

namespace Sys2Proof.Machine

/-- The update descriptor (R281). -/
structure UpdateDesc where
  w : W64
  r : W64
  m : W64
  g : W64
  mask : W64
  eph : W64
  hist : W64
  n : Nat
  first : Nat
  count : Nat
  step : Nat
  normSq : W32
  amaxPrev : W32
  gFmt : Nat
  mFmt : Nat
  histLen : Nat
  margin : Nat
  target : Nat
  leafLine : Nat

def updateDesc (bs : List Byte) : UpdateDesc :=
  let a (o : Nat) : W64 := BitVec.ofNat 64 (fieldAt bs o 8)
  { w := a 0, r := a 8, m := a 16, g := a 24, mask := a 32, eph := a 40, hist := a 48, n := fieldAt bs 56 8,
    first := fieldAt bs 64 8, count := fieldAt bs 72 8, step := fieldAt bs 80 4,
    normSq := BitVec.ofNat 32 (fieldAt bs 84 4), amaxPrev := BitVec.ofNat 32 (fieldAt bs 88 4),
    gFmt := fieldAt bs 92 1, mFmt := fieldAt bs 93 1, histLen := fieldAt bs 94 1, margin := fieldAt bs 95 1,
    target := fieldAt bs 96 1, leafLine := fieldAt bs 98 2 }

/-- Leaves of the range (R289). -/
def UpdateDesc.leaves (d : UpdateDesc) : Nat := (d.count + 4095) / 4096

/-- Lines that hold the leaf sums. -/
def UpdateDesc.leafLines (d : UpdateDesc) : Nat := (4 * d.leaves + 63) / 64

/-- The issue checks of R282 on the fields: detail 0x03. -/
def UpdateDesc.bad (d : UpdateDesc) (func : Nat) : Bool :=
  if func = 3 then
    1 < d.target || d.histLen == 0 || 16 < d.histLen || 15 < d.margin || d.hist.toNat % 64 != 0
      || (d.step != 0 && (isNan32 d.amaxPrev || lt32 d.amaxPrev 0))
  else
    1 < d.gFmt || 1 < d.mFmt
      || [d.w, d.r, d.m, d.g, d.mask].any (fun a => a.toNat % 64 != 0)
      || d.n == 0 || 2 ^ 40 < d.n || d.first % 4096 != 0 || d.count == 0 || d.n < d.first + d.count
      || (d.count % 4096 != 0 && d.first + d.count < d.n)

/-! ### The ephemeris (R287, R288) -/

structure Ephemeris where
  lr : W32
  beta1 : W32
  beta2 : W32
  clip : W32
  decay : W32

def ephemerisOf (bs : List Byte) : Ephemeris :=
  let f (o : Nat) : W32 := BitVec.ofNat 32 (fieldAt bs o 4)
  { lr := f 0, beta1 := f 4, beta2 := f 8, clip := f 12, decay := f 16 }

/-- Whether an entry holds a value that R288 refuses. -/
def Ephemeris.bad (e : Ephemeris) : Bool :=
  let nonneg (x : W32) : Bool := !isNan32 x && !isInf32 x && !lt32 x 0
  let unit (x : W32) : Bool := !isNan32 x && !lt32 x 0 && !lt32 0x3F800000#32 x
  !nonneg e.lr || !unit e.beta1 || !unit e.beta2 || !lt32 0 e.clip || !nonneg e.decay

/-- A fault of an update: a byte outside the polder, or a poisoned word. -/
def memFault (code : Nat) (a : W64) : WalkFault := { code := code, detail := a, k := 0 }

/-- A read of bytes that a unit of a core makes: the bytes, or the fault at the first word that raises one. `taken` gives
the first byte that it takes from a word: a poisoned word from which it takes none raises nothing (R310). -/
def State.unitReadOf (s : State) (core p : Nat) (a : W64) (n : Nat) (taken : Nat → Option Nat) :
    State × Except WalkFault (List Byte) :=
  match (wordsOf a.toNat n).find? (fun cw => (s.resolve p (BitVec.ofNat 64 (64 * cw))).isNone) with
  | some cw => (s, .error (memFault faultPolder (BitVec.ofNat 64 (max a.toNat (64 * cw)))))
  | none =>
    if 2 ^ 64 < a.toNat + n then (s, .error (memFault faultPolder a))
    else
      let r := s.readView (coreFor p core) a n
      match r.bad.findSome? taken with
      | some x => (r.state, .error (memFault faultUncorrectable (BitVec.ofNat 64 x)))
      | none => (r.state, .ok r.data)

/-- A read of which every byte is taken. -/
def State.unitRead (s : State) (core p : Nat) (a : W64) (n : Nat) : State × Except WalkFault (List Byte) :=
  s.unitReadOf core p a n (fun cw => some (max a.toNat (64 * cw)))

/-- The fault of the ephemeris (R288). (DEDUCED: log entry 43) -/
def ephFault (cause step : Nat) : WalkFault :=
  { code := faultEphemeris, detail := BitVec.ofNat 64 (cause * 2 ^ 56 + step), k := 0 }

/-- The ephemeris header and entry of a step. -/
def State.readEphemeris (s : State) (core p : Nat) (cx : Ctx) (d : UpdateDesc) :
    State × Except WalkFault Ephemeris :=
  match s.unitRead core p d.eph 32 with
  | (s, .error f) => (s, .error f)
  | (s, .ok h) =>
    let first := fieldAt h 0 4
    let entries := fieldAt h 4 4
    if d.step < first ∨ first + entries ≤ d.step then (s, .error (ephFault 1 d.step))
    else
      let a := d.eph.toNat + 32 + 32 * (d.step - first)
      if 2 ^ 64 ≤ a then (s, .error (memFault faultPolder (BitVec.ofNat 64 a)))
      else match s.unitRead core p (BitVec.ofNat 64 a) 32 with
        | (s, .error f) => (s, .error f)
        | (s, .ok bs) =>
          let e := ephemerisOf bs
          if e.bad then (s, .error (ephFault 2 d.step))
          else if cx.csEd = 3 && !cx.decls.any (fun x => x.kind == 2 && x.addr == d.eph) then
            (s, .error (ephFault 3 d.step))
          else (s, .ok e)

/-! ### Mask groups (R285) -/

/-- The parameters of a mask group of the range that are not frozen, by number within the group. -/
def UpdateDesc.live (d : UpdateDesc) (k0 : Nat) (mask : List Byte) : List Nat :=
  (List.range 512).filter (fun i =>
    k0 + i < d.first + d.count && !((mask.getD (i / 8) 0).getLsbD (i % 8)))

/-- Parameters of a mask group within the range. -/
def UpdateDesc.inGroup (d : UpdateDesc) (k0 : Nat) : Nat := min 512 (d.first + d.count - k0)

/-- One parameter's values: master, moment, gradient, as FP32. -/
structure Param where
  k : Nat
  w : W32
  m : W32
  g : W32

/-- A stored number of a tensor of `size` bytes a parameter, as FP32. -/
def stored (size : Nat) (bs : List Byte) (i : Nat) : W32 :=
  let v := fieldAt bs (size * i) size
  if size = 4 then BitVec.ofNat 32 v else widen bf16 v

def fmtSize (f : Nat) : Nat := if f = 0 then 4 else 2

/-- A unit's address of parameter `k` in a tensor of `size` bytes a parameter. -/
def tensorAt (base : W64) (size k : Nat) : W64 := base + BitVec.ofNat 64 (size * k)

/-- What an update has done so far. -/
structure Updating where
  state : State
  frozen : Nat
  skipped : Nat
  updated : Nat
  squares : List W32
  tally : Tally
  fault : Option WalkFault

/-- Bytes rounded up to whole code words. -/
def wholeWords (n : Nat) : Nat := (n + 63) / 64 * 64

/-- Reads of a group's stretch of several tensors in order, each given by its first address and the size of a parameter,
up to the first fault; only the words of parameters that are not frozen are taken (R285, R310). -/
def State.unitReads (s : State) (core p n : Nat) (live : List Nat) :
    List (W64 × Nat) → State × Except WalkFault (List (List Byte))
  | [] => (s, .ok [])
  | (a, size) :: r =>
    let at' (i : Nat) : Nat := a.toNat + size * i
    match s.unitReadOf core p a (wholeWords (size * n)) (fun cw => (live.find? (fun i => at' i / 64 == cw)).map at') with
    | (s, .error f) => (s, .error f)
    | (s, .ok bs) =>
      match s.unitReads core p n live r with
      | (s, .error f) => (s, .error f)
      | (s, .ok l) => (s, .ok (bs :: l))

/-- `NORM` on one mask group (R289). -/
def Updating.norm (x : Updating) (core p : Nat) (d : UpdateDesc) (e : Ephemeris) (ob1 : W32) (k0 : Nat) : Updating :=
  match x.fault with
  | some _ => x
  | none =>
    let n := d.inGroup k0
    match x.state.unitRead core p (d.mask + BitVec.ofNat 64 (k0 / 8)) 64 with
    | (s, .error f) => { x with state := s, fault := some f }
    | (s, .ok mask) =>
      let live := d.live k0 mask
      let x := { x with state := s, frozen := x.frozen + (n - live.length) }
      if live.isEmpty then { x with skipped := x.skipped + 1, squares := x.squares ++ List.replicate n 0 }
      else
        let ms := fmtSize d.mFmt
        let gs := fmtSize d.gFmt
        match x.state.unitReads core p n live [(tensorAt d.m ms k0, ms), (tensorAt d.g gs k0, gs)] with
        | (s, .error f) => { x with state := s, fault := some f }
        | (s, .ok rs) =>
          let qs := (List.range n).map (fun i =>
            if live.contains i then
              let mv := stored ms (rs.getD 0 []) i
              let gv := stored gs (rs.getD 1 []) i
              let c0 := thenEv (mul32 ob1 gv) (fun t => fma32 e.beta1 mv t)
              thenEv c0 (fun t => mul32 t t)
            else (0, {}))
          { x with state := s, squares := x.squares ++ qs.map Prod.fst,
                   tally := x.tally.plus (Tally.ofEvs (qs.map Prod.snd)) }

/-- The sign of R291. -/
def signOf (c : W32) : W32 :=
  if isNan32 c then qnan32
  else if lt32 0 c then 0x3F800000#32
  else if lt32 c 0 then 0xBF800000#32
  else 0

/-- A code word's bytes after some of its parameters are replaced. -/
def replaced (size : Nat) (bs : List Byte) (news : List (Nat × Nat)) : List Byte :=
  news.foldl (fun b x => b.take (size * x.1) ++ toBytes size x.2 ++ b.drop (size * x.1 + size)) bs

/-- Rising numbers as runs of consecutive ones: the first, and how many. -/
def runsOf : List Nat → List (Nat × Nat)
  | [] => []
  | i :: r => match runsOf r with
    | [] => [(i, 1)]
    | (j, n) :: t => if j = i + 1 then (i, n + 1) :: t else (i, 1) :: (j, n) :: t

/-- A run of code words of a tensor is written, as far as its addresses allow (R93, R305). -/
def State.writeRun (s : State) (core p : Nat) (a : W64) (bs : List Byte) : State × Option WalkFault :=
  let at' (i : Nat) : W64 := a + BitVec.ofNat 64 (64 * i)
  let n := bs.length / 64
  let m := ((List.range n).takeWhile (fun i => s.writable p (at' i).toNat)).length
  (s.writeView (coreFor p core) a (bs.take (64 * m)), if m = n then none else some (memFault faultPolder (at' m)))

/-- The code words of a group's stretch that hold an updated parameter are written whole (R286).
(DEDUCED: log entry 43) -/
def State.writeLive (s : State) (core p : Nat) (base : W64) (size : Nat) (bs : List Byte) (live : List Nat) :
    State × Option WalkFault :=
  let words := (List.range (bs.length / 64)).filter (fun i => live.any (fun k => size * k / 64 == i))
  (runsOf words).foldl (fun (st : State × Option WalkFault) r =>
    if st.2.isSome then st
    else st.1.writeRun core p (base + BitVec.ofNat 64 (64 * r.1)) ((bs.drop (64 * r.1)).take (64 * r.2))) (s, none)

/-- `APPLY` on one mask group (R284, R286, R291). (DEDUCED: log entry 43) -/
def Updating.apply (x : Updating) (core p : Nat) (d : UpdateDesc) (e : Ephemeris) (ob1 ob2 kf : W32) (k0 : Nat) :
    Updating :=
  match x.fault with
  | some _ => x
  | none =>
    let n := d.inGroup k0
    match x.state.unitRead core p (d.mask + BitVec.ofNat 64 (k0 / 8)) 64 with
    | (s, .error f) => { x with state := s, fault := some f }
    | (s, .ok mask) =>
      let live := d.live k0 mask
      let x := { x with state := s, frozen := x.frozen + (n - live.length) }
      if live.isEmpty then { x with skipped := x.skipped + 1 }
      else
        let ms := fmtSize d.mFmt
        let gs := fmtSize d.gFmt
        match x.state.unitReads core p n live
          [(tensorAt d.w 2 k0, 2), (tensorAt d.r 2 k0, 2), (tensorAt d.m ms k0, ms), (tensorAt d.g gs k0, gs)] with
        | (s, .error f) => { x with state := s, fault := some f }
        | (s, .ok rs) =>
          let wb := rs.getD 0 []
          let rb := rs.getD 1 []
          let mb := rs.getD 2 []
          let news := live.map (fun i =>
            let master : W32 := BitVec.ofNat 32 (fieldAt wb (2 * i) 2 * 65536 + fieldAt rb (2 * i) 2)
            let mv := stored ms mb i
            let gv := stored gs (rs.getD 3 []) i
            let gh := mul32 kf gv
            let c := thenEv (mul32 ob1 gh.1) (fun t => fma32 e.beta1 mv t)
            let u := fma32 e.decay master (signOf c.1)
            let m2 := fma32 (neg32 e.lr) u.1 master
            let mo := thenEv (mul32 ob2 gh.1) (fun t => fma32 e.beta2 mv t)
            let mn : Nat × Ev := if d.mFmt = 0 then (mo.1.toNat, {}) else narrow bf16 .near true mo.1
            (i, m2.1, mn.1, ((((gh.2.merge c.2).merge u.2).merge m2.2).merge mo.2).merge mn.2))
          let w' := replaced 2 wb (news.map (fun y => (y.1, y.2.1.toNat / 65536)))
          let r' := replaced 2 rb (news.map (fun y => (y.1, y.2.1.toNat % 65536)))
          let m' := replaced ms mb (news.map (fun y => (y.1, y.2.2.1)))
          let a := s.writeLive core p (tensorAt d.w 2 k0) 2 w' live
          let b := if a.2.isSome then a else a.1.writeLive core p (tensorAt d.r 2 k0) 2 r' live
          let c := if b.2.isSome then b else b.1.writeLive core p (tensorAt d.m ms k0) ms m' live
          { x with state := c.1, fault := c.2, updated := x.updated + (if c.2.isSome then 0 else live.length),
                   tally := x.tally.plus (Tally.ofEvs (news.map (fun y => y.2.2.2))) }

/-- The mask groups of a range. -/
def UpdateDesc.groups (d : UpdateDesc) : List Nat :=
  (List.range ((d.count + 511) / 512)).map (fun i => d.first + 512 * i)

def Updating.start (s : State) : Updating :=
  { state := s, frozen := 0, skipped := 0, updated := 0, squares := [], tally := {}, fault := none }

/-- The counters that `NORM` and `APPLY` share (R294). -/
def State.countUpdate (s : State) (core : Nat) (x : Updating) : State :=
  ((s.bump (coreIndex core 15) 2 x.updated).bump (coreIndex core 15) 3 x.frozen).bump (coreIndex core 15) 4 x.skipped

/-- Bytes of the descriptor written at completion (R281): `RESULT`, the reserved bytes, and what the function writes. -/
def State.writeDesc (s : State) (core line result : Nat) (qexpAmax : Option (Nat × W32)) (frozen : Option Nat) :
    State :=
  let b := 64 * line
  s.onCore core (fun k =>
    let k := (k.putWs (b + 112) [BitVec.ofNat 8 result]).putWs (b + 114) [0, 0]
    let k := match qexpAmax with
      | some (q, a) => (k.putWs (b + 113) [BitVec.ofNat 8 q]).putWs (b + 116) (toBytes 4 a.toNat)
      | none => k
    match frozen with
    | some f => k.putWs (b + 120) (toBytes 8 f)
    | none => k)

/-- `NORM` completes (R289). -/
def State.runNorm (s : State) (core p : Nat) (cx : Ctx) (line : Nat) (d : UpdateDesc) : State × Option WalkFault :=
  match s.readEphemeris core p cx d with
  | (s, .error f) => (s, some f)
  | (s, .ok e) =>
    let ob1 := sub32 0x3F800000#32 e.beta1
    let x := d.groups.foldl (fun x k0 => x.norm core p d e ob1.1 k0) (Updating.start s)
    match x.fault with
    | some f => ((x.state.tally p x.tally).countUpdate core x, some f)
    | none =>
      let leaves := (pieces 4096 d.leaves x.squares).map meridianTree
      let s := x.state.onCore core (fun k => k.putWs (64 * d.leafLine) (leaves.flatMap (fun l => toBytes 4 l.1.toNat)))
      let s := s.tally p ((x.tally.plus (Tally.ofEvs (leaves.map Prod.snd))).plus (Tally.ofEvs [ob1.2]))
      ((s.countUpdate core x).writeDesc core line 0 none (some x.frozen), none)

/-- kf of R291. -/
def clipFactor (s clip : W32) : W32 × Ev :=
  if (fv32 s).le ((fv32 clip).mul (fv32 clip)) then (0x3F800000#32, {})
  else thenEv (sqrt32 s) (fun q => div32 clip q)

/-- One mask group of an `APPLY` that its step skips: its mask is read and its frozen parameters are counted
(R281, R292). (DEDUCED: log entry 43) -/
def Updating.passOver (x : Updating) (core p : Nat) (d : UpdateDesc) (k0 : Nat) : Updating :=
  match x.fault with
  | some _ => x
  | none =>
    match x.state.unitRead core p (d.mask + BitVec.ofNat 64 (k0 / 8)) 64 with
    | (s, .error f) => { x with state := s, fault := some f }
    | (s, .ok mask) =>
      let live := (d.live k0 mask).length
      { x with state := s, frozen := x.frozen + (d.inGroup k0 - live), skipped := x.skipped + (if live = 0 then 1 else 0) }

/-- `APPLY` completes (R291, R292). -/
def State.runApply (s : State) (core p : Nat) (cx : Ctx) (line : Nat) (d : UpdateDesc) : State × Option WalkFault :=
  match s.readEphemeris core p cx d with
  | (s, .error f) => (s, some f)
  | (s, .ok e) =>
    if isNan32 d.normSq || d.normSq == 0x7F800000#32 then
      let x := d.groups.foldl (fun x k0 => x.passOver core p d k0) (Updating.start s)
      let s := x.state.countUpdate core x
      match x.fault with
      | some f => (s, some f)
      | none => ((s.event (0xA030 + p) 0 1).writeDesc core line 1 none (some x.frozen), none)
    else
      let ob1 := sub32 0x3F800000#32 e.beta1
      let ob2 := sub32 0x3F800000#32 e.beta2
      let kf := clipFactor d.normSq e.clip
      let x := d.groups.foldl (fun x k0 => x.apply core p d e ob1.1 ob2.1 kf.1 k0) (Updating.start s)
      let s := (x.state.tally p (x.tally.plus (Tally.ofEvs [(ob1.2.merge ob2.2).merge kf.2]))).countUpdate core x
      match x.fault with
      | some f => (s, some f)
      | none => ((s.bump (0xA040 + p) 1 1).writeDesc core line 0 none (some x.frozen), none)

/-- e of R293: the largest integer with A·2^e at most fmax, for A above zero. (DEDUCED: log entry 43) -/
def scaleE (a fmax : Fv) : Int :=
  let e0 := fmax.exponent - a.exponent
  if fmax.lt (a.scale e0) then e0 - 1 else e0

/-- `SCALE` completes (R293). (DEDUCED: log entry 43) -/
def State.runScale (s : State) (core p line : Nat) (d : UpdateDesc) : State × Option WalkFault :=
  let rd := if d.step = 0 then (s, Except.ok []) else s.unitRead core p d.hist 64
  match rd with
  | (s, .error f) => (s, some f)
  | (s, .ok bs) =>
    let prev : W32 := if (fv32 d.amaxPrev).isZero then 0 else d.amaxPrev
    let j := (d.step + 15) % 16
    let bs := if d.step = 0 then bs else bs.take (4 * j) ++ toBytes 4 prev.toNat ++ bs.drop (4 * j + 4)
    if d.step ≠ 0 ∧ s.writable p d.hist.toNat = false then (s, some (memFault faultPolder d.hist))
    else
      let s := if d.step = 0 then s else s.writeView (coreFor p core) d.hist bs
      let slots : List W32 := (List.range (min d.histLen d.step)).map (fun i =>
        BitVec.ofNat 32 (fieldAt bs (4 * ((d.step + 16 * d.histLen - (i + 1)) % 16)) 4))
      let fin := slots.filter (fun v => !isNan32 v && !isInf32 v)
      let a := fin.foldl max32 (fin.headD 0)
      let s := if slots.any (fun v => v == 0x7F800000#32) then s.event (0xA030 + p) 1 1 else s
      let fmax : Fv := if d.target = 0 then .fin false 448 0 else .fin false 57344 0
      let q : Int :=
        if (fv32 a).isZero then 0
        else if lt32 a 0 then 127
        else max (-127) (min 127 (scaleE (fv32 a) fmax - d.margin))
      let s := if (fv32 a).isZero then s.event (0xA030 + p) 2 1 else s
      let s := s.bump (0xA040 + p) 2 1
      (s.writeDesc core line 0 (some ((BitVec.ofInt 8 q).toNat, a)) none, none)

/-- An update completes (R281, R294). -/
def State.runUpdate (s : State) (core func line : Nat) (desc : List Byte) : State × Option WalkFault :=
  let cx := s.coreCtx core
  let p := polderOf (((s.core core).ctx.map BitVec.toNat).getD 0)
  let d := updateDesc desc
  let r := match func with
    | 1 => s.runNorm core p cx line d
    | 2 => s.runApply core p cx line d
    | _ => s.runScale core p line d
  match r.2 with
  | some f => (r.1, some f)
  | none => (r.1.bump (coreIndex core 15) 1 1, none)

end Sys2Proof.Machine
end

