-- ==== Sys2Proof/Machine/Checks.lean ====
section
/-! DEFINITION. The issue checks (R55, R56, R73, R74 and the issue checks of every chapter): which fault a slot raises
when its bundle issues. The checks that use the bundle's own bits alone apply whatever the guard; `on` says that the
guard holds, and brings in the checks that use state. -/

namespace Sys2Proof.Machine

/-- A fault that a slot raises: its code and `DETAIL`. -/
abbrev Cause := Nat × W64

def ill (d : Nat) : Cause := (faultIllegal, BitVec.ofNat 64 d)

/-- The first cause whose condition holds. (DESIGN CHOICE: log entry 24) -/
def causeOf : List (Bool × Cause) → Option Cause
  | [] => none
  | (b, c) :: r => if b then some c else causeOf r

/-- The polder of the context on a core. -/
def State.polderOn (s : State) (core : Nat) : Nat := polderOf (((s.core core).ctx.map BitVec.toNat).getD 0)

/-! ### Resources that slots name (R56) -/

/-- A destination, address generator, tag or part of the generator state that a slot names. -/
inductive Res where
  | g (r : BitVec 6)
  | p (r : BitVec 4)
  | v (r : BitVec 6)
  | ag (n : BitVec 3)
  | tag (t : BitVec 4)
  | rng (part : Nat)
  deriving DecidableEq

/-- The g, p and v destinations of an operation. -/
def SlotOp.dests : SlotOp → List Res
  | .add f | .sub f | .mul f | .and f | .or f | .xor f | .shl f | .shr f | .sar f | .min f | .max f | .ld f | .sys f =>
    [.g f.dst]
  | .cmpEq f | .cmpNe f | .cmpLt f | .cmpLtu f | .cmpLe f | .cmpLeu f => [.p f.pdst]
  | .fetchadd f | .cset f | .seq _ f => [.g f.gDst]
  | .vFma f | .vAdd f | .vMul f | .vMax f | .vMin f | .vExp2 f | .vLog2 f | .vCvt f | .vLd f | .vSel f | .vCmp f
  | .vRsum _ f => [.v f.vd]
  | .vWin _ f => [.v f.vd]
  | .sluice sop f => if sop = 2 then [.p f.pdst] else []
  | .rng rfn f =>
    match rfn with
    | 0 => [.rng 0]
    | 5 => []
    | 6 => [.rng 1]
    | _ => [.v f.vd]
  | _ => []

/-- The address generators that an operation's own fields name. -/
def SlotOp.agens : SlotOp → List (BitVec 3)
  | .aLoop f | .aLoad f | .aStore f => [f.ag]
  | .stream attn f => if attn then [f.agA, f.agB, f.agOut] else [f.agA, f.agB]
  | .gstream f => [f.m.agA, f.m.agB]
  | .drain _ f => [f.agOut]
  | _ => []

/-- The tag that an operation names. -/
def SlotOp.tag : SlotOp → Option (BitVec 4)
  | .aLoad f | .aStore f | .aWait f | .sample f => some f.tag
  | .kvload f | .kvappend f => some f.tag
  | .update _ f => some f.tag
  | .stream _ f | .drain _ f | .mWait f => some f.tag
  | .gstream f => some f.m.tag
  | .fetchadd f | .cset f | .put f | .recv f | .iload f | .xWait f | .seq _ f | .fabric f | .media f => some f.tag
  | _ => none

/-- What a slot names under R56; g0 and p0 never clash. -/
def SlotOp.names (o : SlotOp) : List Res :=
  o.dests.filter (fun r => r ≠ .g 0 ∧ r ≠ .p 0) ++ o.agens.map .ag ++ o.tag.toList.map .tag

/-- Whether a slot repeats what a lower slot of its bundle names. (DESIGN CHOICE: log entry 22) -/
def clashes (b : List Slot) (x : Slot) : Bool :=
  b.any (fun y => y.num < x.num && y.op.names.any (fun r => x.op.names.contains r))

/-! ### Scalar and address-generator slots -/

/-- The 35 words of a descriptor table (R78). -/
def CoreState.table (k : CoreState) (desc : BitVec 13) : List W64 := k.scalars (8 * desc.toNat) 35

/-- The walk that an `A.LOOP` binds (R83). -/
def CoreState.bound (k : CoreState) (f : AFields) : Option Walk := walkOf (k.table f.desc) (f.imm.toNat % 4)

def SlotOp.loopFault (k : CoreState) (f : AFields) (on : Bool) : Option Cause :=
  causeOf [(4 ≤ f.imm.toNat, ill 3), (8157 < f.desc.toNat, ill 4), (on && (k.bound f).isNone, ill 3)]

/-- `A.LOAD` and `A.STORE` (R84, R86). -/
def SlotOp.moveFault (k : CoreState) (f : AFields) (on : Bool) : Option Cause :=
  match tblFind k.ag f.ag.toNat with
  | none => if on then some (ill 3) else none
  | some w => if on && 65536 < f.wsLine.toNat + w.wsWindow then some (ill 6) else none

/-- The job of an `A.KVLOAD` or `A.KVAPPEND` (R237). -/
def CoreState.kvJob (k : CoreState) (f : KFields) : KvJob :=
  { seq := bits (k.getG f.gSeq) 15 0, layer := bits (k.getG f.gSeq) 31 16, pos := bits (k.getG f.gPos) 31 0, f := f,
    stage := .asked, pages := [], pins := [], cows := [] }

/-- R238. -/
def State.kvIssueFault (s : State) (core : Nat) (k : CoreState) (f : KFields) (on : Bool) : Option Cause :=
  let p := s.polderOn core
  let c := s.cacheCfg p
  causeOf
    [(f.count == 0 || 1024 < f.count.toNat || f.headCount == 0 || 64 < f.headCount.toNat || f.parts == 0, ill 3),
     (on && (c.heads < f.headFirst.toNat + f.headCount.toNat || !(s.polder p).cacheInit), ill 3),
     (on && 65536 < f.wsLine.toNat + (k.kvJob f).lines c, ill 6)]

/-- The line of an update's descriptor (R280). -/
def CoreState.updateLine (k : CoreState) (f : UFields) : Nat := k.wsLine f.wsLine f.gOff

/-- The descriptor of an update, copied at issue. -/
def CoreState.updateBytes (k : CoreState) (f : UFields) : List Byte := k.wsBytes (64 * k.updateLine f) 128

/-- R282. -/
def updateFault (k : CoreState) (func : Nat) (f : UFields) (on : Bool) : Option Cause :=
  let b := k.updateLine f
  if !on then none
  else if 65535 < b + 1 then some (ill 6)
  else
    let d := updateDesc (k.updateBytes f)
    causeOf [(d.bad func, ill 3), (func == 1 && 65536 < d.leafLine + d.leafLines, ill 6)]

/-! ### Matrix slot (R61, R107, R137, R152, R195, R211, R441) -/

/-- The `ELEM` that fits a stored format (R131). -/
def elemOf (fmt : Nat) : Nat := if fmt = 4 then 0 else if 5 ≤ fmt then 2 else 1

/-- Whether a format is an MX format, whose operand has a scale walk (R132). -/
def isMxFmt (fmt : Nat) : Bool := 2 ≤ fmt && fmt ≤ 4

/-- The words from g[`G_PARAM`], if they lie in the store. -/
def CoreState.params (k : CoreState) (g : BitVec 6) (n : Nat) : Option (List W64) :=
  let a := (k.getG g).toNat
  if a % 8 = 0 ∧ a + 8 * n ≤ 65536 then some (k.scalars a n) else none

/-- Words that a stream or drain copies: the stream word, three chain words, and in attention mode four more. -/
def paramWords (attn : Bool) : Nat := if attn then 8 else 4

/-- The address generators of a stream with the `ELEM` that each must have (R131, R137, R209). -/
def streamAgs (attn : Bool) (f : MFields) (c : Chain) (a : AttnWords) : List (Nat × Nat) :=
  [(f.agA.toNat, elemOf f.fmtA.toNat), (f.agB.toNat, elemOf f.fmtB.toNat)]
    ++ (if attn then [(f.agOut.toNat, elemOf a.fmtV)]
        else (if isMxFmt f.fmtA.toNat then [(c.scaleAgA, 1)] else [])
          ++ (if isMxFmt f.fmtB.toNat then [(c.scaleAgB, 1)] else [])
          ++ (if f.sparse then [(c.metaAg, 1)] else []))

/-- Whether some generator is unbound or has another `ELEM` than it must. -/
def CoreState.agBad (k : CoreState) (ags : List (Nat × Nat)) : Bool :=
  ags.any (fun x => match tblFind k.ag x.1 with
    | none => true
    | some w => w.elem != x.2)

/-- Whether a bound walk's working-store window runs past the store (R86). -/
def CoreState.agPast (k : CoreState) (ags : List (Nat × Nat)) : Bool :=
  ags.any (fun x => match tblFind k.ag x.1 with
    | none => false
    | some w => !w.space && 65536 < w.wsBase + w.wsWindow)

def runsPast (lines : List (Nat × Nat)) : Bool := lines.any (fun x => 65536 < x.1 + x.2)

/-- K positions of a stream (R136). -/
def CoreState.positions (k : CoreState) (f : MFields) : Nat :=
  match tblFind k.ag f.agA.toNat with
  | some w => w.ksteps * perStep f.fmtA.toNat
  | none => 0

/-- The lines that a stream reads besides its walks (R194, R210): normalisation factors, γ, β, the block bitmap.
(DESIGN CHOICE: log entry 37) -/
def streamLines (attn : Bool) (c : Chain) (m : Menu) (a : AttnWords) (positions : Nat) : List (Nat × Nat) :=
  let n := (4 * positions + 63) / 64
  (if m.pNorm then (c.normLine, 16) :: (c.gammaLine, n) :: (if c.rms then [] else [(c.betaLine, n)]) else [])
    ++ (if attn && a.bitmapEn then [(a.bitmapLine, a.bitmapLines)] else [])

/-- The `MENU` cause of a slot: the checks of `CHAIN` alone, or all of R195 but the bank's. -/
def menuCause (on attn : Bool) (code : Nat) (c : Chain) (fmts : Option (Nat × Nat)) : Option Nat :=
  if on then menuFault code attn c fmts
  else if 23 < code then some 1
  else if attn && code != 0 then some 5
  else none

/-- The issue fault of an `M.STREAM` or `M.GSTREAM`, in the order of R441. (DEDUCED: log entry 23)
(DEDUCED: log entry 36) -/
def streamFault (s : State) (core : Nat) (k : CoreState) (attn : Bool) (cols : Option (Nat × Nat × Bool))
    (f : MFields) (on : Bool) : Option Cause :=
  let cx := s.coreCtx core
  let fa := f.fmtA.toNat
  let fb := f.fmtB.toNat
  let code := f.chain.toNat
  let groupBad := match cols with
    | none => false
    | some (c0, n, at') => n == 0 || 128 < c0 + n || f.sparse || at'
  let words := (k.params f.gParam (paramWords attn)).getD []
  let c := chainOf words
  let a := attnWords words
  let m := (menuOf code).getD {}
  let b := k.bank f.bank
  let (ga, gb) := (c.fit m fa fb).getD (fa, fb)
  let cls := Class.ofFmt ga
  let mx := (cls.map Class.isMx).getD false
  let mxB := ((Class.ofFmt gb).map Class.isMx).getD false
  let ags := streamAgs attn f c a
  let pieces := streamLines attn c m a (k.positions f)
  let attnBad := mx || mxB || a.undefinedField || 7 ≤ a.fmtV
    || (!f.accClear && (b.grouped || match b.attn with
        | none => true
        | some t => t.d != a.d || some t.cls != cls || t.vhalf != a.vhalf))
  let plainBad := (f.sparse && (mx || mxB)) || (cols.isSome && (mx || mxB))
    || (!f.accClear && (b.attn.isSome || b.scores || (cols.isNone && b.grouped)))
  if 6 < fa || 6 < fb || groupBad then some (ill 3)
  else if on && (k.params f.gParam (paramWords attn)).isNone then some (ill 4)
  else match menuCause on attn code c (some (fa, fb)) with
    | some d => some (faultMenu, BitVec.ofNat 64 d)
    | none =>
      causeOf
        [(on && (!f.accClear || (cols.isSome && b.governed)) && b.chain != code, (faultMenu, 2)),
         (f.agA == f.agB || (attn && (f.agOut == f.agA || f.agOut == f.agB)), ill 2),
         (on && !(ags.map Prod.fst).Nodup, ill 2),
         (attn && (!f.bank || f.sparse), ill 3),
         (on && (k.agBad ags || (if attn then attnBad else plainBad)), ill 3),
         (on && (k.agPast ags || runsPast pieces), ill 6),
         (on && (cls != Class.ofFmt gb || (mx && cx.mEd == 1)
            || (!f.accClear && b.cls.isSome && b.cls != cls)
            || (attn && Class.ofFmt a.fmtV != cls)), (faultFormat, 0))]

/-- The generators of a drain with the `ELEM` that each must have (R195). -/
def drainAgs (f : MFields) (c : Chain) (m : Menu) : List (Nat × Nat) :=
  (f.agOut.toNat, outElem c.outFmt) :: (if m.res then [(c.resAg, resElem c.resFmt)] else [])

/-- The lines that a drain reads and writes besides its walks (R132, R143, R194, R219). -/
def drainReads (c : Chain) (m : Menu) : List (Nat × Nat) :=
  (if m.bias then [(c.biasLine, 8)] else []) ++ (if m.scale then [(c.scaleLine, 8)] else [])

def drainWrites (attn : Bool) (c : Chain) (m : Menu) (a : AttnWords) : List (Nat × Nat) :=
  (if m.emit then [(c.statLine, 32)] else []) ++ (if m.capture then [(c.amaxLine, 1)] else [])
    ++ (if 5 ≤ c.outFmt then [(c.mxsLine, 8)] else []) ++ (if c.histWs then [(c.histLine, 4)] else [])
    ++ (if attn then [(a.lseLine, 8)] else [])

/-- The issue fault of an `M.DRAIN`, in the order of R441. (DEDUCED: log entry 23) (DESIGN CHOICE: log entry 37) -/
def drainFault (k : CoreState) (attn : Bool) (f : MFields) (on : Bool) : Option Cause :=
  let code := f.chain.toNat
  let words := (k.params f.gParam (paramWords attn)).getD []
  let c := chainOf words
  let a := attnWords words
  let m : Menu := if attn then {} else (menuOf code).getD {}
  let b := k.bank f.bank
  let ags := drainAgs f c m
  if 6 < f.fmtA.toNat || 6 < f.fmtB.toNat then some (ill 3)
  else if on && (k.params f.gParam (paramWords attn)).isNone then some (ill 4)
  else match menuCause on attn code c none with
    | some d => some (faultMenu, BitVec.ofNat 64 d)
    | none =>
      causeOf
        [(on && b.chain != code, (faultMenu, 2)),
         (on && !(ags.map Prod.fst).Nodup, ill 2),
         (attn && !f.bank, ill 3),
         (on && (k.agBad ags || c.histBase < -126 || 8 < c.histBase || (attn && b.attn.isNone)), ill 3),
         (on && (k.agPast ags || runsPast (drainReads c m ++ drainWrites attn c m a)), ill 6)]

/-! ### Vector slots (R61, R74, R156, R174, R257, R264) -/

/-- The cases of R61 and R174 that concern `TYPE` and `RND`. -/
def typeBad (f : VFields) : Bool := 3 < f.ty.toNat || 2 < f.rnd.toNat || (f.ty == 3 && f.rnd != 0)

/-- Parts of a conversion format (R167). -/
def partsOf (n : Nat) : Nat := 32 / cvtW n

def cvtBad (f : VFields) : Bool :=
  typeBad f || f.ty != 0 || 5 < f.sfmt.toNat || 5 < f.dfmt.toNat || partsOf f.sfmt.toNat ≤ f.spart.toNat
    || partsOf f.dfmt.toNat ≤ f.dpart.toNat || (f.sfmt != 3 && f.dfmt == 3 && f.rnd == 2)

def sfuBad (f : VFields) : Bool :=
  typeBad f || f.ty == 3 || f.rnd == 2 || 4 < f.ofmt.toNat || (f.ty != 0 && (f.ofmt == 1 || f.ofmt == 2))

def rsumBad (f : VFields) : Bool :=
  typeBad f || f.ty != 0 || f.immSel || f.imm32.toNat % 256 == 0 || 128 < f.imm32.toNat % 256

def winFieldBad (op : Nat) (f : WFields) : Bool :=
  (f.ty != 1 && f.ty != 2) || f.rnd != 0 || f.immSel || 2 < op || f.kw == 0 || f.kh == 0 || f.dilX == 0
    || 16 < f.dilX.toNat || f.dilY == 0 || 16 < f.dilY.toNat || f.rowPitch == 0 || f.colPitch.toNat < 4

/-- The read footprint of a `V.WIN`, as first line and number of lines (R155). -/
def winLines (k : CoreState) (op : Nat) (f : WFields) : List (Nat × Nat) :=
  let span := (f.kh.toNat - 1) * f.dilY.toNat * f.rowPitch.toNat + (f.kw.toNat - 1) * f.dilX.toNat * f.colPitch.toNat + 4
  (k.wsLine f.wsLine f.gOff, span) :: (if op = 0 then [((k.getG f.gW).toNat, 4 * f.kh.toNat * f.kw.toNat)] else [])

def winFault (s : State) (k : CoreState) (op : Nat) (f : WFields) (on : Bool) : Option Cause :=
  causeOf [(winFieldBad op f, ill 3), (on && s.reduced && (7 < f.kw.toNat || 7 < f.kh.toNat), ill 3),
    (on && runsPast (winLines k op f), ill 6)]

/-- The job lines of a SETUP (R249). -/
def CoreState.setupJob (k : CoreState) (f : LFields) : SluiceJob :=
  sluiceJobOf (k.wsBytes (64 * k.wsLine f.wsLine f.gOff) 1088)

/-- The tile index of a DECIDE (R248). -/
def CoreState.tileIndex (k : CoreState) (f : LFields) : Nat := bits (k.getG f.gOff) 19 0

/-- R257; functions 0 CLEAR, 1 ACCUM, 2 DECIDE, 3 SETUP. -/
def sluiceFault (k : CoreState) (slot sop : Nat) (f : LFields) (on : Bool) : Option Cause :=
  let b := k.wsLine f.wsLine f.gOff
  let decideBad := match k.sluice.job with
    | none => true
    | some j => j.blocks ≤ f.block.toNat || j.tiles ≤ k.tileIndex f
  causeOf
    [(3 < sop || f.rnd != 0 || f.immSel || 3 < f.ty.toNat || (sop == 1 && f.ty == 3), ill 3),
     (on && sop == 3 && b + 16 ≤ 65535 && (k.setupJob f).bad, ill 3),
     (on && sop == 2 && decideBad, ill 3),
     (on && sop == 3 && 65535 < b + 16, ill 6),
     (slot == 6, ill 8)]

/-- R264; functions 0 LOADSTATE, 1 BITS, 2 UNIFORM, 3 NORMAL, 4 DROP, 5 XSET, 6 DSET. -/
def rngFault (k : CoreState) (rfn : Nat) (f : RFields) (on : Bool) : Option Cause :=
  let typeOk := match rfn with
    | 1 => f.ty == 3
    | 2 => f.ty == 0
    | 3 => f.ty.toNat ≤ 2
    | 4 => f.ty.toNat ≤ 2
    | _ => f.ty.toNat ≤ 3
  causeOf [(6 < rfn || !typeOk || f.rnd != 0 || f.immSel, ill 3),
    (on && rfn == 0 && 65535 < k.wsLine f.wsLine f.gOff, ill 6)]

/-! ### Exchange and control slot -/

/-- The site that a counter address names (R71). -/
def counterSite (a : W64) : Nat := bits a 11 8

def counterFault (s : State) (core : Nat) (k : CoreState) (f : XFields) (on : Bool) : Option Cause :=
  causeOf [(on && !(s.polderMask (s.polderOn core)).testBit (counterSite (k.getG f.gA)), (faultPolder, k.getG f.gA))]

/-- `X.PUT` (R67): `SRC_LINE`, `LINES` and the receiver's tag in `IMM`. -/
def putLine (f : XFields) : Nat := bits f.imm 63 48
def putLines (f : XFields) : Nat := bits f.imm 31 16

def putFault (s : State) (core : Nat) (k : CoreState) (f : XFields) (on : Bool) : Option Cause :=
  causeOf [(65536 < putLine f + putLines f, ill 6),
    (on && (s.coreCtx core).cores.length ≤ (k.getG f.gA).toNat, ill 7)]

def iloadFault (k : CoreState) (f : XFields) (on : Bool) : Option Cause :=
  causeOf [(on && (k.getG f.gA).toNat % 128 != 0, ill 3),
    (f.imm == 0 || 2048 < f.target.toNat + f.imm.toNat, ill 5)]

/-- The fabric descriptor that an `X.FABRIC` copies (R369). -/
def CoreState.fabricWords (k : CoreState) (f : XFields) : Option (List W64) := k.params f.gA 8

/-- R369 and the issue check of R374. -/
def fabricFault (s : State) (core : Nat) (k : CoreState) (f : XFields) (on : Bool) : Option Cause :=
  if !on then none
  else match k.fabricWords f with
    | none => some (ill 4)
    | some ws =>
      let w (i : Nat) : W64 := ws.getD i 0
      let func := bits (w 0) 63 60
      let p := s.polderOn core
      let n := bits (w 5) 31 0
      let bytes := (w 3).toNat
      let misaligned := (w 1).toNat % 64 != 0 || (w 2).toNat % 64 != 0
        || (if func = 1 ∨ func = 4 then bytes % 64 != 0 else n % 16 != 0)
      let member := match (s.coreCtx core).group with
        | none => true
        | some g => (func == 1 || func == 4) && g.members.length ≤ bits (w 0) 31 0
      let collBad := (func == 2 || func == 3) && bits (w 5) 63 32 == 0
      let out := if func = 4 then bytes else 4 * n
      let bad := func != 1 && (!s.rangeIn p (w 2) out || s.touchesGuarded p (w 2) out)
      causeOf [(func == 0 || 4 < func || misaligned || member || collBad, ill 3), (bad, (faultPolder, w 2))]

/-- R379: the descriptor is one aligned code word of the polder that the engine may rewrite.
(DESIGN CHOICE: log entry 24) (DESIGN CHOICE: log entry 59) -/
def mediaFault (s : State) (core : Nat) (k : CoreState) (f : XFields) (on : Bool) : Option Cause :=
  let a := k.getG f.gA
  let p := s.polderOn core
  causeOf [(on && a.toNat % 64 != 0, ill 3),
    (on && (!s.rangeIn p a 64 || s.touches p a 64 (s.guardedByte p)), (faultPolder, a))]

/-! ### Every slot -/

/-- The fault that a slot raises at issue, the clash of R56 apart; `on` says that its guard holds.
(DEDUCED: log entry 23) -/
def State.slotFault (s : State) (core : Nat) (x : Slot) (on : Bool) : Option Cause :=
  let k := s.core core
  match x.op with
  | .add _ | .sub _ | .mul _ | .and _ | .or _ | .xor _ | .shl _ | .shr _ | .sar _ | .min _ | .max _ | .cmpEq _
  | .cmpNe _ | .cmpLt _ | .cmpLtu _ | .cmpLe _ | .cmpLeu _ => none
  | .ld f | .st f => causeOf [(on && !scalarOk (k.scalarAddr f), ill 4)]
  | .sys f => causeOf [(7 < f.imm.toNat, ill 3)]
  | .aLoop f => SlotOp.loopFault k f on
  | .aLoad f | .aStore f => SlotOp.moveFault k f on
  | .aWait _ | .mWait _ | .xWait _ | .sample _ => none
  | .kvload f | .kvappend f => s.kvIssueFault core k f on
  | .update func f => updateFault k func f on
  | .stream attn f => streamFault s core k attn none f on
  | .gstream f => streamFault s core k false (some (f.colFirst.toNat, f.colCount.toNat, f.attn)) f.m on
  | .drain attn f => drainFault k attn f on
  | .vFma f | .vAdd f | .vMul f | .vMax f | .vMin f | .vSel f => causeOf [(typeBad f, ill 3)]
  | .vExp2 f | .vLog2 f => causeOf [(sfuBad f, ill 3)]
  | .vCvt f => causeOf [(cvtBad f, ill 3)]
  | .vLd f | .vSt f =>
    causeOf [(3 < f.ty.toNat, ill 3), (on && 65535 < k.wsLine f.wsLine f.gOff + 7, ill 6)]
  | .vCmp f => causeOf [(typeBad f || f.fn == 7, ill 3)]
  | .vRsum mode f => causeOf [(5 < mode || 5 < f.fn.toNat || rsumBad f, ill 3)]
  | .vWin op f => winFault s k op f on
  | .sluice sop f => sluiceFault k x.num sop f on
  | .rng rfn f => rngFault k rfn f on
  | .jmp _ | .br _ | .bar _ | .fence _ | .halt _ => none
  | .call _ => causeOf [(on && 16 ≤ k.calls.length, ill 5)]
  | .ret _ => causeOf [(on && k.calls.isEmpty, ill 5)]
  | .fetchadd f | .cset f => counterFault s core k f on
  | .put f => putFault s core k f on
  | .recv f => causeOf [(65536 < putLine f + putLines f, ill 6)]
  | .iload f => iloadFault k f on
  | .seq fn f => causeOf [(4 < fn || 4 < bits f.imm 3 0, ill 3)]
  | .fabric f => fabricFault s core k f on
  | .media f => mediaFault s core k f on

/-- The cause of a slot in its bundle: the clash, or its own. (DESIGN CHOICE: log entry 22) (DEDUCED: log entry 39)
(DEDUCED: log entry 40) -/
def State.slotCause (s : State) (core : Nat) (b : List Slot) (x : Slot) : Option Cause :=
  if clashes b x then some (ill 2) else s.slotFault core x ((s.core core).guard x.pred x.pneg)

/-- The faults of a bundle at issue: slot and cause, lowest slot first. (DESIGN CHOICE: log entry 22) -/
def State.bundleFaults (s : State) (core : Nat) (b : List Slot) : List (Nat × Cause) :=
  b.filterMap (fun x => (s.slotCause core b x).map (fun c => (x.num, c)))

end Sys2Proof.Machine
end

