-- ==== Sys2Proof/Machine/Fabric.lean ====
section
/-! DEFINITION. Fabric transport (17_ports_transport.md R368 to R374): links, packets, and the collective engine. -/

namespace Sys2Proof.Machine

/-! ### Peers and links (R368, R409, R412) -/

/-- This Ikiroth's `FABRIC_DEVICE_ID`. -/
def State.deviceId (s : State) : W16 := BitVec.ofNat 16 (s.entry 0x6001 1)

def State.link (s : State) (peer : W16) : Option FabricLink := s.links.find? (fun (l : FabricLink) => l.peer == peer)

def State.putLink (s : State) (l : FabricLink) : State :=
  { s with links := s.links.map (fun (x : FabricLink) => if x.peer == l.peer then l else x) }

/-- Whether the Ikiroth holds a credential for the fabric that its epoch still admits (R412). -/
def State.fabricCredentialOk (s : State) : Bool :=
  s.domainSize 0x9030 5 != 0 && s.entry 0x9030 3 ≤ fieldAt (s.domainBytes 0x9030 5 0 80) 8 4

/-- Whether a link to a peer can be at all: both have a device ID, this Ikiroth holds a credential (R412), and
`FABRIC_PEERS` gives the peer a port. -/
def State.linkable (s : State) (peer : W16) : Bool :=
  s.fabricCredentialOk && s.deviceId != 0xFFFF#16 && peer != 0xFFFF#16 && !(s.peerPorts peer).isEmpty

/-- The edition that an offer [a, b] gives against a permitted range [c, d], or none (R48).
(DESIGN CHOICE: log entry 61) -/
def negotiate (a b c d : Nat) : Option Nat :=
  if a ≤ b ∧ max a c ≤ min b d then some (min b d) else none

/-- The direction keys of a handshake (R409), from its three messages and the shared secret. -/
def keysOf (h1 h2 h3 : List Byte) (z : BitVec 256) : Keys :=
  let t := toBytes 32 (Config.sha256 (h1 ++ h2 ++ h3)).toNat
  { i2d := Config.hkdf t z (ascii "IK2 i2d"), d2i := Config.hkdf t z (ascii "IK2 d2i") }

/-- A key of the device by its label (R396). -/
def State.deviceKey (s : State) (label : String) : BitVec 256 := Config.hmac s.secret (ascii label)

/-- A signature by the identity key (R396). -/
def State.identitySign (s : State) (msg : List Byte) : List Byte :=
  padTo 49856 (Config.slhSign (s.deviceKey "IK2 id sk") (s.deviceKey "IK2 id prf") (s.deviceKey "IK2 id pk") msg)

/-- A message of a handshake in frames or datagrams, in fragments of at most 1,480 bytes (R411). -/
def State.sendHs (s : State) (path : HsPath) (type : Nat) (id : W32) (bs : List Byte) : State :=
  (List.range ((bs.length + 1479) / 1480)).foldl (fun s i =>
    s.send (.hs path type id bs.length (1480 * i) ((bs.drop (1480 * i)).take 1480))) s

/-- The credits that a peer is granted when its link opens (R372): how many, the manual does not say.
(DESIGN CHOICE: log entry 61) -/
def State.grantCredits (s : State) (l : FabricLink) : State × FabricLink :=
  let n : W16 := s.freeVal 16
  (s.usedFree.send (.fabricCredit l.peer n.toNat), { l with granted := n.toNat })

/-- The handshake that this Ikiroth initiates with a peer (R368, R409): H1, and H3 over what the peer answers. The peer's
H2, whether its credential is good, the editions it permits, its scope and the credits it grants are free values.
(DESIGN CHOICE: log entry 61) -/
def State.initiate (s : State) (peer : W16) : State × Option FabricLink :=
  let lo := s.entry 0x1102 1
  let hi := s.entry 0x1102 2
  let id := BitVec.ofNat 32 (s.nextId % 65536)
  let nonce : BitVec 256 := s.freeVal 256
  let h1 := toBytes 32 nonce.toNat ++ [BitVec.ofNat 8 lo, BitVec.ofNat 8 hi]
    ++ s.domainBytes 0x9030 5 0 (s.domainSize 0x9030 5)
  let s := ({ s.usedFree with nextId := s.nextId + 1 } : State).sendHs (.fabric peer) 1 id h1
  let h2 := Config.peerH2 s.free
  let authentic : BitVec 1 := s.usedFree.freeVal 1
  let a : Byte := s.usedFree.usedFree.freeVal 8
  let b : Byte := s.usedFree.usedFree.usedFree.freeVal 8
  let scope : W16 := s.usedFree.usedFree.usedFree.usedFree.freeVal 16
  let s := s.usedFree.usedFree.usedFree.usedFree.usedFree
  if authentic = 0 then (s.bump32 0x1000 7, none)
  else
    let e := Config.kemEncap h2 s.free
    let body := padTo 1568 e.1
    let h3 := body ++ s.identitySign (toBytes 32 (Config.sha256 (h1 ++ h2 ++ body)).toNat)
    let s := (s.usedFree.sendHs (.fabric peer) 3 id h3).bump 0x9080 1 1
    match negotiate a.toNat b.toNat lo hi with
    | none => (s.bump32 0x1102 3, none)
    | some ed =>
      let credits : W16 := s.freeVal 16
      let r := s.usedFree.grantCredits
        { peer := peer, edition := ed, scope := scope, keys := keysOf h1 h2 h3 e.2, credits := credits.toNat, granted := 0,
          taken := [] }
      ({ r.1 with links := r.1.links ++ [r.2] }, some r.2)

/-- What a first send to a peer comes to (R368): there is a link, the peer is to initiate it and the send waits, or there
can be none. -/
inductive Reach where
  | linked (l : FabricLink)
  | waiting
  | none
  deriving DecidableEq, Repr

/-- The link to a peer, opened by its first send where this Ikiroth has the lower device ID (R368, R409).
(DESIGN CHOICE: log entry 61) -/
def State.reach (s : State) (peer : W16) : State × Reach :=
  match s.link peer with
  | some l => (s, .linked l)
  | none =>
    if !s.linkable peer then (s, .none)
    else if peer.ult s.deviceId then (s, .waiting)
    else match s.initiate peer with
      | (s, some l) => (s, .linked l)
      | (s, none) => (s, .none)

/-! ### Packets (R372) -/

def FabricMsg.bytes : FabricMsg → Nat
  | .put _ d => d.length
  | .node _ _ _ _ xs => 4 * xs.length
  | .result _ _ d => d.length

def State.putPkt (s : State) (k : FabricPkt) : State :=
  { s with fabricPkts := s.fabricPkts.map (fun (x : FabricPkt) => if x.id = k.id then k else x) }

/-- A packet leaves on its path. (DESIGN CHOICE: log entry 62) -/
def State.sendPkt (s : State) (k : FabricPkt) : State :=
  let path := k.path.getD (s.escapePort k.peer, 16)
  s.send (.fabric k.peer path.1 path.2 k.id k.msg)

/-- A packet is sent for the first time, with a credit or by the escape path without one; its payload counts. -/
def State.launch (s : State) (k : FabricPkt) (credit : Bool) : State :=
  let k := { k with waiting := false, credit := credit }
  ((s.putPkt k).bump (0x6200 + polderOf k.ctx.toNat) 6 k.msg.bytes).sendPkt k

/-- The path of a packet over a link: under F2 its port and its UDP source port are chosen, here freely, and under F1 it
is the escape path. -/
def State.route (s : State) (l : FabricLink) (k : FabricPkt) : State × FabricPkt :=
  let ports := s.peerPorts l.peer
  if l.edition = 2 then
    let pick : W16 := s.freeVal 16
    let src : BitVec 4 := s.usedFree.freeVal 4
    let k := { k with path := some (ports.getD (pick.toNat % max 1 ports.length) 1, src.toNat) }
    ((s.usedFree.usedFree.timingChoice k.ctx.toNat).putPkt k, k)
  else
    let k := { k with path := some (s.escapePort l.peer, 16) }
    (s.putPkt k, k)

/-- A packet that waits takes its path and, when its peer has granted a credit, is sent. -/
def State.tryPkt (s : State) (k : FabricPkt) : State :=
  match s.link k.peer with
  | none => s
  | some l =>
    let r := if k.path.isSome then (s, k) else s.route l k
    if l.credits = 0 then r.1 else (r.1.putLink { l with credits := l.credits - 1 }).launch r.2 true

/-- A new packet of an operation. -/
def State.newPkt (s : State) (o : FabricOp) (peer : W16) (m : FabricMsg) : State :=
  let k : FabricPkt :=
    { id := s.nextId, op := o.id, ctx := o.ctx, peer := peer, path := none, credit := false, waiting := true, retries := 0,
      msg := m }
  { s with nextId := s.nextId + 1, fabricPkts := s.fabricPkts ++ [k] }.tryPkt k

/-- A packet that holds a credit no longer needs it: the next one that waits for that peer takes it. -/
def State.returnCredit (s : State) (k : FabricPkt) : State :=
  if !k.credit then s
  else match s.link k.peer with
    | none => s
    | some l =>
      match s.fabricPkts.find? (fun (x : FabricPkt) => x.peer == k.peer && x.waiting) with
      | some w => s.launch w true
      | none => s.putLink { l with credits := l.credits + 1 }

/-- A packet is dropped from those unacknowledged, and its credit returns. -/
def State.endPkt (s : State) (k : FabricPkt) : State :=
  ({ s with fabricPkts := s.fabricPkts.filter (fun (x : FabricPkt) => x.id != k.id) } : State).returnCredit k

/-- Every packet of an operation is dropped. -/
def State.dropPkts (s : State) (op : Nat) : State :=
  let gone := s.fabricPkts.filter (fun (k : FabricPkt) => k.op == op)
  gone.foldl State.returnCredit { s with fabricPkts := s.fabricPkts.filter (fun (k : FabricPkt) => k.op != op) }

/-! ### Faults and completion of an operation -/

def State.setOp (s : State) (o : FabricOp) : State :=
  { s with fabricOps := s.fabricOps.map (fun (x : FabricOp) => if x.id = o.id then o else x) }

def State.fabricOp (s : State) (id : Nat) : Option FabricOp := s.fabricOps.find? (fun (o : FabricOp) => o.id == id)

/-- An operation ends with a fault of its context (R369, R358). -/
def State.failFabric (s : State) (o : FabricOp) (code : Nat) (detail : W64) : State :=
  let s := ({ s with fabricOps := s.fabricOps.filter (fun (x : FabricOp) => x.id != o.id) } : State).dropPkts o.id
  s.atRank o.ctx.toNat o.rank (fun k =>
    k.noteFault { code := code, detail := detail, slot := o.slot, bundle := o.bundle, more := 0 })

/-- An operation is ready to complete with a status. -/
def State.finishFabric (s : State) (o : FabricOp) (status : Nat) : State :=
  (s.setOp { o with state := 1, fstatus := status }).dropPkts o.id

/-- An operation has nothing left to send: it is done once everything it has sent is acknowledged. -/
def State.closeOp (s : State) (id : Nat) : State :=
  match s.fabricOp id with
  | none => s
  | some o =>
    if s.fabricPkts.any (fun (k : FabricPkt) => k.op == id) then s.setOp { o with closing := true } else s.finishFabric o 0

/-- Messages of an operation to a peer, or `FABRIC_EDITION` where there can be no link. -/
def State.sendTo (s : State) (o : FabricOp) (peer : W16) (ms : List FabricMsg) : State :=
  match s.reach peer with
  | (s, .none) => s.failFabric o 11 (BitVec.ofNat 64 peer.toNat)
  | (s, _) => ms.foldl (fun s m => s.newPkt o peer m) s

/-- The operations with packets for a peer fault with `FABRIC_EDITION`, as the peer is not used (R49, R369).
(DESIGN CHOICE: log entry 61) -/
def State.failPeer (s : State) (peer : W16) : State :=
  let ids := (s.fabricPkts.filter (fun (k : FabricPkt) => k.peer == peer)).map FabricPkt.op
  let s := (s.fabricOps.filter (fun (o : FabricOp) => ids.contains o.id)).foldl
    (fun s o => s.failFabric o 11 (BitVec.ofNat 64 peer.toNat)) s
  { s with fabricPkts := s.fabricPkts.filter (fun (k : FabricPkt) => k.peer != peer) }

/-- Packets that have waited for a link go on (R368). -/
def State.linkOpened (s : State) (peer : W16) : State :=
  (s.fabricPkts.filter (fun (k : FabricPkt) => k.peer == peer && k.waiting)).foldl State.tryPkt s

/-! ### Writes from the fabric (R374) -/

/-- Whether bytes from a peer may be written for a context: within its polder, off the protected regions, in the scope
of the peer's credential. -/
def State.fabricWritable (s : State) (ctx : Nat) (scope : W16) (addr : W64) (n : Nat) : Bool :=
  let p := polderOf ctx
  s.rangeIn p addr n && !s.touchesGuarded p addr n && scope.toNat.testBit p

/-- The context of an open, joined member of a group. -/
def State.memberCtx (s : State) (group : W64) : Option (Nat × Ctx) :=
  s.ctxs.find? (fun x => x.2.state != 0 && (match x.2.group with
    | some g => g.ident == group
    | none => false))

/-! ### The collective engine (R370, R371) -/

def FabricOp.word (o : FabricOp) (i : Nat) : W64 := o.words.getD i 0
def FabricOp.leaves (o : FabricOp) : Nat := bits (o.word 4) 63 32
def FabricOp.firstLeaf (o : FabricOp) : Nat := bits (o.word 4) 31 0
def FabricOp.myLeaves (o : FabricOp) : Nat := bits (o.word 5) 63 32
def FabricOp.elements (o : FabricOp) : Nat := bits (o.word 5) 31 0

/-- The bytes of a collective's result. -/
def FabricOp.resultBytes (o : FabricOp) : Nat := if o.func = 4 then (o.word 3).toNat else 4 * o.elements

/-- The largest power of two that divides a leaf number above 0. -/
def lowBit (f : Nat) : Nat := Nat.gcd f (2 ^ 32)

/-- Whether two adjacent nodes are the children of one node of the Meridian tree over `l` leaves (R114). -/
def siblings (l : Nat) (a b : Nat × Nat) : Bool :=
  let c := a.2
  b.1 == a.1 + c && c != 0 && lowBit c == c && a.1 % (2 * c) == 0 && b.2 == min c (l - b.1)

/-- Two vectors added element by element, each element's events merged into what it has raised so far. -/
def addVectors (ev : List Ev) (a b : List W32) : List W32 × List Ev :=
  let rs := (a.zipIdx).map (fun x => add32 x.1 (b.getD x.2 0))
  (rs.map Prod.fst, rs.zipIdx.map (fun x => (ev.getD x.2 {}).merge x.1.2))

/-- A node joins the nodes held, latest first; children that are complete form their parent. -/
def pushNode (l : Nat) (ev : List Ev) : List (Nat × Nat × List W32) → Nat × Nat × List W32 →
    List (Nat × Nat × List W32) × List Ev
  | [], n => ([n], ev)
  | t :: r, n =>
    if siblings l (t.1, t.2.1) (n.1, n.2.1) then
      let x := addVectors ev t.2.2 n.2.2
      pushNode l x.2 r (t.1, t.2.1 + n.2.1, x.1)
    else (n :: t :: r, ev)

/-- Nodes in ascending order, combined as far as they are complete. -/
def collapse (l : Nat) (ev : List Ev) (ns : List (Nat × Nat × List W32)) : List (Nat × Nat × List W32) × List Ev :=
  ns.foldl (fun a n => pushNode l a.2 a.1 n) ([], ev)

/-- A node inserted among nodes held latest first. -/
def insertNode (n : Nat × Nat × List W32) : List (Nat × Nat × List W32) → List (Nat × Nat × List W32)
  | [] => [n]
  | t :: r => if t.1 < n.1 then n :: t :: r else t :: insertNode n r

/-- Whether a node is complete and its parent's leftmost leaf lies with an earlier member (R370). -/
def leavesHere (l first : Nat) (n : Nat × Nat × List W32) : Bool :=
  n.1 != 0 && n.2.1 == min (lowBit n.1) (l - n.1) && n.1 - lowBit n.1 < first

/-- The ranges of leaves that an operation holds or has added. -/
def FabricOp.holds (o : FabricOp) : List (Nat × Nat) :=
  o.nodes.map (fun n => (n.1, n.2.1)) ++ o.sums.flatMap FabricSum.added

/-- Whether a received node's range is one that the declared ranges allow: a node of the tree over L leaves that starts
after this member's leaves and that it does not hold yet. -/
def FabricOp.nodeFits (o : FabricOp) (first count : Nat) : Bool :=
  o.firstLeaf + o.myLeaves ≤ first && count != 0 && first + count ≤ o.leaves
    && count == min (lowBit first) (o.leaves - first)
    && !o.holds.any (fun n => n.1 < first + count && first < n.1 + n.2)

/-! ### Collectives in order of arrival (R338, R371) -/

/-- The node of the tree over `l` leaves under which a leaf leaves the member whose leaves begin at `first`, as (first
leaf, leaves), found by climbing from the node of level `k` at `a`; the root where it leaves under none. -/
def departs (l first : Nat) : Nat → Nat → Nat → Nat × Nat
  | 0, _, _ => (0, l)
  | n + 1, a, k =>
    let up := a / 2 ^ (k + 1) * 2 ^ (k + 1)
    if l ≤ 2 ^ k then (0, l) else if up < first then (a, min (2 ^ k) (l - a)) else departs l first n up (k + 1)

/-- A range joins ascending ranges; those that touch become one. -/
def joinRange (r : Nat × Nat) : List (Nat × Nat) → List (Nat × Nat)
  | [] => [r]
  | t :: rest =>
    if r.1 + r.2 < t.1 then r :: t :: rest
    else if t.1 + t.2 < r.1 then t :: joinRange r rest
    else joinRange (min r.1 t.1, max (r.1 + r.2) (t.1 + t.2) - min r.1 t.1) rest

/-- A node is added, as it arrives, to the sum of the node under which it leaves this member. An addition that the tree
would not make is a choice of result. (DESIGN CHOICE: log entry 63) -/
def State.addRelaxed (s : State) (o : FabricOp) (n : Nat × Nat × List W32) : State × FabricOp :=
  let d := departs o.leaves o.firstLeaf 33 n.1 0
  match o.sums.find? (fun (t : FabricSum) => t.first == d.1) with
  | none => (s, { o with sums := o.sums ++ [{ first := d.1, leaves := d.2, added := [(n.1, n.2.1)], sum := n.2.2 }] })
  | some t =>
    let before := n.1 < (t.added.headD (0, 0)).1
    let x := if before then addVectors o.events n.2.2 t.sum else addVectors o.events t.sum n.2.2
    let ofTree := match t.added with
      | [r] => siblings o.leaves r (n.1, n.2.1) || siblings o.leaves (n.1, n.2.1) r
      | _ => false
    let u := { t with added := joinRange (n.1, n.2.1) t.added, sum := x.1 }
    (if ofTree then s else s.resultChoice o.ctx.toNat,
      { o with sums := o.sums.map (fun (y : FabricSum) => if y.first = t.first then u else y), events := x.2 })

/-- Sums that every leaf of their node has joined are nodes. -/
def FabricOp.settle (o : FabricOp) : FabricOp :=
  let whole (t : FabricSum) : Bool := t.added == [(t.first, t.leaves)]
  { o with
    nodes := (o.sums.filter whole).foldl (fun ns t => insertNode (t.first, t.leaves, t.sum) ns) o.nodes
    sums := o.sums.filter (fun t => !whole t) }

/-! ### Nodes and results on their way -/

/-- The bytes of a result vector. -/
def vectorBytes (xs : List W32) : List Byte := xs.flatMap (fun x => toBytes 4 x.toNat)

/-- A collective's result is written at this member's `REMOTE_ADDR` (R370). -/
def State.writeResult (s : State) (o : FabricOp) (off : Nat) (bs : List Byte) : State :=
  s.writeView (ioFor (polderOf o.ctx.toNat)) (o.word 2 + BitVec.ofNat 64 off) bs

/-- Bytes cut into packets of 8 KiB, with their offsets. -/
def packets (bs : List Byte) : List (Nat × List Byte) :=
  (List.range ((bs.length + 8191) / 8192)).map (fun i => (8192 * i, (bs.drop (8192 * i)).take 8192))

/-- A node cut into packets of 8 KiB. -/
def nodePackets (coll : W64) (n : Nat × Nat × List W32) : List FabricMsg :=
  (List.range (max 1 ((n.2.2.length + 2047) / 2048))).map (fun i =>
    .node coll n.1 n.2.1 (2048 * i) ((n.2.2.drop (2048 * i)).take 2048))

/-- The result goes to every other member, and the operation is done when all have it. -/
def State.sendResult (s : State) (o : FabricOp) (bs : List Byte) : State :=
  match (s.ctx o.ctx.toNat).group with
  | none => s
  | some g =>
    let ms := (packets bs).map (fun x => FabricMsg.result o.collId x.1 x.2)
    ((g.members.eraseIdx g.mine).foldl (fun s m => if (s.fabricOp o.id).isNone then s else s.sendTo o m ms) s).closeOp o.id

/-- The root of a reduction is formed (R370). -/
def State.rootFormed (s : State) (o : FabricOp) (xs : List W32) : State :=
  let s := s.tally (polderOf o.ctx.toNat) (Tally.ofEvs o.events)
  let s := s.writeResult o 0 (vectorBytes xs)
  if o.func = 2 then s.sendResult o (vectorBytes xs) else s.closeOp o.id

/-- Nodes that are complete leave for the member that holds their parent's leftmost leaf (R370), which the members'
descriptors fix and this member's own does not name. (DESIGN CHOICE: log entry 62) -/
def State.sendNodes (s : State) (o : FabricOp) : State :=
  let go := o.nodes.filter (leavesHere o.leaves o.firstLeaf)
  let o' := { o with nodes := o.nodes.filter (fun n => !leavesHere o.leaves o.firstLeaf n) }
  let s := s.setOp o'
  match (s.ctx o.ctx.toNat).group with
  | none => s
  | some g =>
    let s := go.reverse.foldl (fun s n =>
      if (s.fabricOp o.id).isNone then s
      else
        let holder := Config.leafMember o.collId (n.1 - lowBit n.1) % max 1 g.mine
        s.sendTo o' (g.members.getD holder 0) (nodePackets o.collId n)) s
    if (s.fabricOp o.id).isSome && o'.nodes.isEmpty && o'.sums.isEmpty && o.func = 3 then
      (s.tally (polderOf o.ctx.toNat) (Tally.ofEvs o.events)).closeOp o.id
    else s

/-- A reduction goes on with the nodes that it holds. -/
def State.advance (s : State) (o : FabricOp) : State :=
  match o.nodes with
  | [n] => if n.1 = 0 ∧ n.2.1 = o.leaves then (s.setOp o).rootFormed o n.2.2 else (s.setOp o).sendNodes o
  | _ => (s.setOp o).sendNodes o

/-- A node received for a reduction in progress. -/
def State.takeNode (s : State) (o : FabricOp) (n : Nat × Nat × List W32) : State :=
  if !o.nodeFits n.1 n.2.1 || n.2.2.length != o.elements then s.finishFabric o 1
  else if (s.ctx o.ctx.toNat).relaxed then
    let r := s.addRelaxed o n
    r.1.advance r.2.settle
  else
    let x := collapse o.leaves o.events (insertNode n o.nodes).reverse
    s.advance { o with nodes := x.1, events := x.2 }

/-- Parts from position 0 on that leave no gap, as one list. -/
def joined {α : Type} (ps : List (Nat × List α)) : List α :=
  (sortBy (fun a b => a.1 ≤ b.1) ps).foldl (fun acc p => if p.1 = acc.length then acc ++ p.2 else acc) []

/-- A part of a node: the node is taken once it is whole (R372). -/
def State.takePart (s : State) (o : FabricOp) (first count pos : Nat) (xs : List W32) : State :=
  let key (p : Nat × Nat × Nat × List W32) : Bool := p.1 == first && p.2.1 == count
  let o := { o with parts := o.parts ++ [(first, count, pos, xs)] }
  let whole := joined ((o.parts.filter key).map (fun p => (p.2.2.1, p.2.2.2)))
  if whole.length < o.elements then s.setOp o
  else
    let o := { o with parts := o.parts.filter (fun p => !key p) }
    (s.setOp o).takeNode o (first, count, whole)

/-- A part of a result that may be written is written; with the last of them the operation completes. -/
def State.takeResult (s : State) (o : FabricOp) (off : Nat) (bs : List Byte) : State :=
  let o := { o with results := o.results ++ [(off, bs)] }
  let s := (s.setOp o).writeResult o off bs
  if (o.results.map (fun r => r.2.length)).sum < o.resultBytes then s else s.finishFabric o 0

/-! ### X.FABRIC at issue (R358, R369, R370) -/

/-- Whether a reduction's `COLL_ID` and `LEAVES` meet the declaration table (R358). -/
def Ctx.declared (c : Ctx) (ident : W64) (leaves : Nat) : Bool :=
  match c.decls.find? (fun d => d.kind == 1 && d.ident == ident) with
  | some d => d.leaves == leaves
  | none => c.csEd != 3

/-- The bytes that an operation sends from this polder, or the fault that stops it. (DESIGN CHOICE: log entry 63) -/
def State.sourceBytes (s : State) (p : Nat) (addr : W64) (n : Nat) : State × List Byte × Option (Nat × W64) :=
  if !s.rangeIn p addr n then (s, [], some (faultPolder, addr))
  else
    let r := s.readView (ioFor p) addr n
    match r.poison with
    | none => (r.state, r.data, none)
    | some a => (r.state, r.data.take ((a - addr).toNat / 256 * 256), some (faultUncorrectable, a))

/-- A PUT (R369): to a member on this Ikiroth it is written here, under the checks of R374.
(DESIGN CHOICE: log entry 62) -/
def State.startPut (s : State) (o : FabricOp) (g : Group) : State :=
  let p := polderOf o.ctx.toNat
  let src := s.sourceBytes p (o.word 1) (o.word 3).toNat
  let peer := g.members.getD (bits (o.word 0) 31 0) 0
  let s := src.1
  if peer = s.deviceId then
    match src.2.2 with
    | some f => s.failFabric o f.1 f.2
    | none =>
      if s.fabricWritable o.ctx.toNat 0xFFFF (o.word 2) src.2.1.length then
        (s.writeView (ioFor p) (o.word 2) src.2.1).finishFabric o 0
      else (s.bump (0x6200 + p) 8 1).finishFabric o 3
  else
    let s := s.sendTo o peer ((packets src.2.1).map (fun x => .put (o.word 2 + BitVec.ofNat 64 x.1) x.2))
    match src.2.2 with
    | some f => if (s.fabricOp o.id).isNone then s else s.failFabric o f.1 f.2
    | none => s.closeOp o.id

/-- A reduction's own leaves (R370), which in a relaxed context are the first to arrive (R371); what has come early
follows. -/
def State.startReduce (s : State) (o : FabricOp) : State :=
  let p := polderOf o.ctx.toNat
  let n := o.elements
  let src := s.sourceBytes p (o.word 1) (4 * n * o.myLeaves)
  match src.2.2 with
  | some f => src.1.failFabric o f.1 f.2
  | none =>
    if o.leaves < o.firstLeaf + o.myLeaves then src.1.finishFabric o 1
    else
      let leaf (i : Nat) : Nat × Nat × List W32 :=
        (o.firstLeaf + i, 1, (pieces 4 n ((src.2.1.drop (4 * n * i)).take (4 * n))).map (fun b => BitVec.ofNat 32 (ofBytes b)))
      let mine := collapse o.leaves [] ((List.range o.myLeaves).map leaf)
      let early := o.parts
      let o := { o with parts := [] }
      let s := if (src.1.ctx o.ctx.toNat).relaxed then
          let r := mine.1.reverse.foldl (fun a m => a.1.addRelaxed a.2 m) (src.1, { o with events := mine.2 })
          r.1.advance r.2.settle
        else src.1.advance { o with nodes := mine.1, events := mine.2 }
      early.foldl (fun s q => match s.fabricOp o.id with
        | some o => if o.state = 0 then s.takePart o q.1 q.2.1 q.2.2.1 q.2.2.2 else s
        | none => s) s

/-- A BROADCAST: the source member sends its bytes and writes them at its own result address; the others wait for what
has not come yet. (DESIGN CHOICE: log entry 63) -/
def State.startBroadcast (s : State) (o : FabricOp) (g : Group) : State :=
  if bits (o.word 0) 31 0 != g.mine then
    let early := o.results
    let o := { o with results := [] }
    early.foldl (fun s r => match s.fabricOp o.id with
      | some o => if o.state = 0 then s.takeResult o r.1 r.2 else s
      | none => s) (s.setOp o)
  else
    let src := s.sourceBytes (polderOf o.ctx.toNat) (o.word 1) (o.word 3).toNat
    match src.2.2 with
    | some f => src.1.failFabric o f.1 f.2
    | none => (src.1.writeResult o 0 src.2.1).sendResult o src.2.1

/-- A collective begins, or one that had ended under the same `COLL_ID` begins anew. -/
def State.reopenColl (s : State) (ctx : Nat) (coll : W64) : State :=
  s.onCtx ctx (fun c => { c with group := c.group.map (fun g => { g with ended := g.ended.filter (fun i => i != coll) }) })

/-- An operation that has issued begins; what has arrived early for its `COLL_ID` is taken into account.
(DESIGN CHOICE: log entry 63) -/
def State.startFabric (s : State) (o : FabricOp) : State :=
  let c := s.ctx o.ctx.toNat
  match c.group with
  | none => s
  | some g =>
    let early := if o.func = 1 then none
      else s.fabricOps.find? (fun (x : FabricOp) => x.state == 2 && x.ctx == o.ctx && x.collId == o.collId)
    let o := { o with parts := (early.map FabricOp.parts).getD [], results := (early.map FabricOp.results).getD [] }
    let s := { s with
      fabricOps := s.fabricOps.filter (fun (x : FabricOp) => some x.id != early.map FabricOp.id) ++ [o] }
    let s := if o.func = 1 then s else s.reopenColl o.ctx.toNat o.collId
    if (o.func = 2 ∨ o.func = 3) ∧ !c.declared o.collId o.leaves then s.failFabric o faultIllegal 3
    else if (early.map FabricOp.fstatus).getD 0 = 2 then
      s.finishFabric o 2
    else if o.func = 1 then s.startPut o g
    else if o.func = 4 then s.startBroadcast o g
    else s.startReduce o

/-! ### What arrives (R373, R374) -/

/-- The operation that a `COLL_ID` names: one in progress, or a place that holds what comes before it issues here.
(DESIGN CHOICE: log entry 63) -/
def State.early (s : State) (ctx : Nat) (coll : W64) : State × FabricOp :=
  match s.fabricOps.find? (fun (o : FabricOp) => o.ctx.toNat == ctx && o.collId == coll && o.collective && o.state == 0) with
  | some o => (s, o)
  | none =>
    match s.fabricOps.find? (fun (o : FabricOp) => o.ctx.toNat == ctx && o.collId == coll && o.state == 2) with
    | some o => (s, o)
    | none =>
      let o : FabricOp :=
        { id := s.nextId, ctx := BitVec.ofNat 12 ctx, rank := 0, tag := 0, descAt := 0, func := 0,
          words := [0, 0, 0, 0, 0, 0, coll, 0], nodes := [], sums := [], parts := [], results := [], closing := false,
          events := [], state := 2, fstatus := 0, slot := 0, bundle := 0 }
      ({ s with nextId := s.nextId + 1, fabricOps := s.fabricOps ++ [o] }, o)

/-- Whether a collective of a context has ended here. -/
def Ctx.endedColl (c : Ctx) (coll : W64) : Bool := c.group.any (fun g => g.ended.contains coll)

/-- A refused write of a peer. -/
def State.refuse (s : State) (src : W16) (packet : Nat) (p : Option Nat) : State :=
  let s := s.send (.fabricRefusal src packet)
  match p with
  | some p => s.bump (0x6200 + p) 8 1
  | none => s

/-- A packet of a peer is taken and acknowledged, which returns its credit (R372). -/
def State.accept (s : State) (src : W16) (packet : Nat) : State :=
  let s := match s.link src with
    | none => s
    | some l => s.putLink { l with taken := l.taken ++ [packet] }
  s.send (.fabricAck src packet)

/-- The segments of a message that reached the controller with their CRC-32C (R363, R364).
(DESIGN CHOICE: log entry 76) -/
def segmentsOk (sent arrived : List Byte) : Bool :=
  sent.length == arrived.length
    && (List.range ((sent.length + 255) / 256)).all (fun i =>
      crc32c ((sent.drop (256 * i)).take 256) == crc32c ((arrived.drop (256 * i)).take 256))

/-- A part of a result arrives for a context in a peer's scope (R370, R374). -/
def State.resultArrives (s : State) (src : W16) (packet n : Nat) (scope : W16) (coll : W64) (off : Nat) (bs : List Byte) :
    State :=
  if (s.ctx n).endedColl coll then s.accept src packet
  else
    let r := s.early n coll
    if r.2.state = 2 then
      if scope.toNat.testBit (polderOf n) then
        (r.1.setOp { r.2 with results := r.2.results ++ [(off, bs)] }).accept src packet
      else s.refuse src packet (some (polderOf n))
    else if r.2.resultBytes < off + bs.length ∨ r.2.func = 3
        ∨ !s.fabricWritable n scope (r.2.word 2 + BitVec.ofNat 64 off) bs.length then
      s.refuse src packet (some (polderOf n))
    else (s.takeResult r.2 off bs).accept src packet

/-- A part of a node arrives for a context. -/
def State.nodeArrives (s : State) (src : W16) (packet n : Nat) (coll : W64) (first count pos : Nat) (xs : List W32) : State :=
  let s := s.accept src packet
  if (s.ctx n).endedColl coll then s
  else
    let r := s.early n coll
    if r.2.state = 0 then r.1.takePart r.2 first count pos xs
    else r.1.setOp { r.2 with parts := r.2.parts ++ [(first, count, pos, xs)] }

/-- A packet of a peer for a member of a group on this Ikiroth (R364, R374): without a member or a link it is refused; one
that has been taken is acknowledged again; one whose segments fail their check is left for the peer to send again. -/
def State.forMember (s : State) (src : W16) (group : W64) (packet : Nat) (sent arrived : List Byte)
    (f : Nat → Ctx → FabricLink → State) : State :=
  match s.memberCtx group, s.link src with
  | none, _ => s.refuse src packet none
  | some (n, _), none => s.refuse src packet (some (polderOf n))
  | some (n, c), some l =>
    if l.taken.contains packet then s.send (.fabricAck src packet)
    else if !segmentsOk sent arrived then s.event 0x6010 0 1
    else f n c l

/-- A fabric packet arrives. -/
def State.fabricArrives (s : State) : FabricPacket → State
  | .put src group member packet addr data arrived =>
    s.forMember src group packet data arrived (fun n c l =>
      if c.group.any (fun g => g.mine == member.toNat) && s.fabricWritable n l.scope addr data.length then
        (s.writeView (ioFor (polderOf n)) addr arrived).accept src packet
      else s.refuse src packet (some (polderOf n)))
  | .node src group coll packet first leaves pos elements =>
    s.forMember src group packet [] [] (fun n _ _ => s.nodeArrives src packet n coll first.toNat leaves.toNat pos elements)
  | .result src group coll packet off data arrived =>
    s.forMember src group packet data arrived (fun n _ l => s.resultArrives src packet n l.scope coll off arrived)
  | .ack packet =>
    match s.fabricPkts.find? (fun (k : FabricPkt) => k.id == packet) with
    | none => s
    | some k =>
      let s := s.endPkt k
      match s.fabricOp k.op with
      | none => s
      | some o => if o.closing then s.closeOp o.id else s
  | .refusal packet =>
    match s.fabricPkts.find? (fun (k : FabricPkt) => k.id == packet) with
    | none => s
    | some k =>
      let s := s.endPkt k
      match s.fabricOp k.op with
      | none => s
      | some o => s.finishFabric o 3

/-- An abort from a member (R373): of a collective that has not ended here. -/
def State.fabricAborts (s : State) (group coll : W64) : State :=
  match s.memberCtx group with
  | none => s
  | some (n, c) =>
    if c.endedColl coll || s.fabricOps.any (fun (o : FabricOp) => o.ctx.toNat == n && o.collId == coll && o.collective && o.state == 1) then s
    else
      let r := s.early n coll
      if r.2.state = 0 then r.1.finishFabric r.2 2 else r.1.setOp { r.2 with fstatus := 2 }

/-- A frame of a packet that ended with an inverted FCS because a segment's check failed (R365): the segment is read
again, up to `RETRY_LIMIT` times. (DESIGN CHOICE: log entry 76) -/
def State.crcOut (s : State) (fails : Nat) : State := s.event 0x6010 1 (min fails (s.entry 0x6000 6 + 1))

/-- A packet unacknowledged after `RTO` (R369, R372). (DESIGN CHOICE: log entry 62) -/
def State.fabricRto (s : State) (packet crcFails : Nat) : State :=
  match s.fabricPkts.find? (fun (k : FabricPkt) => k.id == packet && !k.waiting) with
  | none => s
  | some k =>
    let s := s.crcOut crcFails
    if s.entry 0x6000 6 ≤ k.retries + 1 then
      ({ s with links := s.links.filter (fun (l : FabricLink) => l.peer != k.peer) } : State).failPeer k.peer
    else
      let k' := { k with retries := k.retries + 1, path := some (s.escapePort k.peer, 16) }
      ((s.putPkt k').bump (0x6200 + polderOf k.ctx.toNat) 7 1).sendPkt k'

/-- A packet that has waited `ESCAPE_WAIT` takes the escape path (R372). -/
def State.fabricEscape (s : State) (packet : Nat) : State :=
  match s.fabricPkts.find? (fun (k : FabricPkt) => k.id == packet && k.waiting) with
  | none => s
  | some k =>
    if (s.link k.peer).isNone then s else s.launch { k with path := some (s.escapePort k.peer, 16) } false

/-- A ready operation completes: `FSTATUS` in its descriptor, its tag free (R369); one that a member has aborted is
counted (R377). -/
def State.endFabric (s : State) (o : FabricOp) : State :=
  let s := { s with fabricOps := s.fabricOps.filter (fun (x : FabricOp) => x.id != o.id) }
  let s := if o.collective then
      s.onCtx o.ctx.toNat (fun c => { c with group := c.group.map (fun g => { g with ended := g.ended ++ [o.collId] }) })
    else s
  let s := if o.fstatus = 2 then s.bump (0x6200 + polderOf o.ctx.toNat) 9 1 else s
  s.atRank o.ctx.toNat o.rank (fun k =>
    let a := o.descAt + 56
    (k.setScalar a ((k.scalar a >>> 8) <<< 8 ||| BitVec.ofNat 64 (o.fstatus % 256))).freeTag o.tag)

end Sys2Proof.Machine
end

