-- ==== Sys2Proof/Machine/Media.lean ====
section
/-! DEFINITION. The media engines (18_media.md): stream contexts, jobs, picture formats, the colour conversion, and what a
damaged stream gives. What the HEVC and AV1 standards define is uninterpreted (log entry 6). -/

namespace Sys2Proof.Machine

/-! ### OPEN words (R380) and geometry (R386) -/

/-- The OPEN parameters of a stream. -/
structure OpenWords where
  encode : Bool
  av1 : Bool
  chroma : Nat
  depth10 : Bool
  width : Nat
  height : Nat
  matrix : Nat
  full : Bool
  native : Bool
  slots : Nat
  stateAddr : W64
  picAddr : W64
  qp : Nat
  period : Nat

def openOf (ws : List W64) : OpenWords :=
  let w (i : Nat) : W64 := ws.getD i 0
  { encode := (w 1).getLsbD 63, av1 := (w 1).getLsbD 62, chroma := bits (w 1) 61 60, depth10 := (w 1).getLsbD 59,
    width := bits (w 1) 58 45, height := bits (w 1) 44 31, matrix := bits (w 1) 30 29, full := (w 1).getLsbD 28,
    native := (w 1).getLsbD 27, slots := bits (w 1) 26 22, stateAddr := w 2, picAddr := w 3, qp := bits (w 4) 63 56,
    period := bits (w 4) 55 40 }

def OpenWords.depth (o : OpenWords) : Nat := if o.depth10 then 10 else 8

/-- The parameters that the coding sees. -/
def OpenWords.coding (o : OpenWords) : Config.Coding :=
  { av1 := o.av1, chroma := o.chroma, depth := o.depth, width := o.width, height := o.height, matrix := o.matrix,
    full := o.full, slots := o.slots, qp := o.qp, period := o.period }

/-- Horizontal and vertical shift of the chroma planes. -/
def OpenWords.shifts (o : OpenWords) : Nat × Nat :=
  match o.chroma with
  | 0 => (1, 1)
  | 1 => (1, 0)
  | _ => (0, 0)

/-- Bytes of a row and of a plane of a native picture (R386). -/
def rowBytesOf (w : Nat) : Nat := (2 * w + 63) / 64 * 64
def planeBytes (w h : Nat) : Nat := (rowBytesOf w * h + 2047) / 2048 * 2048

/-- The size of a chroma plane of a picture; a part column or row has a sample of its own. -/
def OpenWords.chromaSize (o : OpenWords) (w h : Nat) : Nat × Nat :=
  ((w + 2 ^ o.shifts.1 - 1) / 2 ^ o.shifts.1, (h + 2 ^ o.shifts.2 - 1) / 2 ^ o.shifts.2)

/-- Bytes of a native picture (R386). -/
def OpenWords.pictureBytes (o : OpenWords) (w h : Nat) : Nat :=
  let c := o.chromaSize w h
  planeBytes w h + (if o.chroma = 3 then 0 else 2 * planeBytes c.1 c.2)

def OpenWords.slotBytes (o : OpenWords) : Nat := o.pictureBytes o.width o.height

def OpenWords.slotAddr (o : OpenWords) (i : Nat) : W64 := o.picAddr + BitVec.ofNat 64 (i * o.slotBytes)

/-- Whether a region leaves the polder or overlaps one that R231, R326 or R360 protects (R382).
(DESIGN CHOICE: log entry 60) -/
def State.mediaBad (s : State) (p : Nat) (a : W64) (n : Nat) : Bool :=
  !s.rangeIn p a n || s.touches p a n (s.guardedByte p)

/-- `BAD_PARAM` of an OPEN. (DESIGN CHOICE: log entry 60) -/
def State.openBad (s : State) (p : Nat) (o : OpenWords) : Bool :=
  o.width < 16 || 8192 < o.width || o.height < 16 || 4320 < o.height || o.matrix == 3 || (o.encode && o.matrix == 2)
    || o.slots < 2 || 17 < o.slots || o.stateAddr.toNat % 2048 != 0 || o.picAddr.toNat % 2048 != 0
    || (o.encode && !o.av1 && 51 < o.qp)
    || s.mediaBad p o.stateAddr 196608 || s.mediaBad p o.picAddr (o.slots * o.slotBytes)

/-- Whether codec and chroma lie outside R378. -/
def OpenWords.unsupported (o : OpenWords) : Bool := if o.av1 then o.chroma == 1 else o.chroma == 3

/-- The profiles of R378 with their chroma formats and depths. -/
def profileAllows (av1 : Bool) (p : Config.Profile) (chroma depth : Nat) : Bool :=
  (depth == 8 || depth == 10) && (match p with
    | .main => !av1 && chroma == 0 && depth == 8
    | .main10 => !av1 && chroma == 0
    | .main422 => !av1 && chroma == 1
    | .main444 => !av1 && chroma == 2
    | .av1Main => av1 && (chroma == 0 || chroma == 3)
    | .av1High => av1 && chroma == 2
    | .other => false)

/-- Whether a stream lies within R378, a picture within the stream's size, and its needs within its slots (R382).
(DESIGN CHOICE: log entry 60) -/
def OpenWords.supports (o : OpenWords) (h : Config.Head) : Bool :=
  profileAllows o.av1 h.profile h.chroma h.depth && h.level ≤ (if o.av1 then 63 else 62)
    && h.chroma == o.chroma && h.depth == o.depth && h.width ≤ o.width && h.height ≤ o.height && h.slots ≤ o.slots

/-! ### Colour conversion (R387, R388) -/

/-- The FP32 value nearest an exact rational. -/
def ratio32 (neg : Bool) (n d : Nat) : W32 :=
  let r := (write32 [] ((Fv.ofInt n 0).div (Fv.ofInt d 0))).1
  if neg then neg32 r else r

/-- Kr, Kb and Kg in ten-thousandths. -/
def lumaWeights (bt2020 : Bool) : Nat × Nat × Nat := if bt2020 then (2627, 593, 6780) else (2126, 722, 7152)

def intFv (z : Int) : W32 := (write32 [] (Fv.ofInt z 0)).1

/-- A plane's bytes from its samples, row by row. -/
def planeOf (w h : Nat) (f : Nat → Nat → Nat) : List Byte :=
  padTo (planeBytes w h)
    ((List.range h).flatMap (fun y => padTo (rowBytesOf w) ((List.range w).flatMap (fun x => toBytes 2 (f x y)))))

/-- The planes of a picture, by number. -/
def OpenWords.planes (o : OpenWords) : List Nat := if o.chroma = 3 then [0] else [0, 1, 2]

/-- The size of a plane of a picture. -/
def OpenWords.planeSize (o : OpenWords) (w h plane : Nat) : Nat × Nat := if plane = 0 then (w, h) else o.chromaSize w h

/-- A native picture from its samples by plane, column and row. -/
def OpenWords.picture (o : OpenWords) (w h : Nat) (f : Nat → Nat → Nat → Nat) : List Byte :=
  o.planes.flatMap (fun c => planeOf (o.planeSize w h c).1 (o.planeSize w h c).2 (f c))

/-- The byte of a sample in a native picture. -/
def OpenWords.sampleByte (o : OpenWords) (w h plane x y : Nat) : Nat :=
  (match plane with
    | 0 => 0
    | c + 1 => planeBytes w h + c * planeBytes (o.chromaSize w h).1 (o.chromaSize w h).2)
    + y * rowBytesOf (o.planeSize w h plane).1 + 2 * x

/-- A sample of a native picture. -/
def OpenWords.sample (o : OpenWords) (w h : Nat) (pic : List Byte) (plane x y : Nat) : Nat :=
  fieldAt pic (o.sampleByte w h plane x y) 2

/-- The three BF16 values of one pixel (R387). -/
def toRgb (n : Nat) (full bt2020 : Bool) (y cb cr : Nat) : List Nat :=
  let k := lumaWeights bt2020
  let sub (a b : Nat) : W32 := intFv ((a : Int) - b)
  let den (x : Nat) : W32 := intFv x
  let sc := 2 ^ (n - 8)
  let fy := if full then (div32 (intFv y) (den (2 ^ n - 1))).1 else (div32 (sub y (16 * sc)) (den (219 * sc))).1
  let chroma (c : Nat) : W32 :=
    if full then (div32 (sub c (2 ^ (n - 1))) (den (2 ^ n - 1))).1
    else (div32 (sub c (128 * sc)) (den (224 * sc))).1
  let u := chroma cb
  let v := chroma cr
  let krv := ratio32 false (2 * (10000 - k.1)) 10000
  let kbu := ratio32 false (2 * (10000 - k.2.1)) 10000
  let kgu := ratio32 true (k.2.1 * 2 * (10000 - k.2.1)) (k.2.2 * 10000)
  let kgv := ratio32 true (k.1 * 2 * (10000 - k.1)) (k.2.2 * 10000)
  let r := (fma32 krv v fy).1
  let g := (fma32 kgv v (fma32 kgu u fy).1).1
  let b := (fma32 kbu u fy).1
  [r, g, b].map (fun e => (narrow bf16 .near true (fma32 0x40000000#32 e 0xBF800000#32).1).1)

/-- One row of a decoded picture in the tile layout, with its zeros to the next multiple of 64 (R387). -/
def OpenWords.rgbRow (o : OpenWords) (bt2020 : Bool) (pic : List Byte) (w h y : Nat) : List Byte :=
  let sh := o.shifts
  let px (x : Nat) : List Byte :=
    let chroma (plane : Nat) : Nat :=
      if o.chroma = 3 then 2 ^ (o.depth - 1) else o.sample w h pic plane (x / 2 ^ sh.1) (y / 2 ^ sh.2)
    (toRgb o.depth o.full bt2020 (o.sample w h pic 0 x y) (chroma 1) (chroma 2)).flatMap (toBytes 2)
  padTo ((6 * w + 63) / 64 * 64) ((List.range w).flatMap px)

/-- A BF16 sample of the picture to be coded as E of R388, and whether it is a NaN. -/
def fromBf16 (code : Nat) : W32 × Bool :=
  let v := widen bf16 code
  if isNan32 v then (0x3F000000#32, true)
  else
    let e := (mul32 (add32 v 0x3F800000#32).1 0x3F000000#32).1
    (if lt32 e 0 then 0 else if lt32 0x3F800000#32 e then 0x3F800000#32 else e, false)

/-- Yf, Uf, Vf of a pixel (R388). -/
def fromRgb (bt2020 : Bool) (r g b : W32) : W32 × W32 × W32 :=
  let k := lumaWeights bt2020
  let w (n : Nat) : W32 := ratio32 false n 10000
  let y := (fma32 (w k.1) r (fma32 (w k.2.2) g (mul32 (w k.2.1) b).1).1).1
  let krv := ratio32 false (2 * (10000 - k.1)) 10000
  let kbu := ratio32 false (2 * (10000 - k.2.1)) 10000
  (y, (div32 (sub32 b y).1 kbu).1, (div32 (sub32 r y).1 krv).1)

/-- rint and clamp of R388. -/
def sampleOf (n : Nat) (x : W32) : Nat := min (2 ^ n - 1) (toI32 .near (fv32 x)).toInt.toNat

def lumaSample (n : Nat) (full : Bool) (y : W32) : Nat :=
  let sc := 2 ^ (n - 8)
  sampleOf n (if full then (mul32 y (intFv (2 ^ n - 1 : Nat))).1 else (fma32 y (intFv (219 * sc : Nat)) (intFv (16 * sc : Nat))).1)

def chromaSample (n : Nat) (full : Bool) (u : W32) : Nat :=
  let sc := 2 ^ (n - 8)
  sampleOf n (if full then (fma32 u (intFv (2 ^ n - 1 : Nat)) (intFv (2 ^ (n - 1) : Nat))).1
    else (fma32 u (intFv (224 * sc : Nat)) (intFv (128 * sc : Nat))).1)

def average (a b : W32) : W32 := (mul32 (add32 a b).1 0x3F000000#32).1

/-- The native picture of a frame in the tile layout, and its NaN values (R388). `rows` holds each row's bytes. -/
def OpenWords.fromTile (o : OpenWords) (rows : List (List Byte)) : List Byte × Nat :=
  let vals := rows.map (fun r => (pieces 2 (3 * o.width) r).map (fun b => fromBf16 (ofBytes b)))
  let nans := vals.foldl (fun a r => a + (r.filter Prod.snd).length) 0
  let yuv := vals.map (fun r => (pieces 3 o.width (r.map Prod.fst)).map (fun e =>
    fromRgb (o.matrix == 1) (e.getD 0 0) (e.getD 1 0) (e.getD 2 0)))
  let at' (x y : Nat) : W32 × W32 × W32 := ((yuv.getD (min y (o.height - 1)) []).getD (min x (o.width - 1)) (0, 0, 0))
  let cell (pick : W32 × W32 × W32 → W32) (x y : Nat) : W32 :=
    match o.chroma with
    | 0 => average (average (pick (at' (2 * x) (2 * y))) (pick (at' (2 * x + 1) (2 * y))))
             (average (pick (at' (2 * x) (2 * y + 1))) (pick (at' (2 * x + 1) (2 * y + 1))))
    | 1 => average (pick (at' (2 * x) y)) (pick (at' (2 * x + 1) y))
    | _ => pick (at' x y)
  (o.picture o.width o.height (fun plane x y => match plane with
    | 0 => lumaSample o.depth o.full (at' x y).1
    | 1 => chromaSample o.depth o.full (cell (fun t => t.2.1) x y)
    | _ => chromaSample o.depth o.full (cell (fun t => t.2.2) x y)), nans)

/-- A native picture at its coded size (R389): HEVC repeats the last row and column up to multiples of 8. -/
def OpenWords.padded (o : OpenWords) (pic : List Byte) : List Byte :=
  if o.av1 then pic
  else o.picture ((o.width + 7) / 8 * 8) ((o.height + 7) / 8 * 8) (fun plane x y =>
    let z := o.planeSize o.width o.height plane
    o.sample o.width o.height pic plane (min x (z.1 - 1)) (min y (z.2 - 1)))

/-! ### Reads that mark poison (R392) -/

/-- `n` bytes from an address with the bytes of poisoned words marked. -/
def State.readMarked (s : State) (r : Requester) (addr : W64) (n : Nat) : State × List (Option Byte) :=
  let a := addr.toNat
  let r := r.entering (s.resolve r.polder addr)
  let go := (wordsOf a n).foldl (fun (acc : State × List (List (Option Byte))) cw =>
    match acc.1.resolve r.polder (BitVec.ofNat 64 (64 * cw)) with
    | none => (acc.1, List.replicate 64 none :: acc.2)
    | some ph =>
      let s1 := if beginsBurst (a / 64) cw then acc.1.burst ph else acc.1
      let w := s1.readWord r (ph / 64)
      (w.state, (if w.poisoned then List.replicate 64 none else w.data.map some) :: acc.2)) (s, [])
  (go.1, (go.2.reverse.flatten.drop (a % 64)).take n)

/-- The bytes of a picture that a slot keeps, read as one transfer (R13). (DESIGN CHOICE: log entry 60) -/
def State.readKept (s : State) (p : Nat) (o : OpenWords) (k : Config.Kept) : State × List (Option Byte) :=
  s.readMarked (ioFor p) (o.slotAddr k.slot) (o.pictureBytes k.width k.height)

/-! ### Damaged streams (R390 to R392) -/

/-- What reading the syntax of a unit comes to: whether an error stopped it anywhere, and the CTUs or superblocks that it
codes, in decoding order. -/
structure UnitSyntax where
  failed : Bool
  units : List Nat

/-- The bytes from a place of a unit up to its next poisoned byte or its end. -/
def readable (unit : List (Option Byte)) (pos : Nat) : List Byte :=
  ((unit.drop pos).takeWhile Option.isSome).map (fun b => b.getD 0)

/-- The first start code of a unit at or after a place. -/
def nextStart (unit : List (Option Byte)) (pos : Nat) : Option Nat :=
  (List.range unit.length).find? (fun i => pos ≤ i && (unit.drop i).take 3 == [some 0, some 0, some 1])

/-- The syntax of a unit from a place (R390, R392): an error, or a poisoned byte, ends an AV1 frame; in HEVC the reading
goes on at the next start code where that begins a slice segment of the picture. -/
def readSyntax (c : Config.Coding) (unit : List (Option Byte)) : Nat → List Byte → Nat → UnitSyntax
  | 0, _, _ => { failed := false, units := [] }
  | n + 1, st, pos =>
    if unit.length ≤ pos then { failed := false, units := [] }
    else
      let bytes := readable unit pos
      let p := Config.parse c st bytes
      let failed := bytes.isEmpty || p.failed
      let here := p.segment.getD []
      let past := pos + max 1 p.read
      let next : Option Nat :=
        if !failed then some past
        else if c.av1 then none
        else match nextStart unit past with
          | none => none
          | some q => if (Config.parse c p.state (readable unit q)).segment.isSome then some q else none
      match next with
      | none => { failed := failed, units := here }
      | some q =>
        let r := readSyntax c unit n p.state q
        { failed := failed || r.failed, units := here ++ r.units }

/-- The number of the CTU or superblock, of a side, that holds a sample of a picture. -/
def OpenWords.unitAt (o : OpenWords) (w side plane x y : Nat) : Nat :=
  let sh := if plane = 0 then (0, 0) else o.shifts
  y * 2 ^ sh.2 / side * ((w + side - 1) / side) + x * 2 ^ sh.1 / side

/-- How many there are in a picture. -/
def unitsIn (w h side : Nat) : Nat := (w + side - 1) / side * ((h + side - 1) / side)

/-- The samples of a picture by plane, column and row. -/
def OpenWords.places (o : OpenWords) (w h : Nat) : List (Nat × Nat × Nat) :=
  o.planes.flatMap (fun c => (List.range (o.planeSize w h c).2).flatMap (fun y =>
    (List.range (o.planeSize w h c).1).map (fun x => (c, x, y))))

/-- A sample of a marked picture at a place, or the nearest that it has; none where a byte of it is poisoned. -/
def OpenWords.markedSample (o : OpenWords) (k : Config.Kept) (pic : List (Option Byte)) (plane x y : Nat) : Option Nat :=
  let z := o.planeSize k.width k.height plane
  let i := o.sampleByte k.width k.height plane (min x (z.1 - 1)) (min y (z.2 - 1))
  match pic.getD i none, pic.getD (i + 1) none with
  | some a, some b => some (a.toNat * 256 + b.toNat)
  | _, _ => none

/-- The units of a picture whose co-located area of a marked picture holds a poisoned byte. -/
def OpenWords.poisonedUnits (o : OpenWords) (w h side : Nat) (k : Config.Kept) (pic : List (Option Byte)) : List Nat :=
  ((o.places w h).filter (fun e => (o.markedSample k pic e.1 e.2.1 e.2.2).isNone)).map
    (fun e => o.unitAt w side e.1 e.2.1 e.2.2)

/-- What conceals a unit (R391, R392): the co-located area of the last good reference, mid-grey where there is none or the
copy would read a poisoned word. -/
def OpenWords.concealment (o : OpenWords) (w h side : Nat) (src : Option (Config.Kept × List (Option Byte))) : List Byte :=
  let grey := 2 ^ (o.depth - 1)
  match src with
  | none => o.picture w h (fun _ _ _ => grey)
  | some (k, pic) =>
    let bad := o.poisonedUnits w h side k pic
    o.picture w h (fun plane x y =>
      if bad.contains (o.unitAt w side plane x y) then grey else (o.markedSample k pic plane x y).getD grey)

/-- A picture that takes some units from one picture and the others from another. -/
def OpenWords.compose (o : OpenWords) (w h side : Nat) (pick : Nat → Bool) (a b : List Byte) : List Byte :=
  o.picture w h (fun plane x y =>
    o.sample w h (if pick (o.unitAt w side plane x y) then a else b) plane x y)

/-! ### The state of an engine -/

/-- The dictionary block of an engine (R393). -/
def engineIndex (e : Nat) : Nat := 0x8100 + 64 * e

def State.onEngine (s : State) (e : Nat) (f : Engine → Engine) : State := s.setEngine e (f (s.engine e))

def State.setStream (s : State) (e n : Nat) (x : Stream) : State :=
  s.onEngine e (fun g => { g with streams := tblPut g.streams n x })

def MediaJob.word (j : MediaJob) (i : Nat) : W64 := j.words.getD i 0
def MediaJob.func (j : MediaJob) : Nat := bits (j.word 0) 63 60
def MediaJob.stream (j : MediaJob) : Nat := bits (j.word 0) 57 48

/-- The stream state that leaves an engine is written at its `STATE_ADDR` (R383). -/
def State.switchOut (s : State) (e n : Nat) : State :=
  match tblFind (s.engine e).streams n with
  | none => s
  | some x => s.writeView (ioFor x.polder) (openOf x.words).stateAddr x.state

/-- The stream state that comes in is read from it; what a poisoned word of it gives is a free value.
(DESIGN CHOICE: log entry 60) -/
def State.switchIn (s : State) (e n : Nat) : State :=
  match tblFind (s.engine e).streams n with
  | none => s
  | some x =>
    let r := s.readView (ioFor x.polder) (openOf x.words).stateAddr 196608
    match r.poison with
    | none => r.state.setStream e n { x with state := r.data }
    | some _ =>
      let v : BitVec 1572864 := r.state.freeVal 1572864
      r.state.usedFree.setStream e n { x with state := toBytes 196608 v.toNat }

/-- An engine takes the job at the head of its queue, switching first where its stream differs (R383).
(DESIGN CHOICE: log entry 60) -/
def State.startMedia (s : State) (e : Nat) : State :=
  let g := s.engine e
  match g.running, g.queue with
  | none, j :: rest =>
    let s := (s.setEngine e { g with
      queue := rest, running := some j, switching := g.lastStream.any (fun n => n != j.stream),
      lastStream := some j.stream }).mark (engineIndex e + 2) 4
    match g.lastStream with
    | none => s
    | some n =>
      if n = j.stream then s else ((s.switchOut e n).switchIn e j.stream).bump (engineIndex e + 2) 3 1
  | _, _ => s

/-! ### Completion (R381, R382, R393, R394) -/

/-- What a job gives: `MSTATUS`, and the descriptor words it has filled in, as (index, word). -/
structure JobEnd where
  state : State
  status : Nat
  words : List (Nat × W64)

def JobEnd.fail (s : State) (status : Nat) : JobEnd := { state := s, status := status, words := [] }

/-- An OPEN job. (DESIGN CHOICE: log entry 60) -/
def State.mediaOpens (s : State) (e : Nat) (j : MediaJob) : JobEnd :=
  let o := openOf j.words
  if (tblFind (s.engine e).streams j.stream).isSome then .fail s 3
  else if s.openBad j.polder o then .fail s 7
  else if o.unsupported then .fail (s.event (engineIndex e + 1) 5 (if o.encode then 0 else 1)) 1
  else
    { state := s.setStream e j.stream
        { polder := j.polder, words := j.words, next := 0, state := padTo 196608 [], holds := [], last := none,
          good := none },
      status := 0, words := [] }

/-- A write of a picture in the tile layout: each row is a transfer of its own (R13). (DESIGN CHOICE: log entry 60) -/
def State.writeRows (s : State) (p : Nat) (a : W64) (pitch : Nat) (rows : List (List Byte)) : State :=
  rows.zipIdx.foldl (fun s r => s.writeView (ioFor p) (a + BitVec.ofNat 64 (r.2 * pitch)) r.1) s

/-- Bytes that a picture in the tile layout spans. -/
def tileSpan (w h pitch : Nat) : Nat := (h - 1) * pitch + (6 * w + 63) / 64 * 64

/-- The lowest picture slot that no reference keeps. (DESIGN CHOICE: log entry 60) -/
def freeSlot (n : Nat) (kept : List Nat) : Option Nat := (List.range n).find? (fun i => !kept.contains i)

/-- The pictures that a unit's prediction reads, one for each reference that its headers declare, and the flags that a
missing one sets (R391): the last decoded picture replaces it, or mid-grey where the stream has decoded none. -/
def State.readRefs (s : State) (p : Nat) (o : OpenWords) (h : Config.Head) (last : Option Config.Kept) :
    State × List (List (Option Byte)) × Nat :=
  h.refs.foldl (fun (a : State × List (List (Option Byte)) × Nat) ref =>
    match ref.or last with
    | some k =>
      let r := a.1.readKept p o k
      (r.1, a.2.1 ++ [r.2], if ref.isSome then a.2.2 else a.2.2 ||| 4)
    | none => (a.1, a.2.1 ++ [(o.concealment h.width h.height h.side none).map some], a.2.2 ||| 12))
    (s, [], 0)

/-- A decoded picture, its flags, its lost units. -/
structure Decoded where
  state : State
  pic : List Byte
  flags : Nat
  lost : Nat

/-- The concealment that some lost units take: the last good reference is read for it. -/
def State.conceal (s : State) (p : Nat) (o : OpenWords) (h : Config.Head) (good : Option Config.Kept) (lost : List Nat) :
    State × List Byte :=
  match good with
  | some k =>
    if lost = [] then (s, o.concealment h.width h.height h.side none)
    else
      let r := s.readKept p o k
      (r.1, o.concealment h.width h.height h.side (some (k, r.2)))
  | none => (s, o.concealment h.width h.height h.side none)

/-- The picture that a unit codes (R390 to R392). A CTU or superblock is lost where no part of the unit codes it, or where
its prediction reads a poisoned word. (DESIGN CHOICE: log entry 6) -/
def State.decodeUnit (s : State) (p : Nat) (o : OpenWords) (x : Stream) (h : Config.Head) (unit : List (Option Byte)) :
    Decoded :=
  let c := o.coding
  let refs := s.readRefs p o h x.last
  let syn := readSyntax c unit unit.length x.state 0
  let poisoned (n : Nat) : Bool :=
    (Config.predictionReads c x.state unit n).any (fun e => ((refs.2.1.getD e.1 []).getD e.2 none).isNone)
  let all := List.range (unitsIn h.width h.height h.side)
  let missing := all.filter (fun n => !syn.units.contains n)
  let lost := all.filter (fun n => missing.contains n || poisoned n)
  let base := refs.1.conceal p o h x.good lost
  let plain := refs.2.1.map (fun r => r.map (fun b => b.getD 0))
  let coded := syn.units.foldl (fun pic n =>
    if lost.contains n then pic
    else o.compose h.width h.height h.side (fun m => m == n) (Config.reconstruct c x.state unit plain pic n) pic) base.2
  { state := base.1
    pic := o.compose h.width h.height h.side lost.contains base.2 (Config.loopFilter c x.state unit coded)
    flags := (if syn.failed || !missing.isEmpty then 1 else 0) ||| (if lost.isEmpty then 0 else 2) ||| refs.2.2
      ||| (if unit.any Option.isNone then 17 else 0) ||| (if h.hidden then 32 else 0)
    lost := lost.length }

/-- The picture that show_existing_frame shows (R381), its poisoned units concealed (R392). -/
def State.showFrame (s : State) (p : Nat) (o : OpenWords) (x : Stream) (h : Config.Head) (unit : List (Option Byte))
    (k : Config.Kept) : Decoded :=
  let r := s.readKept p o k
  let lost := (o.poisonedUnits h.width h.height h.side k r.2).dedup
  let base := r.1.conceal p o h x.good lost
  { state := base.1
    pic := o.compose h.width h.height h.side lost.contains base.2 (r.2.map (fun b => b.getD 0))
    flags := (if lost.isEmpty then 0 else 2) ||| (if unit.any Option.isNone then 17 else 0)
    lost := lost.length }

/-- What a decode leaves of its stream: the picture in its slot, where the unit decodes one, and the stream's pictures. -/
def State.keepDecoded (s : State) (e : Nat) (j : MediaJob) (x : Stream) (h : Config.Head) (unit : List (Option Byte))
    (slot : Nat) (d : Decoded) : State :=
  let o := openOf x.words
  let y := { x with next := x.next + 1, state := padTo 196608 (Config.stateAfter o.coding x.state unit slot) }
  if h.shown.isSome then s.setStream e j.stream y
  else
    let k : Config.Kept := { slot := slot, width := h.width, height := h.height }
    (s.writeView (ioFor x.polder) (o.slotAddr slot) d.pic).setStream e j.stream
      { y with last := some k, good := if d.flags % 8 = 0 then some k else x.good }

/-- A decoded picture goes to the client, in the format it asked for (R387). -/
def State.putPicture (s : State) (p : Nat) (o : OpenWords) (j : MediaJob) (h : Config.Head) (pic : List Byte) : State :=
  if o.native then s.writeView (ioFor p) (j.word 4) pic
  else s.writeRows p (j.word 4) (bits (j.word 5) 63 32) ((List.range h.height).map
    (o.rgbRow (o.matrix == 1 || (o.matrix == 2 && h.bt2020)) pic h.width h.height))

/-- What the engine counts of a decoded picture (R393). -/
def State.countDecoded (s : State) (e p : Nat) (d : Decoded) : State :=
  let s := (List.range 5).foldl (fun s b => s.event (engineIndex e + 1) b (if d.flags.testBit b then 1 else 0)) s
  let s := (s.bump (engineIndex e + 2) 1 1).bump (engineIndex e + 2) 5 d.lost
  if d.flags = 0 then s else s.bump (0x8010 + p) 3 1

/-- A decode FRAME job of an open stream (R381, R387, R390 to R392). (DESIGN CHOICE: log entry 6)
(DESIGN CHOICE: log entry 60) -/
def State.mediaDecodes (s : State) (e : Nat) (j : MediaJob) (x : Stream) : JobEnd :=
  let o := openOf x.words
  let p := x.polder
  let pitch := bits (j.word 5) 63 32
  let outBad (w h : Nat) : Bool :=
    if o.native then (j.word 4).toNat % 64 != 0 || s.mediaBad p (j.word 4) (o.pictureBytes w h)
    else (j.word 4).toNat % 64 != 0 || pitch % 64 != 0 || pitch < 6 * w || s.mediaBad p (j.word 4) (tileSpan w h pitch)
  if s.mediaBad p (j.word 2) (j.word 3).toNat || outBad 1 1 then .fail s 7
  else if bits (j.word 1) 63 32 != x.next then .fail s 2
  else
    let unit := s.readMarked (ioFor p) (j.word 2) (j.word 3).toNat
    let h := Config.unitHead o.coding x.state unit.2
    let place := match h.shown with
      | some k => some k.slot
      | none => freeSlot o.slots (h.keeps ++ (x.last.toList ++ x.good.toList).map Config.Kept.slot)
    match if o.supports h then place else none with
    | none => .fail (unit.1.event (engineIndex e + 1) 5 1) 1
    | some slot =>
      if outBad h.width h.height then .fail unit.1 7
      else
        let d := match h.shown with
          | some k => unit.1.showFrame p o x h unit.2 k
          | none => unit.1.decodeUnit p o x h unit.2
        { state := ((d.state.putPicture p o j h d.pic).keepDecoded e j x h unit.2 slot d).countDecoded e p d, status := 0,
          words := [(6, BitVec.ofNat 64 (h.width % 65536 * 2 ^ 48 + h.height % 65536 * 2 ^ 32
              + min 65535 d.lost * 65536 + d.flags)),
            (7, BitVec.ofNat 64 (bits (j.word 7) 63 32 * 2 ^ 32 + h.order.toNat))] }

/-- An encode FRAME job of an open stream (R381, R388, R389, R392). (DESIGN CHOICE: log entry 6)
(DESIGN CHOICE: log entry 60) -/
def State.mediaEncodes (s : State) (e : Nat) (j : MediaJob) (x : Stream) : JobEnd :=
  let o := openOf x.words
  let p := x.polder
  let w1 := j.word 1
  let frame := bits w1 63 32
  let pitch := (j.word 3).toNat
  let cap := bits (j.word 5) 31 0
  let inBad := if o.native then s.mediaBad p (j.word 2) o.slotBytes
    else pitch % 64 != 0 || pitch < 6 * o.width || s.mediaBad p (j.word 2) (tileSpan o.width o.height pitch)
  if inBad || (j.word 4).toNat % 64 != 0 || s.mediaBad p (j.word 4) cap then .fail s 7
  else if frame != x.next then .fail s 2
  else
    let released := x.holds.filter (fun h => !(bits w1 29 28).testBit h.1)
    let intra := frame == 0 || (o.period != 0 && frame % o.period == 0) || w1.getLsbD 27
    let refs := if intra then []
      else (x.last.map Config.Kept.slot).toList ++ (released.head?.map Prod.snd).toList
    match freeSlot o.slots (refs ++ released.map Prod.snd) with
    | none => .fail s 1
    | some slot =>
      let rd := if o.native then
          let r := s.readMarked (ioFor p) (j.word 2) o.slotBytes
          (r.1, [r.2])
        else (List.range o.height).foldl (fun (a : State × List (List (Option Byte))) y =>
          let r := a.1.readMarked (ioFor p) (j.word 2 + BitVec.ofNat 64 (y * pitch)) (6 * o.width)
          (r.1, a.2 ++ [r.2])) (s, [])
      let s := rd.1
      if rd.2.any (fun r => r.any Option.isNone) then .fail s 6
      else
        let rows := rd.2.map (fun r => r.map (fun b => b.getD 0))
        let pic := if o.native then (rows.headD [], 0) else o.fromTile rows
        let s := s.bump (engineIndex e + 2) 7 pic.2
        let held := refs.foldl (fun (a : State × List (List (Option Byte))) i =>
          let r := a.1.readKept p o { slot := i, width := o.width, height := o.height }
          (r.1, a.2 ++ [r.2])) (s, [])
        let s := held.1
        let hold := bits w1 30 30
        let t := Config.encode o.coding x.state held.2 frame intra (if w1.getLsbD 31 then some hold else none)
          (bits w1 29 28) (o.padded pic.1)
        let n := t.stream.length
        if cap < n then .fail (s.event (engineIndex e + 1) 6 1) 5
        else
          let s := s.writeView (ioFor p) (j.word 4) (padTo ((n + 63) / 64 * 64) t.stream)
          let s := s.writeView (ioFor p) (o.slotAddr slot) (padTo o.slotBytes t.native)
          let holds := if w1.getLsbD 31 then (hold, slot) :: released.filter (fun y => y.1 != hold) else released
          let s := s.setStream e j.stream
            { x with next := x.next + 1, state := padTo 196608 t.state,
                     last := some { slot := slot, width := o.width, height := o.height }, holds := holds }
          { state := s.bump (engineIndex e + 2) 2 1, status := 0,
            words := [(6, BitVec.ofNat 64 (n % 2 ^ 32 * 2 ^ 32 + bits (j.word 6) 31 0))] }

/-- The open stream context that a job names, where it is open for the job's polder. -/
def State.jobStream (s : State) (e : Nat) (j : MediaJob) : Option Stream :=
  (tblFind (s.engine e).streams j.stream).filter (fun x => x.polder == j.polder)

/-- What the job of an engine comes to (R382): the stream's state first, then its parameters, its ordinal, its coding. -/
def State.mediaEnds (s : State) (e : Nat) (j : MediaJob) : JobEnd :=
  match j.func, s.jobStream e j with
  | 1, _ => s.mediaOpens e j
  | 2, none => .fail s 4
  | 2, some x => if (openOf x.words).encode then s.mediaEncodes e j x else s.mediaDecodes e j x
  | 3, none => .fail s 4
  | 3, some _ =>
    { state := s.onEngine e (fun g => { g with streams := tblDrop g.streams j.stream }), status := 0, words := [] }
  | _, _ => .fail s 7

/-- Word 6 of a FRAME job that has not ended DONE, and a decode's `ORDER_KEY`, are free values. -/
def State.freeWords (s : State) (j : MediaJob) (decode : Bool) : State × List (Nat × W64) :=
  let a : W64 := s.freeVal 64
  let b : W32 := s.usedFree.freeVal 32
  if j.func != 2 then (s, [])
  else if !decode then (s.usedFree, [(6, a)])
  else (s.usedFree.usedFree, [(6, a), (7, BitVec.ofNat 64 (bits (j.word 7) 63 32 * 2 ^ 32 + b.toNat))])

/-- The running job of an engine completes: its effect, its descriptor, its tag. A job of a torn-down context leaves its
descriptor unwritten (R384). The descriptor's reserved bits are written back as they were read.
(DESIGN CHOICE: log entry 60) -/
def State.endMedia (s : State) (e : Nat) : State :=
  match (s.engine e).running with
  | none => s
  | some j =>
    let decode := (s.jobStream e j).any (fun x => !(openOf x.words).encode)
    let s := s.onEngine e (fun g => { g with running := none })
    let r := s.mediaEnds e j
    let s := r.state.bump (0x8010 + j.polder) 2 1
    if j.dropped then s
    else
      let f := if r.status = 0 then (s, r.words) else s.freeWords j decode
      let w0 := BitVec.ofNat 64 ((j.word 0).toNat / 256 * 256 + r.status)
      let ws := (j.words.zipIdx).map (fun w =>
        if w.2 = 0 then w0 else match f.2.find? (fun y => y.1 == w.2) with
          | some y => y.2
          | none => w.1)
      let s := f.1.writeView (ioFor j.polder) j.descAddr (ws.flatMap (fun w => toBytes 8 w.toNat))
      s.atRank j.ctx.toNat j.rank (fun k => k.freeTag j.tag)

/-- A job joins its engine's queue (R379, R383). -/
def State.queueMedia (s : State) (j : MediaJob) : State :=
  s.onEngine (bits (j.word 0) 59 58) (fun g => { g with queue := g.queue ++ [j] })

end Sys2Proof.Machine
end

