-- ==== Sys2Proof/Machine/Effects.lean ====
section
/-! DEFINITION. What the slots of a bundle do when it issues (R56 to R72, R83, R171, R236 to R240, R248 to R254, R263):
every slot reads the core as it stood before the bundle, `k`, and writes the state. Operations that move data over more
than one cycle begin here. -/

namespace Sys2Proof.Machine

/-! ### Synchronous results -/

def State.putReg (s : State) (core : Nat) (dst : BitVec 6) (v : W64) : State := s.onCore core (fun k => k.setG dst v)

def State.putPred (s : State) (core : Nat) (dst : BitVec 4) (v : Bool) : State := s.onCore core (fun k => k.setP dst v)

/-- A counter of the core's block. -/
def State.coreBump (s : State) (core off sub n : Nat) : State := s.bump (coreIndex core off) sub n

/-- The operands of an S operation (R58). -/
def CoreState.opA (k : CoreState) (f : SFields) : W64 := k.getG f.srcA

/-- The system value of a selector (R59); the cycles of selector 7 are a free value. (DESIGN CHOICE: log entry 30) -/
def State.sysValue (s : State) (core sel : Nat) : W64 :=
  let k := s.core core
  let c := (k.ctx.map BitVec.toNat).getD 0
  match sel with
  | 0 => BitVec.ofNat 64 core
  | 1 => BitVec.ofNat 64 k.rank
  | 2 => BitVec.ofNat 64 (s.ctx c).cores.length
  | 3 => BitVec.ofNat 64 c
  | 4 => BitVec.ofNat 64 (polderOf c)
  | 5 => BitVec.ofNat 64 (siteOf core)
  | 6 => BitVec.ofNat 64 (s.ctx c).mEd
  | _ => s.freeVal 64

def State.doSys (s : State) (core : Nat) (f : SFields) : State :=
  let v := s.sysValue core f.imm.toNat
  let s := if f.imm = 7 then s.usedFree else s
  s.putReg core f.dst v

/-- A vector operation's register, events and counters (R125, R189, R279). -/
def State.putVec (s : State) (core : Nat) (vd : BitVec 6) (r : VResult) : State :=
  let s := s.onCore core (fun k => k.setV vd r.value)
  ((s.tally (s.polderOn core) r.tally).coreBump core 10 2 1).coreBump core 14 2 r.rounded

/-- A special function also counts its elements. -/
def State.putSfu (s : State) (core : Nat) (f : VFields) (r : VResult) : State :=
  (s.putVec core f.vd r).coreBump core 10 3 (4096 / laneW f.ty.toNat)

/-- A row reduction also counts itself. -/
def State.putRsum (s : State) (core : Nat) (f : VFields) (r : VResult) : State := (s.putVec core f.vd r).coreBump core 10 5 1

/-- Whether the context's E4M3 mode saturates (R122). -/
def State.satE4 (s : State) (core : Nat) : Bool := !(s.coreCtx core).e4nan

/-- A reduction by its mode (R183 to R185). (DEDUCED: log entry 39) -/
def rsumOf (k : CoreState) (mode : Nat) (f : VFields) : VResult :=
  match mode with
  | 0 => vRsumSumOf k f
  | 1 => vRsumMaxOf k f
  | 2 => vRsumStatOf k f
  | 3 => vRsumStat0Of k f
  | 4 => vRsumCombineOf k f
  | _ => vRsumFinishOf k f

/-! ### The comparator (R249 to R254, R260, R261) -/

/-- A closed gate is posted, or the core takes `POLDER_ACCESS` (R254). -/
def State.postGate (s : State) (core : Nat) (x : Slot) (bundle : Nat) (a bit : Nat) : State :=
  let p := s.polderOn core
  if s.writable p a then
    match (s.core core).ctx with
    | none => s
    | some c =>
      s.onPolder p (fun q => { q with
        posts := q.posts ++ [{ core := core, ctx := c, rank := (s.core core).rank, addr := BitVec.ofNat 64 a, bit := bit, slot := x.num,
                               bundle := bundle }] })
  else
    (s.event (0x7130 + p) 1 1).raise core
      { code := faultPolder, detail := BitVec.ofNat 64 a, slot := x.num, bundle := bundle, more := 0 }

/-- The polder's counter that an outcome advances (R260): `CLOSED`, `OPEN_TIDE`, `OPEN_UNFIT`, `OPEN_CHANGE`.
(DEDUCED: log entry 44) -/
def decideEntry (d : Nat) : Nat := [2, 3, 5, 4].getD d 0

/-- A DECIDE: predicate, tile state, counters, post. (DEDUCED: log entry 44) -/
def State.decide (s : State) (core : Nat) (k : CoreState) (x : Slot) (f : LFields) (bundle : Nat) : State :=
  match k.sluice.job with
  | none => s
  | some j =>
    let p := s.polderOn core
    let t := k.tileIndex f
    let b := f.block.toNat
    let d := decideOf j k.sluice b
    let unfit := if k.sluice.u && d != 0 then 1 else 0
    let s := s.onCore core (fun k => k.setP f.pdst (d == 0))
    let s := s.onCore core (fun k => { k with sluice := k.sluice.clear })
    let s := (((s.coreBump core 10 2 1).coreBump core 13 2 1).coreBump core 13 3 (if d = 0 then 1 else 0)).coreBump core
      13 4 unfit
    let s := ((s.bump (0x7120 + p) 1 1).bump (0x7120 + p) (decideEntry d) 1).event (0x7130 + p) 0 unfit
    if d = 0 then s.postGate core x bundle (mapAddr j b t) (t % 8) else s

/-! ### Operations that begin here -/

/-- The walks of a stream, with their generators. -/
def StreamJob.walks (j : StreamJob) : List (Nat × Walk) :=
  j.a :: j.b :: (j.v.toList ++ j.scaleA.toList ++ j.scaleB.toList ++ j.sparseMeta.toList)

/-- The address generators whose walks an operation uses (R84). -/
def Op.agens : Op → List Nat
  | .load ag _ _ _ | .store ag _ _ _ => [ag]
  | .stream j => j.walks.map Prod.fst
  | .drain j => j.out.1 :: j.res.toList.map Prod.fst
  | _ => []

/-- Generators stand at a position of their walks (R51). -/
def CoreState.atPos (k : CoreState) (ags : List Nat) (n : Nat) : CoreState :=
  { k with agPos := ags.foldl (fun t g => tblPut t g n) k.agPos }

/-- The counters that time drives while an operation is unfinished (R144, R225, R279). -/
def Op.drives : Op → List (Nat × Nat)
  | .stream j => (5, 3) :: (if j.attn then [(12, 5)] else [])
  | .drain _ => [(5, 8)]
  | .sample _ _ _ => [(14, 4)]
  | _ => []

/-- An operation becomes unfinished, under a tag or without one; its generators stand at the start of their walks. -/
def State.begin (s : State) (core : Nat) (x : Slot) (bundle : Nat) (tag : Option (BitVec 4)) (op : Op)
    (reads writes : List Range) : State :=
  let a : AsyncOp :=
    { stamp := s.nextId, slot := x.num, bundle := bundle, tag := tag.map BitVec.toNat, op := op, reads := reads,
      writes := writes, before := [] }
  let s := op.drives.foldl (fun s e => s.mark (coreIndex core e.1) e.2) s
  { s.onCore core (fun k => { k.atPos op.agens 0 with ops := k.ops ++ [a] }) with nextId := s.nextId + 1 }

/-- A fault found at once inside an operation that has begun. -/
def State.raiseAt (s : State) (core : Nat) (x : Slot) (bundle : Nat) (f : Option (Nat × W64)) : State :=
  match f with
  | none => s
  | some c => s.raise core { code := c.1, detail := c.2, slot := x.num, bundle := bundle, more := 0 }

/-- A bound walk by its generator's number. -/
def CoreState.walk (k : CoreState) (ag : Nat) : Option (Nat × Walk) := (tblFind k.ag ag).map (fun w => (ag, w))

def CoreState.walkD (k : CoreState) (ag : Nat) : Walk :=
  (tblFind k.ag ag).getD { levels := [], dims := [], space := false, elem := 0, wsBase := 0, wsWindow := 0, memBase := 0,
                           memSpan := 0 }

/-- What an `M.STREAM` or `M.GSTREAM` copies (R132, R136, R210). -/
def CoreState.streamJob (k : CoreState) (attn : Bool) (cols : Option (Nat × Nat)) (f : MFields) : StreamJob :=
  let ws := (k.params f.gParam (paramWords attn)).getD []
  let c := chainOf ws
  { f := f, attn := attn, cols := cols, a := (f.agA.toNat, k.walkD f.agA.toNat), b := (f.agB.toNat, k.walkD f.agB.toNat),
    v := if attn then k.walk f.agOut.toNat else none,
    scaleA := if !attn && isMxFmt f.fmtA.toNat then k.walk c.scaleAgA else none,
    scaleB := if !attn && isMxFmt f.fmtB.toNat then k.walk c.scaleAgB else none,
    sparseMeta := if !attn && f.sparse then k.walk c.metaAg else none,
    words := ws }

/-- What an `M.DRAIN` copies. -/
def CoreState.drainJob (k : CoreState) (attn : Bool) (f : MFields) : DrainJob :=
  let ws := (k.params f.gParam (paramWords attn)).getD []
  let c := chainOf ws
  let m : Menu := if attn then {} else (menuOf f.chain.toNat).getD {}
  { f := f, attn := attn, out := (f.agOut.toNat, k.walkD f.agOut.toNat),
    res := if m.res then k.walk c.resAg else none, words := ws, rng := k.rng }

/-! ### Footprints (R65, R86, R155, R238, R271, R283, R379) -/

/-- `n` lines from a line. -/
def lineRange (line n : Nat) : List Range := if n = 0 then [] else [{ space := .ws, lo := line, hi := line + n - 1 }]

/-- The code words of `n` bytes from an address. -/
def memRange (a : W64) (n : Nat) : List Range :=
  if n = 0 then [] else [{ space := .mem, lo := a.toNat / 64, hi := (a.toNat + n - 1) / 64 }]

/-- The declared range of an array walk (R86). -/
def walkRange (w : Walk) : List Range :=
  if w.space then memRange w.memBase w.memSpan else lineRange w.wsBase w.wsWindow

def bankRange (b : Bool) : Range := { space := .bank b, lo := 0, hi := 0 }

def pairsRange (xs : List (Nat × Nat)) : List Range := xs.flatMap (fun x => lineRange x.1 x.2)

/-- A stream's banks: its own, and both in attention mode. -/
def StreamJob.banks (j : StreamJob) : List Range :=
  if j.attn then [bankRange false, bankRange true] else [bankRange j.f.bank]

def StreamJob.reads (k : CoreState) (j : StreamJob) : List Range :=
  j.banks ++ j.walks.flatMap (fun w => walkRange w.2)
    ++ pairsRange (streamLines j.attn j.chain j.menu (attnWords j.words) (k.positions j.f))

def DrainJob.reads (j : DrainJob) : List Range :=
  bankRange j.f.bank :: (j.res.toList.flatMap (fun w => walkRange w.2) ++ pairsRange (drainReads j.chain j.menu))

def DrainJob.writes (j : DrainJob) : List Range :=
  walkRange j.out.2 ++ pairsRange (drainWrites j.attn j.chain j.menu (attnWords j.words))

/-- The tensor ranges of an update: what it reads, and what it writes. -/
def UpdateDesc.reads (d : UpdateDesc) (func : Nat) : List Range :=
  let t (base : W64) (size : Nat) : List Range := memRange (tensorAt base size d.first) (size * d.count)
  let mask := memRange (d.mask + BitVec.ofNat 64 (d.first / 8)) ((d.count + 511) / 512 * 64)
  match func with
  | 1 => mask ++ t d.m (fmtSize d.mFmt) ++ t d.g (fmtSize d.gFmt)
  | 2 => mask ++ t d.w 2 ++ t d.r 2 ++ t d.m (fmtSize d.mFmt) ++ t d.g (fmtSize d.gFmt)
  | _ => memRange d.hist 64

def UpdateDesc.writes (d : UpdateDesc) (func line : Nat) : List Range :=
  let t (base : W64) (size : Nat) : List Range := memRange (tensorAt base size d.first) (size * d.count)
  lineRange line 2 ++ (match func with
    | 1 => lineRange d.leafLine d.leafLines
    | 2 => t d.w 2 ++ t d.r 2 ++ t d.m (fmtSize d.mFmt)
    | _ => memRange d.hist 64)

/-- The bytes that an `X.FABRIC` reads and writes here (R369, R370). (DESIGN CHOICE: log entry 41) -/
def fabricReads (ws : List W64) : List Range :=
  let w (i : Nat) : W64 := ws.getD i 0
  let func := bits (w 0) 63 60
  memRange (w 1) (if func = 1 ∨ func = 4 then (w 3).toNat else 4 * bits (w 5) 31 0 * bits (w 5) 63 32)

def fabricWrites (ws : List W64) : List Range :=
  let w (i : Nat) : W64 := ws.getD i 0
  match bits (w 0) 63 60 with
  | 1 => []
  | 4 => memRange (w 2) (w 3).toNat
  | _ => memRange (w 2) (4 * bits (w 5) 31 0)

/-- The lines of a sample's descriptor, logits and result (R271, R272). -/
def SampleDesc.reads (d : SampleDesc) (line : Nat) : List Range := lineRange line 1 ++ lineRange d.logitLine d.lines

def CoreState.sampleD (k : CoreState) (f : AFields) : SampleDesc := sampleDesc (k.wsBytes (64 * f.wsLine.toNat) 64)

/-- The memory base of an A operation (R59's table: g[`G_BASE`] + `IMM`). -/
def CoreState.aBase (k : CoreState) (f : AFields) : W64 := k.getG f.gBase + f.imm

/-- What an operation reads and writes under R65, from the core as it stands. -/
def SlotOp.reads (k : CoreState) (c : CacheCfg) : SlotOp → List Range
  | .aLoad f => memRange (k.aBase f) (k.walkD f.ag.toNat).memSpan
  | .aStore f => lineRange f.wsLine.toNat (k.walkD f.ag.toNat).wsWindow
  | .kvappend f => lineRange f.wsLine.toNat ((k.kvJob f).lines c)
  | .sample f => (k.sampleD f).reads f.wsLine.toNat
  | .update func f => lineRange (k.updateLine f) 2 ++ (updateDesc (k.updateBytes f)).reads func
  | .stream attn f => (k.streamJob attn none f).reads k
  | .gstream f => (k.streamJob false (some (f.colFirst.toNat, f.colCount.toNat)) f.m).reads k
  | .drain attn f => (k.drainJob attn f).reads
  | .vLd f => lineRange (k.wsLine f.wsLine f.gOff) 8
  | .vWin op f => (winLines k op f).flatMap (fun x => lineRange x.1 x.2)
  | .sluice sop f => if sop = 3 then lineRange (k.wsLine f.wsLine f.gOff) 17 else []
  | .rng rfn f => if rfn = 0 then lineRange (k.wsLine f.wsLine f.gOff) 1 else []
  | .put f => lineRange (putLine f) (putLines f)
  | .iload f => memRange (k.getG f.gA) (128 * f.imm.toNat)
  | .fabric f => fabricReads ((k.fabricWords f).getD [])
  | .media f => memRange (k.getG f.gA) 64
  | _ => []

def SlotOp.writes (k : CoreState) (c : CacheCfg) : SlotOp → List Range
  | .aLoad f => lineRange f.wsLine.toNat (k.walkD f.ag.toNat).wsWindow
  | .aStore f => memRange (k.aBase f) (k.walkD f.ag.toNat).memSpan
  | .kvload f => lineRange f.wsLine.toNat ((k.kvJob f).lines c)
  | .sample f => lineRange (k.sampleD f).resultLine 1
  | .update func f => (updateDesc (k.updateBytes f)).writes func (k.updateLine f)
  | .stream attn f => (k.streamJob attn none f).banks
  | .gstream f => [bankRange f.m.bank]
  | .drain attn f => (k.drainJob attn f).writes
  | .vSt f => lineRange (k.wsLine f.wsLine f.gOff) 8
  | .recv f => lineRange (putLine f) (putLines f)
  | .fabric f => fabricWrites ((k.fabricWords f).getD [])
  | .media f => memRange (k.getG f.gA) 64
  | _ => []

/-! ### Services at issue -/

/-- A request for a work counter leaves for its controller (R71, R72). -/
def State.askCounter (s : State) (core : Nat) (k : CoreState) (f : XFields) (isSet : Bool) : State :=
  let a := k.getG f.gA
  let q := counterSite a * 16 + bits a 7 4
  let r : CtrReq :=
    { core := core, ctx := k.ctx.getD 0, opened := (s.coreCtx core).openAt, tag := f.tag.toNat, dst := f.gDst,
      counter := bits a 3 0, isSet := isSet,
      operand := k.getG f.gB + f.imm }
  { s with ctrQ := tblPut s.ctrQ q ((tblFind s.ctrQ q).getD [] ++ [r]) }.coreBump core 4 7 1

/-- An `X.SEQ` leaves for the cache home (R234, R236). -/
def State.askSeq (s : State) (core : Nat) (k : CoreState) (x : Slot) (bundle fn : Nat) (f : XFields) : State :=
  let r : SeqReq :=
    { ctx := k.ctx.getD 0, rank := k.rank, tag := f.tag.toNat, dst := f.gDst, fn := fn, a := k.getG f.gA, b := k.getG f.gB,
      src := bits f.imm 31 16, slot := x.num, bundle := bundle }
  s.askHome (s.polderOn core) (.seq r)

/-- An `A.KVLOAD` or `A.KVAPPEND` goes to the home (R234, R239, R240), which translates it at once when nothing waits
before it. (DEDUCED: log entry 26) -/
def State.doKv (s : State) (core : Nat) (k : CoreState) (x : Slot) (f : KFields) (op : Op) (bundle : Nat) : State :=
  let p := s.polderOn core
  let c := s.cacheCfg p
  (s.begin core x bundle (some f.tag) op (x.op.reads k c) (x.op.writes k c)).askHome p
    (.translate { ctx := k.ctx.getD 0, rank := k.rank, tag := f.tag.toNat, slot := x.num, bundle := bundle })

/-- `X.FABRIC` (R369): the descriptor goes to the collective engine. -/
def State.doFabric (s : State) (core : Nat) (k : CoreState) (x : Slot) (f : XFields) (bundle : Nat) : State :=
  let ws := (k.fabricWords f).getD []
  let o : FabricOp :=
    { id := s.nextId, ctx := k.ctx.getD 0, rank := k.rank, tag := f.tag.toNat, descAt := (k.getG f.gA).toNat,
      func := bits (ws.getD 0 0) 63 60, words := ws, nodes := [], sums := [],
      parts := [], results := [], closing := false, events := [], state := 0, fstatus := 0, slot := x.num,
      bundle := bundle }
  (s.begin core x bundle (some f.tag) (.fabric o.id) (fabricReads ws) (fabricWrites ws)).startFabric o

/-- `X.MEDIA` (R379): the descriptor is read and sent as a job; a poisoned one raises `UNCORRECTABLE` (R310). -/
def State.doMedia (s : State) (core : Nat) (k : CoreState) (x : Slot) (f : XFields) (bundle : Nat) : State :=
  let p := s.polderOn core
  let a := k.getG f.gA
  let r := s.readView (coreFor p core) a 64
  let ws := (pieces 8 8 r.data).map (fun b => BitVec.ofNat 64 (ofBytes b))
  let e := bits (ws.getD 0 0) 59 58
  let id := r.state.nextId
  let s := r.state.begin core x bundle (some f.tag) (.media e id) (memRange a 64) (memRange a 64)
  match r.poison with
  | some b => s.raiseAt core x bundle (some (faultUncorrectable, b))
  | none =>
    s.queueMedia { id := id, core := core, ctx := k.ctx.getD 0, rank := k.rank, tag := f.tag.toNat, polder := p,
                   descAddr := a, words := ws, dropped := false }

/-- `V.WIN` (R154, R155): its value is what it gives alone (R65). (DEDUCED: log entry 26) -/
def State.doWin (s : State) (core : Nat) (k : CoreState) (x : Slot) (op : Nat) (f : WFields) (bundle : Nat) : State :=
  let r := winOf k (s.coreCtx core).mEd op f
  ((s.begin core x bundle none (.win (x.num == 6) f.vd r.1 (f.kh.toNat * f.kw.toNat))
      (x.op.reads k (s.cacheCfg (s.polderOn core))) []).tally (s.polderOn core) r.2).coreBump core 10 2 1

/-! ### `V.RNG` (R263, R279) -/

def State.doRng (s : State) (core : Nat) (k : CoreState) (x : Slot) (rfn : Nat) (f : RFields) : State :=
  let s := s.coreBump core 10 2 1
  let p := s.polderOn core
  let put (v : BitVec 4096) : State := s.onCore core (fun k => k.setV f.vd v)
  let blocks (n : Nat) (s : State) : State := s.coreBump core 14 1 (blocksOf (k.getG f.gIdx) n)
  match rfn with
  | 0 =>
    let bs := k.wsBytes (64 * k.wsLine f.wsLine f.gOff) 64
    s.onCore core (fun k => { k with rng := { k.rng with
      seed := BitVec.ofNat 256 (fieldAt bs 0 32), step := BitVec.ofNat 32 (fieldAt bs 32 4) } })
  | 1 => blocks 128 (put (rngBitsOf k f))
  | 2 => blocks 128 (put (rngUniformOf k f))
  | 3 =>
    let r := rngNormalOf k f
    (blocks (4096 / laneW f.ty.toNat) (put r.1)).tally p r.2
  | 4 =>
    let r := rngDropOf k f
    (put r.1).coreBump core 14 3 r.2
  | 5 =>
    s.onCore core (fun q => { q with rng := if x.num = 5 then { q.rng with xbase0 := k.getG f.gIdx }
                                            else { q.rng with xbase1 := k.getG f.gIdx } })
  | _ => s.onCore core (fun q => { q with rng := { q.rng with dxbase := k.getG f.gIdx, dxrow := f.imm32 } })

/-- `V.SLUICE` (R249 to R251). -/
def State.doSluice (s : State) (core : Nat) (k : CoreState) (x : Slot) (sop : Nat) (f : LFields) (bundle : Nat) : State :=
  match sop with
  | 0 => (s.onCore core (fun q => { q with sluice := q.sluice.clear })).coreBump core 10 2 1
  | 1 => ((s.onCore core (fun q => { q with sluice := sluiceAccumOf k f })).coreBump core 10 2 1).coreBump core 13 1 1
  | 2 => s.decide core k x f bundle
  | _ =>
    (s.onCore core (fun q => { q with sluice := { q.sluice.clear with job := some (k.setupJob f) } })).coreBump core 10 2 1

/-! ### Every slot -/

/-- `X.CALL` (R57): the address after bundle 2,047 is not one of the store's, and what is pushed is a free value.
(DESIGN CHOICE: log entry 25) -/
def State.doCall (s : State) (core bundle : Nat) (f : XFields) : State :=
  let open11 : BitVec 11 := s.freeVal 11
  let back := if bundle = 2047 then open11 else BitVec.ofNat 11 (bundle + 1)
  let s := if bundle = 2047 then s.usedFree else s
  s.onCore core (fun q => { q with pc := f.target.toNat, calls := back :: q.calls })

/-- What a slot whose guard holds does when its bundle issues. -/
def State.effect (s : State) (core : Nat) (k : CoreState) (bundle : Nat) (x : Slot) : State :=
  let c := s.cacheCfg (s.polderOn core)
  let sat4 := s.satE4 core
  let start (tag : BitVec 4) (op : Op) : State := s.begin core x bundle (some tag) op (x.op.reads k c) (x.op.writes k c)
  match x.op with
  | .add f => s.putReg core f.dst (k.opA f + k.opB f)
  | .sub f => s.putReg core f.dst (k.opA f - k.opB f)
  | .mul f => s.putReg core f.dst (k.opA f * k.opB f)
  | .and f => s.putReg core f.dst (k.opA f &&& k.opB f)
  | .or f => s.putReg core f.dst (k.opA f ||| k.opB f)
  | .xor f => s.putReg core f.dst (k.opA f ^^^ k.opB f)
  | .shl f => s.putReg core f.dst (k.opA f <<< ((k.opB f).toNat % 64))
  | .shr f => s.putReg core f.dst (k.opA f >>> ((k.opB f).toNat % 64))
  | .sar f => s.putReg core f.dst ((k.opA f).sshiftRight ((k.opB f).toNat % 64))
  | .min f => s.putReg core f.dst (if (k.opA f).slt (k.opB f) then k.opA f else k.opB f)
  | .max f => s.putReg core f.dst (if (k.opA f).slt (k.opB f) then k.opB f else k.opA f)
  | .cmpEq f => s.putPred core f.pdst (cmpEq (k.opA f) (k.opB f))
  | .cmpNe f => s.putPred core f.pdst (cmpNe (k.opA f) (k.opB f))
  | .cmpLt f => s.putPred core f.pdst (cmpLt (k.opA f) (k.opB f))
  | .cmpLtu f => s.putPred core f.pdst (cmpLtu (k.opA f) (k.opB f))
  | .cmpLe f => s.putPred core f.pdst (cmpLe (k.opA f) (k.opB f))
  | .cmpLeu f => s.putPred core f.pdst (cmpLeu (k.opA f) (k.opB f))
  | .ld f => s.putReg core f.dst (k.scalar (k.scalarAddr f).toNat)
  | .st f => s.onCore core (fun q => q.setScalar (k.scalarAddr f).toNat (k.getG f.srcB))
  | .sys f => s.doSys core f
  | .aLoop f =>
    match k.bound f with
    | none => s
    | some w => s.onCore core (fun q => { q.atPos [f.ag.toNat] 0 with ag := tblPut q.ag f.ag.toNat w })
  | .aLoad f => start f.tag (.load f.ag.toNat (k.walkD f.ag.toNat) (k.aBase f) f.wsLine.toNat)
  | .aStore f => start f.tag (.store f.ag.toNat (k.walkD f.ag.toNat) (k.aBase f) f.wsLine.toNat)
  | .aWait _ | .mWait _ | .xWait _ | .fence _ => s
  | .kvload f => s.doKv core k x f (.kvload (k.kvJob f)) bundle
  | .kvappend f => s.doKv core k x f (.kvappend (k.kvJob f)) bundle
  | .sample f => start f.tag (.sample (k.getG f.gBase) k.rng f.wsLine.toNat)
  | .update func f => start f.tag (.update func (k.updateLine f) (k.updateBytes f))
  | .stream attn f => start f.tag (.stream (k.streamJob attn none f))
  | .gstream f => start f.m.tag (.stream (k.streamJob false (some (f.colFirst.toNat, f.colCount.toNat)) f.m))
  | .drain attn f => start f.tag (.drain (k.drainJob attn f))
  | .vFma f => s.putVec core f.vd (vFmaOf k x.num f)
  | .vAdd f => s.putVec core f.vd (vAddOf k x.num f)
  | .vMul f => s.putVec core f.vd (vMulOf k x.num f)
  | .vMax f => s.putVec core f.vd (vMaxOf k f)
  | .vMin f => s.putVec core f.vd (vMinOf k f)
  | .vExp2 f => s.putSfu core f (vExp2Of k sat4 f)
  | .vLog2 f => s.putSfu core f (vLog2Of k sat4 f)
  | .vCvt f => s.putVec core f.vd (vCvtOf k x.num sat4 f)
  | .vLd f =>
    s.putVec core f.vd { value := lineReg (k.wsBytes (64 * k.wsLine f.wsLine f.gOff) 512), tally := {}, rounded := 0 }
  | .vSt f =>
    (s.onCore core (fun q => q.putWs (64 * k.wsLine f.wsLine f.gOff) (regBytes (k.getV f.va)))).coreBump core 10 2 1
  | .vSel f => s.putVec core f.vd (vSelOf k f)
  | .vCmp f => s.putVec core f.vd (vCmpOf k f)
  | .vRsum mode f => s.putRsum core f (rsumOf k mode f)
  | .vWin op f => s.doWin core k x op f bundle
  | .sluice sop f => s.doSluice core k x sop f bundle
  | .rng rfn f => s.doRng core k x rfn f
  | .jmp f | .br f => s.onCore core (fun q => { q with pc := f.target.toNat })
  | .call f => s.doCall core bundle f
  | .ret _ => s.onCore core (fun q => { q with pc := ((k.calls.head?).map BitVec.toNat).getD 0, calls := k.calls.tail })
  | .bar f => s.onCore core (fun q => { q with hold := .barrier f.scope })
  | .fetchadd f => (start f.tag (.counter f.gDst)).askCounter core k f false
  | .cset f => (start f.tag (.counter f.gDst)).askCounter core k f true
  | .put f => start f.tag (.put (k.getG f.gA).toNat (putLine f) (putLines f) (bits f.imm 3 0))
  | .recv f => start f.tag (.recv (putLine f) (putLines f))
  | .iload f => start f.tag (.iload (k.getG f.gA) f.imm.toNat f.target.toNat)
  | .halt _ => (s.onCore core (fun q => { q with hold := .halted })).event (coreIndex core 2) 3 1
  | .seq fn f => (start f.tag (.seq f.gDst)).askSeq core k x bundle fn f
  | .fabric f => s.doFabric core k x f bundle
  | .media f => s.doMedia core k x f bundle

end Sys2Proof.Machine
end

