-- ==== Sys2Proof/Machine/Issue.lean ====
section
/-! DEFINITION. How bundles issue (R54 to R56, R64, R65, R73, R75, and the waits of every chapter): slots are staged, a
complete bundle joins its core's queue, and the head of the queue issues when nothing makes it wait. A bundle whose wait
ends with another command issues with that command. -/

namespace Sys2Proof.Machine

/-! ### Registers that a slot reads (R55) -/

def SlotOp.gReads : SlotOp → List (BitVec 6)
  | .add f | .sub f | .mul f | .and f | .or f | .xor f | .shl f | .shr f | .sar f | .min f | .max f | .cmpEq f | .cmpNe f
  | .cmpLt f | .cmpLtu f | .cmpLe f | .cmpLeu f | .st f => [f.srcA, f.srcB]
  | .ld f => [f.srcA]
  | .aLoad f | .aStore f | .sample f => [f.gBase]
  | .kvload f | .kvappend f => [f.gSeq, f.gPos]
  | .update _ f => [f.gOff]
  | .stream _ f | .drain _ f => [f.gParam]
  | .gstream f => [f.m.gParam]
  | .vLd f | .vSt f => [f.gOff]
  | .vWin op f => if op = 0 then [f.gW, f.gOff] else [f.gOff]
  | .sluice sop f => if 2 ≤ sop then [f.gOff] else []
  | .rng rfn f => if rfn = 0 then [f.gOff] else [f.gIdx]
  | .fetchadd f | .cset f | .seq _ f => [f.gA, f.gB]
  | .put f | .iload f | .fabric f | .media f => [f.gA]
  | _ => []

def SlotOp.vReads : SlotOp → List (BitVec 6)
  | .vFma f | .vSel f => [f.va, f.vb, f.vc]
  | .vCvt f => [f.va, f.vc]
  | .vAdd f | .vMul f | .vMax f | .vMin f | .vCmp f => [f.va, f.vb]
  | .vExp2 f | .vLog2 f | .vSt f => [f.va]
  | .vRsum mode f => if mode = 4 then [f.va, f.vb] else [f.va]
  | .sluice sop f => if sop = 1 then [f.va, f.vb] else []
  | .rng rfn f => if rfn = 4 then [f.va] else []
  | _ => []

/-- Whether a slot reads or writes a register that an unfinished operation has still to write.
(DESIGN CHOICE: log entry 27) -/
def CoreState.pendingReg (k : CoreState) (o : SlotOp) : Bool :=
  k.ops.any (fun a => match a.op with
    | .counter d | .seq d => d != 0 && (o.gReads.contains d || o.dests.contains (.g d))
    | .win _ d _ _ => o.vReads.contains d || o.dests.contains (.v d)
    | _ => false)

/-! ### Waits -/

def Range.overlaps (a b : Range) : Bool := a.space == b.space && a.lo ≤ b.hi && b.lo ≤ a.hi

def overlapAny (xs ys : List Range) : Bool := xs.any (fun a => ys.any a.overlaps)

/-- R65: reads against unfinished writes, writes against unfinished reads and writes. -/
def CoreState.rangeBusy (k : CoreState) (c : CacheCfg) (o : SlotOp) : Bool :=
  let r := o.reads k c
  let w := o.writes k c
  k.ops.any (fun a => overlapAny r a.writes || overlapAny w (a.reads ++ a.writes))

def Op.isStream : Op → Bool
  | .stream _ => true
  | _ => false

def Op.isDrain : Op → Bool
  | .drain _ => true
  | _ => false

def Op.isAttn : Op → Bool
  | .stream j => j.attn
  | _ => false

def Op.isSample : Op → Bool
  | .sample _ _ _ => true
  | _ => false

def Op.isUpdate : Op → Bool
  | .update _ _ _ => true
  | _ => false

def Op.isAppend : Op → Bool
  | .kvappend _ => true
  | _ => false

def CoreState.unfinished (k : CoreState) (f : Op → Bool) : Nat := (k.ops.filter (fun a => f a.op)).length

/-- The waits of an operation's own unit: R130, R155, R225, R84, R243, R271, R283, and the fence. -/
def CoreState.unitBusy (k : CoreState) (x : Slot) : Bool :=
  let vSlot := x.num == 5 || x.num == 6
  (vSlot && (k.unfinished Op.isAttn != 0 || k.ops.any (fun a => match a.op with
    | .win pipe _ _ _ => pipe == (x.num == 6)
    | _ => false)))
  || (match x.op with
    | .stream _ _ | .gstream _ => 2 ≤ k.unfinished Op.isStream
    | .drain _ _ => 2 ≤ k.unfinished Op.isDrain
    | .sample _ => k.unfinished Op.isSample != 0
    | .update _ _ => k.unfinished Op.isUpdate != 0
    | .aLoop f => k.ops.any (fun a => a.op.agens.contains f.ag.toNat)
    | .seq fn _ => fn == 3 && k.unfinished Op.isAppend != 0
    | .fence _ => k.ops.any (fun a => a.tag.isSome)
    | _ => false)

/-- The engine in whose queue an `X.MEDIA` waits for a place: it is full, or another core waits before it (R383). -/
def State.queueFull (s : State) (core : Nat) (k : CoreState) (x : Slot) : Option Nat :=
  match x.op with
  | .media f =>
    let e := bits (BitVec.ofNat 64 (s.peekNat (s.polderOn core) (k.getG f.gA) 8)) 59 58
    if 64 ≤ (s.engine e).queue.length || (s.engine e).waiters.head?.any (fun w => w.1 != core) then some e else none
  | _ => none

/-- Whether a tag is held. -/
def CoreState.tagHeld (k : CoreState) (t : BitVec 4) : Bool := k.ops.any (fun a => a.tag == some t.toNat)

/-- The waits of a slot but that for a place in an engine's queue. -/
def State.slotHeld (s : State) (core : Nat) (k : CoreState) (x : Slot) : Bool :=
  k.guard x.pred x.pneg
    && (k.pendingReg x.op || (x.op.tag.map k.tagHeld).getD false || k.rangeBusy (s.cacheCfg (s.polderOn core)) x.op
        || k.unitBusy x)

def State.slotWaits (s : State) (core : Nat) (k : CoreState) (x : Slot) : Bool :=
  s.slotHeld core k x || (k.guard x.pred x.pneg && (s.queueFull core k x).isSome)

/-- R64: the bundle stands in a range of the instruction store that a load has not completed. -/
def CoreState.loading (k : CoreState) : Bool :=
  k.ops.any (fun a => match a.op with
    | .iload _ n t => t ≤ k.pc && k.pc < t + n
    | _ => false)

def State.bundleWaits (s : State) (core : Nat) (b : List Slot) : Bool :=
  let k := s.core core
  k.loading || b.any (s.slotWaits core k)

/-! ### Issue -/

/-- Whether a core issues: its context runs, and nothing holds it. -/
def State.issuing (s : State) (core : Nat) : Bool :=
  let k := s.core core
  (match k.ctx with
    | some c => (s.ctx c.toNat).state == 3
    | none => false) && k.running && k.hold == .none && k.fault.isNone

/-- The lines that an operation of a bundle reads and another slot of the bundle writes, as they stood before it (R56).
(DEDUCED: log entry 85) -/
def CoreState.linesBefore (k : CoreState) (c : CacheCfg) (b : List Slot) (a : AsyncOp) : List (Nat × List Byte) :=
  let other := (b.filter (fun x => x.num != a.slot)).flatMap (fun x => x.op.writes k c)
  (a.reads.filter (fun r => r.space == .ws && other.any r.overlaps)).map
    (fun r => (64 * r.lo, k.wsBytes (64 * r.lo) (64 * (r.hi + 1 - r.lo))))

/-- The operations that a bundle has begun keep what they are to read of the lines that its other slots write. -/
def CoreState.keepBefore (k old : CoreState) (c : CacheCfg) (b : List Slot) : CoreState :=
  { k with ops := k.ops.map (fun a =>
      if old.ops.any (fun o => o.stamp == a.stamp) then a else { a with before := old.linesBefore c b a }) }

/-- A bundle without a fault takes effect: each slot whose guard holds, in ascending order. Where more than one acts, each
operation keeps the lines that the others write. -/
def State.applyBundle (s : State) (core : Nat) (b : List Slot) : State :=
  let k := s.core core
  let s := (s.onCore core (fun k => { k with pc := k.pc + 1 })).coreBump core 4 2 1
  let b := b.filter (fun x => k.guard x.pred x.pneg)
  let t := b.foldl (fun s x => s.effect core k k.pc x) s
  if b.length ≤ 1 then t else t.onCore core (fun q => q.keepBefore k (s.cacheCfg (s.polderOn core)) b)

/-- The fault that a bundle's faulting slots make (R73): the lowest is named, the others counted.
(DESIGN CHOICE: log entry 22) -/
def preciseFault (pc : Nat) : List (Nat × Cause) → Option PendingFault
  | [] => none
  | f :: more => some { code := f.2.1, detail := f.2.2, slot := f.1, bundle := pc, more := more.length }

/-- Sequential issue past bundle 2,047 (R57). -/
def pastStore : PendingFault := { code := faultIllegal, detail := 5, slot := 7, bundle := 2047, more := 0 }

/-- The fault of a core's next bundle, if it would issue now and faults. -/
def State.nextFault (s : State) (core : Nat) : Option PendingFault :=
  let k := s.core core
  if !s.issuing core then none
  else if 2048 ≤ k.pc then some pastStore
  else match k.issueQ with
    | [] => none
    | b :: _ => if s.bundleWaits core b then none else preciseFault k.pc (s.bundleFaults core b)

/-- A fault at issue. The cores of the context that issue after it in the cycle and fault as well find theirs with it
(R331). (DESIGN CHOICE: log entry 17) -/
def State.faultAtIssue (s : State) (core : Nat) (f : PendingFault) : State :=
  match (s.core core).ctx with
  | none => s
  | some ctx =>
    let later := (s.ctx ctx.toNat).cores.filter (fun n => Nat.blt core n)
    (later.foldl (fun t n => match s.nextFault n with
      | none => t
      | some g => t.raise n g) s).takeFault core f

/-- A precise fault of the bundle at issue (R73): no slot of it takes effect. (DESIGN CHOICE: log entry 22) -/
def State.issueFault (s : State) (core : Nat) (fs : List (Nat × Cause)) : State :=
  match preciseFault (s.core core).pc fs with
  | none => s
  | some f => s.faultAtIssue core f

/-- A bundle issues: its effect, or its fault. -/
def State.issueBundle (s : State) (core : Nat) (b : List Slot) : State :=
  let fs := s.bundleFaults core b
  if fs.isEmpty then s.applyBundle core b else s.issueFault core fs

/-- The next bundle of a core, if one issues now. (DESIGN CHOICE: log entry 25) -/
def State.issueNext (s : State) (core : Nat) : Option State :=
  if !s.issuing core then none
  else
    let k := s.core core
    if 2048 ≤ k.pc then
      some (s.faultAtIssue core pastStore)
    else match k.issueQ with
      | [] => none
      | b :: rest =>
        if s.bundleWaits core b then none
        else some ((s.onCore core (fun k => { k with issueQ := rest })).issueBundle core b)

/-- The engine for whose queue alone a core's next bundle waits (R383). -/
def State.mediaWait (s : State) (core : Nat) : Option Nat :=
  let k := s.core core
  match k.issueQ with
  | b :: _ =>
    if s.issuing core && !k.loading && !b.any (s.slotHeld core k) then
      (b.filter (fun x => k.guard x.pred x.pneg)).findSome? (s.queueFull core k)
    else none
  | [] => none

/-- A core whose bundle waits for a place joins those that wait for that engine, once.
(DESIGN CHOICE: log entry 60) -/
def State.noteWait (s : State) (core : Nat) : State :=
  match s.mediaWait core, (s.core core).ctx with
  | some e, some c =>
    let g := s.engine e
    if g.waiters.contains (core, c) then s else s.setEngine e { g with waiters := g.waiters ++ [(core, c)] }
  | _, _ => s

/-- Bundles of a core issue until one waits. -/
def State.pumpN (core : Nat) : Nat → State → State
  | 0, s => s
  | n + 1, s =>
    match s.issueNext core with
    | none => s
    | some t => State.pumpN core n t

def State.pump (s : State) (core : Nat) : State :=
  (State.pumpN core ((s.core core).issueQ.length + 1) s).noteWait core

/-- Whether a core's next bundle issues now. -/
def State.issues (s : State) (core : Nat) : Bool :=
  let k := s.core core
  s.issuing core && (Nat.ble 2048 k.pc || (match k.issueQ with
    | [] => false
    | b :: _ => !s.bundleWaits core b))

/-- One bundle of each of these cores that issues one, in ascending order. (DESIGN CHOICE: log entry 17) -/
def State.cycle (s : State) (cs : List Nat) : State := cs.foldl (fun s n => ((s.issueNext n).getD s).noteWait n) s

/-- Cycles go on until every one of these cores waits. -/
def State.cycles (cs : List Nat) : Nat → State → State
  | 0, s => s
  | n + 1, s => if cs.any s.issues then State.cycles cs n (s.cycle cs) else s

/-- Bundles of several cores issue until each waits. (DESIGN CHOICE: log entry 21) -/
def State.pumpCores (s : State) (cs : List Nat) : State :=
  cs.foldl State.noteWait (State.cycles cs ((cs.map (fun n => (s.core n).issueQ.length + 1)).sum) s)

/-- Freed places of an engine's queue go to the bundles that wait for them, in order of arrival (R383). -/
def State.grantPlaces (e : Nat) : Nat → State → State
  | 0, s => s
  | n + 1, s =>
    let g := s.engine e
    match g.waiters with
    | [] => s
    | (core, c) :: rest =>
      if 64 ≤ g.queue.length then s
      else
        let t := if (s.core core).ctx == some c then (s.issueNext core).getD s else s
        State.grantPlaces e n (t.setEngine e { t.engine e with waiters := rest })

/-- Every core with waiting bundles, those first that wait for a place in an engine's queue.
(DESIGN CHOICE: log entry 21) -/
def State.pumpAll (s : State) : State :=
  let t := [0, 1, 2, 3].foldl (fun s e => State.grantPlaces e (s.engine e).waiters.length s) s
  t.pumpCores ((t.cores.filter (fun c => !c.2.issueQ.isEmpty)).map Prod.fst)

/-! ### Staging (R53) -/

/-- Whether a slot number is one that the operation's slot has. (DESIGN CHOICE: log entry 16) -/
def SlotOp.slotOk (o : SlotOp) (n : Nat) : Bool :=
  match o with
  | .add _ | .sub _ | .mul _ | .and _ | .or _ | .xor _ | .shl _ | .shr _ | .sar _ | .min _ | .max _ | .cmpEq _ | .cmpNe _
  | .cmpLt _ | .cmpLtu _ | .cmpLe _ | .cmpLeu _ | .ld _ | .st _ | .sys _ => n ≤ 1
  | .aLoop _ | .aLoad _ | .aStore _ | .aWait _ | .kvload _ | .kvappend _ | .sample _ | .update _ _ => n == 2 || n == 3
  | .stream _ _ | .gstream _ | .drain _ _ | .mWait _ => n == 4
  | .vFma _ | .vAdd _ | .vMul _ | .vMax _ | .vMin _ | .vExp2 _ | .vLog2 _ | .vCvt _ | .vLd _ | .vSt _ | .vSel _ | .vCmp _
  | .vRsum _ _ | .vWin _ _ | .sluice _ _ | .rng _ _ => n == 5 || n == 6
  | _ => n == 7

/-- A slot among those of its bundle, by number; a later one with the same number replaces it.
(DESIGN CHOICE: log entry 20) -/
def putSlot (x : Slot) : List Slot → List Slot
  | [] => [x]
  | y :: r => if x.num < y.num then x :: y :: r else if x.num = y.num then x :: r else y :: putSlot x r

/-- A slot arrives for the bundle that stands at the core's bundle address; the last one completes it.
(DESIGN CHOICE: log entry 16) (DESIGN CHOICE: log entry 19) (DESIGN CHOICE: log entry 20) -/
def State.stage (s : State) (h : SlotAt) (op : SlotOp) : State :=
  let core := h.core.toNat
  let k := s.core core
  if !s.coreEnabled core || k.ctx.isNone || !op.slotOk h.slot.toNat then s
  else
    let b := putSlot { num := h.slot.toNat, pred := h.pred, pneg := h.pneg, op := op } k.staged
    if h.last then (s.setCore core { k with staged := [], issueQ := k.issueQ ++ [b] }).pump core
    else s.setCore core { k with staged := b }

end Sys2Proof.Machine
end

