-- ==== Sys2Proof/Machine/Complete.lean ====
section
/-! DEFINITION. How asynchronous operations end (R65, R67 to R69, R72, R94, R129, R140, R155, R234, R239 to R241, R254,
R276, R281, R370): each command finds the operation it names, does what remains of it, and frees its tag. A command that
names nothing unfinished changes nothing. -/

namespace Sys2Proof.Machine

/-! ### Operations under a tag -/

/-- The unfinished operation of a kind under a tag. -/
def CoreState.opUnder (k : CoreState) (t : Nat) (f : Op → Bool) : Option AsyncOp :=
  k.ops.find? (fun a => a.tag == some t && f a.op)

/-- The core without an operation. -/
def CoreState.without (k : CoreState) (a : AsyncOp) : CoreState :=
  { k with ops := k.ops.filter (fun o => o.stamp != a.stamp) }

/-- An operation is finished, or its fault waits for the next bundle boundary (R73). -/
def State.endOp (s : State) (core : Nat) (a : AsyncOp) (f : Option (Nat × W64)) : State :=
  let s := s.onCore core (fun k => k.without a)
  match f with
  | none => s.pump core
  | some c => s.raise core { code := c.1, detail := c.2, slot := a.slot, bundle := a.bundle, more := 0 }

def WalkFault.cause (f : WalkFault) : Cause := (f.code, f.detail)

/-- `X.ILOAD` (R64): the bundles go into the instruction store. (DESIGN CHOICE: log entry 19) -/
def State.runIload (s : State) (core p : Nat) (addr : W64) (n target : Nat) : State × Option WalkFault :=
  match s.unitRead core p addr (128 * n) with
  | (s, .error f) => (s, some f)
  | (s, .ok bs) =>
    let words := (pieces 128 n bs).map (fun b => BitVec.ofNat 1024 (ofBytes b))
    (s.onCore core (fun k => { k with istore := putCells k.istore target words }), none)

/-- What remains of an operation of the core's own units. -/
def State.runOp (s : State) (core : Nat) (op : Op) : State × Option WalkFault :=
  let p := s.polderOn core
  match op with
  | .load ag w base line =>
    let r := s.runLoad core p ag w base line
    (r.state, r.fault)
  | .store ag w base line =>
    let r := s.runStore core p ag w base line
    (r.state, r.fault)
  | .stream j => if j.attn then s.runAttn core j else s.runStream core j
  | .drain j => s.runDrain core j
  | .iload addr n target => s.runIload core p addr n target
  | .sample draw rng line => s.runSample core draw rng line
  | .update func line desc => s.runUpdate core func line desc
  | _ => (s, none)

/-- A store of the core for an operation: the lines as they stood before its bundle where another slot of the bundle wrote
them (R56). -/
def CoreState.seenBy (k : CoreState) (a : AsyncOp) : CoreState := a.before.foldl (fun k x => k.putWs x.1 x.2) k

/-- The bytes of those lines that the operation has left alone take back what the bundle's other slots wrote.
(DEDUCED: log entry 85) -/
def CoreState.unseen (k old : CoreState) (a : AsyncOp) : CoreState :=
  a.before.foldl (fun k x => k.putWs x.1 ((x.2.zip ((k.wsBytes x.1 x.2.length).zip (old.wsBytes x.1 x.2.length))).map
    (fun b => if b.1 = b.2.1 then b.2.2 else b.2.1))) k

/-- `act` runs for an operation that sees its lines as they stood before its bundle (R56). -/
def State.seeing {α : Type} (s : State) (core : Nat) (a : AsyncOp) (act : State → State × α) : State × α :=
  if a.before.isEmpty then act s
  else
    let r := act (s.onCore core (fun k => k.seenBy a))
    (r.1.onCore core (fun k => k.unseen (s.core core) a), r.2)

/-- Where the generators of an operation stand when it ends (R51): past its walks, or at the element that faulted.
(DEDUCED: log entry 85) -/
def CoreState.walked (k : CoreState) (o : Op) (f : Option WalkFault) : CoreState :=
  o.agens.foldl (fun q g => q.atPos [g] ((f.map WalkFault.k).getD (k.walkD g).count)) k

/-- The operation of a kind under a tag finishes. (DESIGN CHOICE: log entry 16) (DESIGN CHOICE: log entry 18) -/
def State.finish (s : State) (core tag : Nat) (f : Op → Bool) : State :=
  match (s.core core).opUnder tag f with
  | none => s
  | some a =>
    let r := s.seeing core a (fun s => s.runOp core a.op)
    (r.1.onCore core (fun k => k.walked a.op r.2)).endOp core a (r.2.map WalkFault.cause)

/-- The same for a unit that a core has one of, which takes a second operation of one bundle after the first (R271,
R283). (DEDUCED: log entry 85) -/
def State.finishFirst (s : State) (core tag : Nat) (f : Op → Bool) : State :=
  match (s.core core).ops.find? (fun a => f a.op) with
  | none => s
  | some a => if a.tag = some tag then s.finish core tag f else s

def Op.isLoad : Op → Bool
  | .load _ _ _ _ => true
  | _ => false

def Op.isStore : Op → Bool
  | .store _ _ _ _ => true
  | _ => false

def Op.isIload : Op → Bool
  | .iload _ _ _ => true
  | _ => false

/-! ### Exchange (R67) -/

/-- The puts of a context to a receive of a rank under a tag: core and operation. (DEDUCED: log entry 29) -/
def State.putsTo (s : State) (ctx rank tag : Nat) : List (Nat × AsyncOp) :=
  (s.ctx ctx).cores.flatMap (fun n => (s.core n).ops.filterMap (fun a => match a.op with
    | .put r _ _ t => if r = rank ∧ t = tag then some (n, a) else none
    | _ => none))

/-- The one that was issued first. (DEDUCED: log entry 29) -/
def earliest (xs : List (Nat × AsyncOp)) : Option (Nat × AsyncOp) :=
  xs.foldl (fun a x => match a with
    | none => some x
    | some y => if x.2.stamp < y.2.stamp then some x else some y) none

def Op.isRecv : Op → Bool
  | .recv _ _ => true
  | _ => false

/-- The last line of a put reaches the receiver, or the lengths differ and the receiver faults: its receive has then
accepted its one put. (DEDUCED: log entry 29) -/
def State.deliver (s : State) (src : Nat) (a : AsyncOp) (dst : Nat) (b : AsyncOp) : State :=
  match a.op, b.op with
  | .put _ line n _, .recv to' m =>
    if n ≠ m then
      (s.onCore dst (fun k => k.without b)).raise dst
        { code := faultIllegal, detail := 7, slot := b.slot, bundle := b.bundle, more := 0 }
    else
      let bs := ((s.core src).seenBy a).wsBytes (64 * line) (64 * n)
      let s := s.onCore dst (fun k => (k.putWs (64 * to') bs).without b)
      (s.onCore src (fun k => k.without a)).pumpCores [src, dst]
  | _, _ => s

/-- A transfer that one of its two sides names completes: a put names itself, a receive takes the earliest put.
(DEDUCED: log entry 29) -/
def State.exchange (s : State) (core tag : Nat) : State :=
  let k := s.core core
  match k.ctx with
  | none => s
  | some c =>
    match k.opUnder tag Op.isRecv with
    | some b =>
      match earliest (s.putsTo c.toNat k.rank tag) with
      | none => s
      | some x => s.deliver x.1 x.2 core b
    | none =>
      match k.opUnder tag (fun o => match o with
        | .put _ _ _ _ => true
        | _ => false) with
      | none => s
      | some a =>
        match a.op with
        | .put r _ _ t =>
          match (s.ctx c.toNat).cores[r]? with
          | none => s
          | some dst =>
            match (s.core dst).opUnder t Op.isRecv with
            | none => s
            | some b => s.deliver core a dst b
        | _ => s

/-! ### Work counters (R71, R72) -/

/-- A controller serves the request at the head of its queue: the old value returns, the new one stands.
(DEDUCED: log entry 52) (DESIGN CHOICE: log entry 84) -/
def State.serveCounter (s : State) (q : Nat) : State :=
  match (tblFind s.ctrQ q).getD [] with
  | [] => s
  | r :: rest =>
    let a := 16 * q + r.counter
    let old := cell s.counters a
    let new := if r.isSet then r.operand else old + r.operand
    let s := { s with counters := putCell s.counters a new, ctrQ := tblPut s.ctrQ q rest }
    let s := if rest.any (fun x => x.counter == r.counter) then s.timingChoice r.ctx.toNat else s
    let k := s.core r.core
    if k.ctx = some r.ctx ∧ (s.ctx r.ctx.toNat).openAt = r.opened then
      ((s.setCore r.core (k.setG r.dst old)).onCore r.core (fun k => k.freeTag r.tag)).pump r.core
    else s

/-! ### The cache home (R234, R239 to R242) -/

/-- The home serves an `X.SEQ` that is the first request it does not hold, and then what waits behind it for no command. -/
def State.serveHome (s : State) (p : Nat) : State :=
  match s.servable p with
  | some (.seq r) =>
    let s := (s.granted p (.seq r)).answerSeq p r
    (State.drainHome p (s.polder p).homeQ.length s).pumpAll
  | _ => s

def Op.isKvload : Op → Bool
  | .kvload _ => true
  | _ => false

/-- A load asks the home to release its pins; its tag is free when that is served (R239). -/
def State.endKvload (s : State) (core tag : Nat) : State :=
  let k := s.core core
  match k.opUnder tag Op.isKvload, k.ctx with
  | some a, some c =>
    match a.op with
    | .kvload j =>
      if j.stage = .translated then
        ((s.onCore core (fun k => k.setJob a.stamp { j with stage := .releasing })).askHome (s.polderOn core)
          (.release { ctx := c, rank := k.rank, tag := tag, slot := a.slot, bundle := a.bundle })).pumpAll
      else s
    | _ => s
  | _, _ => s

/-- A copy on write of an append switches its entry (R241). (DEDUCED: log entry 49) -/
def State.switchCow (s : State) (core tag : Nat) : State :=
  match (s.core core).opUnder tag Op.isAppend with
  | none => s
  | some a =>
    match a.op with
    | .kvappend j =>
      match j.cows with
      | [] => s
      | (e, old, new) :: rest =>
        let r := s.cowSwitch (s.polderOn core) e old new
        match r.2 with
        | some f => r.1.endOp core a (some f)
        | none =>
          r.1.onCore core (fun k => k.setJob a.stamp { j with cows := rest })
    | _ => s

/-- An append whose pages are resolved writes its rows and frees its tag (R240). -/
def State.endKvappend (s : State) (core tag : Nat) : State :=
  match (s.core core).opUnder tag Op.isAppend with
  | none => s
  | some a =>
    match a.op with
    | .kvappend j =>
      if j.stage = .translated ∧ j.cows = [] then
        ((s.seeing core a (fun s => (s.kvWrite core (s.polderOn core) j, ()))).1.endOp core a none).pumpAll
      else s
    | _ => s

/-! ### Posts, windows, fabric, media -/

/-- The sluice home serves the next post (R254); a poisoned word raises `UNCORRECTABLE` at the core that
posted (R310). (DESIGN CHOICE: log entry 45) -/
def State.servePost (s : State) (p : Nat) : State :=
  match (s.polder p).posts with
  | [] => s
  | x :: rest =>
    let r := (s.onPolder p (fun q => { q with posts := rest })).setMapBit x
    match r.2 with
    | none => r.1
    | some a => r.1.atRank x.ctx.toNat x.rank (fun k =>
        k.noteFault { code := faultUncorrectable, detail := a, slot := x.slot, bundle := x.bundle, more := 0 })

/-- A `V.WIN` writes its register and frees its pipe (R155, R166). (DEDUCED: log entry 40) -/
def State.endWin (s : State) (core : Nat) (pipe : Bool) : State :=
  match (s.core core).ops.find? (fun a => match a.op with
    | .win b _ _ _ => b == pipe
    | _ => false) with
  | none => s
  | some a =>
    match a.op with
    | .win _ vd value taps =>
      (((s.onCore core (fun k => k.setV vd value)).coreBump core 9 3 1).coreBump core 9 4 taps).endOp core a none
    | _ => s

/-- A fabric operation that is ready to complete does so (R370). -/
def State.doneFabric (s : State) (id : Nat) : State :=
  match s.fabricOp id with
  | none => s
  | some o => if o.state = 1 then (s.endFabric o).pumpAll else s

/-! ### Barriers (R68, R69) -/

/-- Whether an unfinished operation keeps its core from arriving at a barrier (R68). (DEDUCED: log entry 28) -/
def Op.delaysBarrier : Op → Bool
  | .store _ _ _ _ | .put _ _ _ _ | .counter _ | .seq _ | .kvappend _ | .update _ _ _ | .fabric _ | .media _ _ => true
  | .drain j => j.out.2.space
  | _ => false

/-- Whether posts of a core are still to be served (R256). (DEDUCED: log entry 28) -/
def State.posting (s : State) (core : Nat) : Bool :=
  (s.polder (s.polderOn core)).posts.any (fun x => x.core == core)

/-- Whether a core has arrived at a barrier of a scope. (DEDUCED: log entry 28) -/
def State.arrived' (s : State) (core : Nat) (scope : Bool) : Bool :=
  let k := s.core core
  k.hold == .barrier scope && k.fault.isNone && !k.ops.any (fun a => a.op.delaysBarrier) && !s.posting core

/-- The cores that a barrier joins. -/
def State.joined (s : State) (ctx : Nat) (scope : Bool) (site : Nat) : List Nat :=
  (s.ctx ctx).cores.filter (fun n => !scope || siteOf n == site)

/-- The barrier tree releases the scope once its last core has arrived. -/
def State.releaseBarrier (s : State) (ctx : Nat) (scope : Bool) (site : Nat) : State :=
  let cs := s.joined ctx scope site
  if (s.ctx ctx).state = 3 ∧ !cs.isEmpty ∧ cs.all (fun n => s.arrived' n scope) then
    (cs.foldl (fun s n => s.onCore n (fun k => { k with hold := .none })) s).pumpCores cs
  else s

/-- The fault that waits on a core is taken at its bundle boundary (R73). -/
def State.boundary (s : State) (core : Nat) : State :=
  match (s.core core).fault with
  | none => s
  | some f => s.takeFault core f

end Sys2Proof.Machine
end

