-- ==== Sys2Proof/Machine/AgenCommands.lean ====
section
/-! DEFINITION. The address-generator slots and the ends of their walks (04_loops_tiling.md). -/

namespace Sys2Proof.Machine

/-- A_LOOP (R83): Checks a descriptor table, copies it into an address generator and resets its walk. -/
def execALoop (h : SlotAt) (f : AFields) (s : State) : Host.Outcome State Fault Refusal :=
  .next (s.stage h (.aLoop f))

/-- A_LOAD (R88): Starts a walk that loads memory into the working store. -/
def execALoad (h : SlotAt) (f : AFields) (s : State) : Host.Outcome State Fault Refusal :=
  .next (s.stage h (.aLoad f))

/-- A_LOAD_DONE (R94): The load walk finishes its reads and zero fills and frees its tag. -/
def execALoadDone (core : Byte) (tag : BitVec 4) (s : State) : Host.Outcome State Fault Refusal :=
  .next (s.finish core.toNat tag.toNat Op.isLoad)

/-- A_STORE (R88): Starts a walk that stores working-store data to memory. -/
def execAStore (h : SlotAt) (f : AFields) (s : State) : Host.Outcome State Fault Refusal :=
  .next (s.stage h (.aStore f))

/-- A_STORE_DONE (R93): The store walk issues its last complete code word and frees its tag. -/
def execAStoreDone (core : Byte) (tag : BitVec 4) (s : State) : Host.Outcome State Fault Refusal :=
  .next (s.finish core.toNat tag.toNat Op.isStore)

/-- A_WAIT (R65): The bundle waits at issue until the named tag is free. -/
def execAWait (h : SlotAt) (f : AFields) (s : State) : Host.Outcome State Fault Refusal :=
  .next (s.stage h (.aWait f))

end Sys2Proof.Machine
end

