-- ==== Sys2Proof/Machine/Packages.lean ====
section
/-! DEFINITION. Packages, saves and restores, moves, polder forming and the context table (16_partitions.md R320 to R341,
R64, R70, R75, R76, R353, R359). -/

namespace Sys2Proof.Machine

/-! ### Packages (R64, R70, R353, R359) -/

/-- A core as a package starts on it: zeroed in the context's first package (R325), g1 and g2 set, at `START`. -/
def CoreState.startPkg (k : CoreState) (ctx rank : Nat) (fresh : Bool) (x : Pkg) (words : List (BitVec 1024)) :
    CoreState :=
  let b := if fresh then { CoreState.reset with power := k.power, waking := k.waking } else k
  { b with ctx := some (BitVec.ofNat 12 ctx), rank := rank, istore := putCells b.istore 0 words,
           g := putCell (putCell b.g 1 x.dest) 2 (BitVec.ofNat 64 x.ordinal), pc := x.start, running := true,
           hold := .none, staged := [], issueQ := [] }

/-- One core loads the program and stands at `START`; the first poisoned byte of the program, if any (R64). -/
def State.loadPkg (s : State) (ctx rank core : Nat) (fresh : Bool) (x : Pkg) : State × Option W64 :=
  let r := s.readView (coreFor (polderOf ctx) core) x.program (128 * x.bundles)
  let words := (pieces 128 x.bundles r.data).map (fun b => BitVec.ofNat 1024 (ofBytes b))
  (r.state.onCore core (fun k => k.startPkg ctx rank fresh x words), r.poison)

/-- The next package of a chosen context whose cores are all in RUN starts. -/
def State.startPackage (s : State) (ctx : Nat) : State :=
  let c := s.ctx ctx
  match c.queue with
  | [] => s
  | x :: rest =>
    if !(c.granted && c.state == 2 && s.allRun c && c.running.isNone) then s
    else
      let r := c.cores.zipIdx.foldl (fun (a : State × Option (Nat × W64)) n =>
        let l := a.1.loadPkg ctx n.2 n.1 (!c.hasState) x
        (l.1, match a.2, l.2 with
          | none, some p => some (n.1, p)
          | o, _ => o)) (s, none)
      let s := r.1.setCtx ctx { c with state := 3, queue := rest, running := some x, hasState := true }
      match r.2 with
      | none => s
      | some p => s.takeFault p.1 { code := faultUncorrectable, detail := p.2, slot := 7, bundle := x.start, more := 0 }

/-- Whether a core has arrived at the closing barrier (R70, R359). (DESIGN CHOICE: log entry 53) -/
def State.closed (s : State) (core : Nat) : Bool :=
  let k := s.core core
  k.hold == .halted && k.ops.isEmpty && k.fault.isNone && !s.posting core

/-- A core between packages: clock-gated when no package of the context waits. -/
def CoreState.endPkg (k : CoreState) (idle : Bool) : CoreState :=
  { k with running := false, hold := .none, staged := [], issueQ := [], power := if idle then 1 else k.power }

/-- The closing barrier completes: the package's slot becomes READY, and the context waits for its next package. -/
def State.endPackage (s : State) (ctx : Nat) : State :=
  let c := s.ctx ctx
  match c.running with
  | none => s
  | some x =>
    if !(c.state == 3 && c.slotFree (x.ordinal % 256) && c.cores.all s.closed) then s
    else
      let s := s.placeRecord ctx { ordinal := x.ordinal, code := 0, ran := some x }
      let idle := c.queue.isEmpty
      let s := c.cores.foldl (fun s n => s.onCore n (fun k => k.endPkg idle)) s
      let s := s.onCtx ctx (fun c => { c with state := if idle then 1 else 2, running := none, granted := false })
      (if idle then s else s.stampReady ctx).schedule (polderOf ctx)

/-- `HOST_STALLED` of a closing barrier that has waited too long for its slot (R336). -/
def State.holdExpiry (s : State) (ctx : Nat) : State :=
  let c := s.ctx ctx
  match c.running with
  | none => s
  | some x =>
    if c.state == 3 && !c.slotFree (x.ordinal % 256) && c.cores.all s.closed then
      s.event (polderIndex (polderOf ctx) 1) 2 1
    else s

/-! ### Pre-emption (R324, R327) -/

/-- A request to pre-empt a context: without effect unless it runs and is pre-emptible. -/
def State.requestPreempt (s : State) (ctx : Nat) : State :=
  let c := s.ctx ctx
  if c.state == 3 && c.preemptible then s.preempt ctx else s

/-- A slice ends: a ready context of equal priority that waits for a site of the running one takes its turn. -/
def State.sliceEnd (s : State) (ctx : Nat) : State :=
  let c := s.ctx ctx
  let p := polderOf ctx
  let rival := (s.ctxsOf p).any (fun x => x.1 != ctx && x.2.waits && x.2.prio == c.prio && x.2.overlaps c)
  if s.entry (polderIndex p 0) 5 != 0 && c.state == 3 && c.preemptible && rival then
    (s.preempt ctx).schedule p
  else s

/-! ### Save images (R76, R326) -/

/-- The first address of a core's save image. (DESIGN CHOICE: log entry 54) -/
def imageAddr (saveOff : W64) (core : Nat) : W64 :=
  BitVec.ofNat 64 (siteOf core * 2 ^ 34 + saveOff.toNat + imageBytes * (core % 9))

/-- The sections of an image by offset whose content R76 fixes, the pipeline image as it was captured. -/
def CoreState.imageParts (k : CoreState) : List (Nat × List Byte) :=
  [(4096, (cells k.v 0 64).flatMap (fun v => toBytes 512 v.toNat)),
   (36864, (cells k.bankA.acc 0 16384).flatMap (fun v => toBytes 4 v.toNat)),
   (102400, (cells k.bankB.acc 0 16384).flatMap (fun v => toBytes 4 v.toNat)),
   (167936, toBytes 131072 k.pipeline.toNat),
   (299008, (cells k.sstore 0 8192).flatMap (fun v => toBytes 8 v.toNat)),
   (364544, (cells k.istore 0 2048).flatMap (fun v => toBytes 128 v.toNat)),
   (626688, cells k.ws 0 4194304)]

/-- The pipeline image is captured (R75 step 3): what its cells then hold is a free value. (DESIGN CHOICE: log entry 54) -/
def State.capture (s : State) (core : Nat) : State :=
  let pipe : BitVec 1048576 := s.freeVal 1048576
  s.usedFree.onCore core (fun k => { k with pipeline := pipe })

/-- The image of a core is written; the bytes of its header section are free values.
(DESIGN CHOICE: log entry 54) -/
def State.writeImage (s : State) (p core : Nat) (a : W64) (k : CoreState) : State :=
  let head : BitVec 32768 := s.freeVal 32768
  let parts := (0, toBytes 4096 head.toNat) :: k.imageParts
  parts.foldl (fun s x => s.writeView (coreFor p core) (a + BitVec.ofNat 64 x.1) x.2) s.usedFree

/-- A core that a saved context leaves. -/
def State.vacate (s : State) (core : Nat) : State :=
  let k := s.core core
  s.setCore core { CoreState.reset with power := if k.power = 0 then 1 else k.power, waking := k.waking }

/-! ### Moves (R329) -/

/-- The enabled cores of a mask, by site. -/
def State.coresBySite (s : State) (mask : Nat) : List (List Nat) :=
  (sitesOf mask).map (fun x => (s.coresOf mask).filter (fun n => siteOf n == x))

/-- Whether a context may be moved to a mask. -/
def State.moveOk (s : State) (ctx : Nat) (mask : W16) : Bool :=
  let p := polderOf ctx
  (mask.toNat &&& s.polderMask p) == mask.toNat
    && (s.coresBySite mask.toNat).map List.length == (s.coresBySite (s.ctx ctx).sites.toNat).map List.length

/-- Bytes are read for a core's new slot, beside those read before and the first poisoned address so far. -/
def State.readFor (s : State) (r : Requester) (a : W64) (n core : Nat) (l : List (Nat × List Byte)) (bad : Option W64) :
    State × List (Nat × List Byte) × Option W64 :=
  let b := s.readView r a n
  (b.state, if b.poison.isSome then l else l ++ [(core, b.data)], bad.or b.poison)

/-- The images of a saved context as they are read for a copy: each for its new core, the first poisoned address.
(DEDUCED: log entry 56) -/
def State.readImagesFor (s : State) (p : Nat) (saveOff : W64) (xs : List (Nat × Nat)) :
    State × List (Nat × List Byte) × Option W64 :=
  xs.foldl (fun (a : State × List (Nat × List Byte) × Option W64) x =>
    a.1.readFor (coreFor p x.1) (imageAddr saveOff x.1) imageBytes x.2 a.2.1 a.2.2) (s, [], none)

/-- The images of a saved context are copied to the slots of its new cores: all are read before the first is written, as
the old slots and the new ones may be the same bytes. (DEDUCED: log entry 56) -/
def State.copyImages (s : State) (p : Nat) (saveOff : W64) (old new : List Nat) : State × Option W64 :=
  let r := s.readImagesFor p saveOff (old.zip new)
  (r.2.1.foldl (fun s x => s.writeView (coreFor p x.1) (imageAddr saveOff x.1) x.2) r.1, r.2.2)

/-- A context that stands on no core takes its new mask. (DEDUCED: log entry 56) -/
def State.moveNow (s : State) (ctx : Nat) (mask : W16) : State :=
  let c := s.ctx ctx
  let p := polderOf ctx
  let new := s.coresOf mask.toNat
  let r := if c.images.isEmpty then (s, none) else s.copyImages p c.saveOff c.cores new
  let s := (r.1.onCtx ctx (fun c => { c with sites := mask, cores := new, moveTo := none })).bump32 (polderIndex p 3) 6
  match r.2 with
  | some b => s.faultContext ctx faultUncorrectable b
  | none => s

/-- An accepted `CONTEXT_MOVE`. (DEDUCED: log entry 56) -/
def State.moveContext (s : State) (ctx : Nat) (mask : W16) : State :=
  let c := s.ctx ctx
  if c.state = 0 then s
  else if c.state = 4 ∨ c.state = 6 then s.setCtx ctx { c with moveTo := some mask }
  else if c.resident then (s.setCtx ctx { c with moveTo := some mask }).preempt ctx
  else
    let s := if c.granted then s.preempt ctx else s
    (s.moveNow ctx mask).schedule (polderOf ctx)

/-! ### Saves and restores (R75, R76, R327) -/

/-- Whether a core can be saved: no fault to take, and no counter request outstanding (R74, R75).
(DESIGN CHOICE: log entry 55) -/
def State.savable (s : State) (core : Nat) : Bool :=
  let k := s.core core
  k.fault.isNone && !s.posting core && !k.ops.any (fun a => match a.op with
    | .counter _ => true
    | _ => false)

/-- Every image is written and the context is SAVED. (DESIGN CHOICE: log entry 55) -/
def State.saved (s : State) (ctx : Nat) : State :=
  let c := s.ctx ctx
  let p := polderOf ctx
  if !(c.state == 4 && c.cores.all s.savable) then s
  else
    let s := c.cores.foldl State.capture s
    let images := c.cores.map s.core
    let s := c.cores.foldl (fun s n => s.writeImage p n (imageAddr c.saveOff n) (s.core n)) s
    let s := s.writeRecord ctx
    let s := c.cores.foldl (fun s n => (s.vacate n).event (coreIndex n 2) 1 1) s
    let s := s.setCtx ctx { c with state := 5, granted := false, images := images, preempted := (c.preempted + 1) % 2 ^ 32 }
    let s := s.bump (polderIndex p 3) 2 1
    let s := match c.moveTo with
      | some m => s.moveNow ctx m
      | none => s
    let s := if c.queue.isEmpty && c.running.isNone then s else s.stampReady ctx
    s.schedule p

/-- `n` bytes are read; the first poisoned address so far. -/
def State.probeBytes (s : State) (r : Requester) (a : W64) (n : Nat) (bad : Option W64) : State × Option W64 :=
  let x := s.readView r a n
  (x.state, bad <|> x.poison)

/-- The images are read back: the first poisoned word, of an image or of the context's record.
(DESIGN CHOICE: log entry 54) (DESIGN CHOICE: log entry 84) -/
def State.readImages (s : State) (ctx : Nat) : State × Option W64 :=
  let c := s.ctx ctx
  let p := polderOf ctx
  let rec0 := s.readView (ioFor p) (s.recordsAt p + BitVec.ofNat 64 (256 * (ctx % 256))) 256
  c.cores.foldl (fun (a : State × Option W64) n =>
    a.1.probeBytes (coreFor p n) (imageAddr c.saveOff n) imageBytes a.2) (rec0.state, rec0.poison)

/-- A restored context resumes. (DESIGN CHOICE: log entry 54) -/
def State.restored (s : State) (ctx : Nat) : State :=
  let c := s.ctx ctx
  let p := polderOf ctx
  if c.state != 6 then s
  else
    let r := s.readImages ctx
    match r.2 with
    | some b => r.1.faultContext ctx faultUncorrectable b
    | none =>
      let idle := c.running.isNone && c.queue.isEmpty
      let s := (c.cores.zip c.images).foldl (fun s x =>
        (s.onCore x.1 (fun k => { x.2 with power := if idle then 1 else k.power, waking := k.waking })).event
          (coreIndex x.1 2) 2 1) r.1
      let s := s.setCtx ctx
        { c with state := if c.running.isSome then 3 else if idle then 1 else 2, images := [], granted := !idle }
      let s := s.bump (polderIndex p 3) 3 1
      if c.moveTo.isSome then s.preempt ctx
      else s.pumpCores c.cores

/-! ### Polders (R315, R320, R340) -/

/-- Entries of a polder that its forming zeroes, and those that a site's joining zeroes, lose their stored values.
(DEDUCED: log entry 51) -/
def zeroedBy (key : Nat) : Zeroed :=
  match rowOf (key / 256) (key % 256) with
  | some r => r.zeroed
  | none => .never

/-- The unit that a per-instance index belongs to. -/
def rowAtIndex (index : Nat) : Option EntryRow := entryRows.find? (fun r => r.coversIndex index)

/-- Instance of an index in its row's block. -/
def EntryRow.instOf (r : EntryRow) (index : Nat) : Nat := if r.stride = 0 then 0 else (index - r.base) / r.stride

/-- The polder of an entry's block, or the site of a site's unit. -/
inductive Place where
  | device
  | polder (p : Nat)
  | site (s : Nat)
  deriving DecidableEq, Repr

def placeOf (unit : UnitKind) (i : Nat) : Place :=
  match unit with
  | .core => .site (siteOf i)
  | .site => .site i
  | .channel => .site (i / 16)
  | .polder => .polder i
  | _ => .device

/-- Where an index stands: a record's own block for a status record, its row's otherwise. -/
def indexPlace (index : Nat) : Place :=
  match statusOf index with
  | some r => placeOf r.unit (if r.stride = 0 then 0 else (index - r.base) / r.stride)
  | none =>
    match rowAtIndex index with
    | some r => placeOf r.unit (r.instOf index)
    | none => .device

/-- What zeroes the counters of a status record (R30). -/
def zeroedAt (index sub : Nat) : Zeroed :=
  match statusOf index with
  | some r => if 3 ≤ sub then r.zeroed else .never
  | none => zeroedBy (entryKey index sub)

/-- A polder without an initialised cache (R247). -/
def State.dropCache (s : State) (p : Nat) : State :=
  let s := s.onPolder p (fun q => { q with cacheInit := false, stackDepth := 0, homeQ := [] })
  ((s.setCacheCount p 1 0).setCacheCount p 2 0).setCacheCount p 3 0

/-- A polder is formed: its counters are zeroed, its homes stand at its lowest site, its cache is uninitialised.
(DEDUCED: log entry 51) -/
def State.formPolder (s : State) (p : Nat) : State :=
  let s := { s with
    dict := s.dict.filter (fun x => !(indexPlace (x.1 / 256) == Place.polder p && zeroedAt (x.1 / 256) (x.1 % 256) == Zeroed.formed)) }
  let home := (sitesOf (s.polderMask p)).headD 0 * 16
  let s := (s.setEntry (0x7010 + p) 0xC home).setEntry (0x7110 + p) 0 home
  let s := (s.dropCache p).onPolder p (fun q => { q with formed := true, joining := 0 })
  s.event (polderIndex p 1) 3 1

/-- Memory of a site is zero with valid checks, and its words are without soft errors (R315).
(DESIGN CHOICE: log entry 13) -/
def State.zeroSite (s : State) (site : Nat) : State :=
  { s with
    mem := clearCells s.mem (site * 2 ^ 34) (2 ^ 34)
    check := clearCells s.check (site * 2 ^ 32) (2 ^ 32)
    memErr := s.memErr.filterMap (fun x =>
      if x.1 / 2 ^ 28 = site then (if x.2.hard = [] then none else some (x.1, { x.2 with soft := [] })) else some x) }

/-- A site has joined: memory, counters and the entries of its units start from zero (R71, R315). -/
def State.joinSite (s : State) (site : Nat) : State :=
  let s := (s.zeroSite site).zeroCounters site
  { s with
    dict := s.dict.filter (fun x => !(indexPlace (x.1 / 256) == Place.site site && zeroedAt (x.1 / 256) (x.1 % 256) == Zeroed.joined)) }

/-- A joining site completes its fill; the last one forms its polder (R315, R320). -/
def State.siteFilled (s : State) (site : Nat) : State :=
  match s.polderOfSite site with
  | none => s
  | some p =>
    let q := s.polder p
    if !q.joining.getLsbD site then s
    else
      let s := s.joinSite site
      let rest := q.joining &&& ~~~((1 : W16) <<< site)
      let s := s.onPolder p (fun x => { x with joining := rest })
      if rest = 0 then s.formPolder p else s

/-- A site leaves its polder: its stack is powered down and its content lost. (DESIGN CHOICE: log entry 13) -/
def State.dropSite (s : State) (site : Nat) : State :=
  let s := s.zeroSite site
  ((s.setEntry (0x3300 + site) 1 0).setEntry (0x3300 + site) 3 0).setEntry (0x3300 + site) 4 0

/-- An accepted mask of a polder: what leaves is powered down, what joins waits for its fill (R320, R384, R413). -/
def State.applyMask (s : State) (p : Nat) (old new : Nat) : State :=
  let leaves := sitesOf (old &&& (old ^^^ new))
  let joins := new &&& (old ^^^ new)
  let s := leaves.foldl State.dropSite s
  let s := if leaves.isEmpty then s else s.closeStreams p
  let s := s.eraseSeals p
  let waits := (s.polder p).joining.toNat &&& new ||| joins
  let s := (s.dropCache p).onPolder p (fun q =>
    { q with formed := q.formed && waits == 0 && new != 0, joining := BitVec.ofNat 16 waits })
  if new != 0 && waits == 0 then s.formPolder p else s

/-! ### The context table (R333, R340, R341) -/

/-- A ratio of the tide gauge, 1.0 while its denominator is 0 (R333). -/
def gaugeRatio (n : W64) (d : Int) : W32 :=
  if d = 0 then 0x3F800000#32 else (write32 [] ((Fv.ofInt n.toNat 0).div (Fv.ofInt d 0))).1

/-- A context's record. Its cycle counts are driven by time and are free values (log entry 3). -/
def State.ctxRecord (s : State) (p n : Nat) : List Byte :=
  let c := s.ctx (256 * p + n)
  let t (j : Nat) : W64 := if (tblFind s.ctxs (256 * p + n)).isNone || (j < 3 && !c.driven) then 0
    else Config.timedValue (entryKey (polderIndex p 4) 0) (s.free + 5 * n + j)
  let run := t 0
  let busy := t 3
  let slow := gaugeRatio run ((run.toNat : Int) - (t 1).toNat - (t 2).toNat)
  let port := gaugeRatio busy ((busy.toNat : Int) - (t 4).toNat)
  [BitVec.ofNat 8 c.state, BitVec.ofNat 8 c.prio,
   BitVec.ofNat 8 ((if c.relaxed then 1 else 0) + (if c.preemptible then 2 else 0)), BitVec.ofNat 8 c.lastFault,
   BitVec.ofNat 8 c.faultScope, BitVec.ofNat 8 (16 * c.csEd + c.mEd)] ++ toBytes 2 c.sites.toNat
    ++ toBytes 2 (s.coresOf c.sites.toNat).length ++ [0, 0] ++ toBytes 4 c.preempted
    ++ ((List.range 5).flatMap (fun j => toBytes 8 (t j).toNat)) ++ toBytes 8 c.timing ++ toBytes 8 c.result
    ++ toBytes 4 slow.toNat ++ toBytes 4 port.toNat ++ List.replicate 48 0

/-- A DOMAIN's content replaced; its generation advances (R34). -/
def State.replaceDomain (s : State) (key : Nat) (bs : List Byte) : State :=
  let gen := ((tblFind s.domains key).map Domain.gen).getD 0
  { s with domains := tblPut s.domains key { size := bs.length, gen := gen + 1, bytes := listed 0 bs } }

/-- `SNAPSHOT`: every context's state at once. (DESIGN CHOICE: log entry 3) -/
def State.takeSnapshot (s : State) (p : Nat) : State :=
  let bs := (List.range 256).flatMap (s.ctxRecord p)
  { s.replaceDomain (entryKey (polderIndex p 4) 0) bs with free := s.free + 1280 }

end Sys2Proof.Machine
end

