-- ==== Sys2Proof/Machine/Entries.lean ====
section
/-! DEFINITION. What every dictionary entry reads as (02_dictionary.md R20 to R40 and the entry tables of every chapter):
stored entries, entries computed from the state they show, DOMAINs, and the checks of R437 that go before a message's
own. -/

namespace Sys2Proof.Machine

/-! ### Status codes (R44) -/

def stOk : Nat := 0
def stNoEntry : Nat := 1
def stNoSub : Nat := 2
def stAccess : Nat := 3
def stRole : Nat := 4
def stType : Nat := 5
def stRange : Nat := 6
def stDeferred : Nat := 7
def stSegment : Nat := 8
def stChanged : Nat := 9
def stDisabled : Nat := 0xA
def stBusy : Nat := 0xB
def stEdition : Nat := 0xC
def stAuth : Nat := 0xD
def stStale : Nat := 0xE
def stNoType : Nat := 0xF

/-! ### The part (R37, R40, R397) -/

/-- Bytes of a bit map of `n` bytes: bit i of byte j is item 8j + i (R21). -/
def mapBytes (n : Nat) (items : List Nat) : List Byte :=
  (List.range n).map (fun j => BitVec.ofNat 8 ((List.range 8).foldl (fun a i => if items.contains (8 * j + i) then a + 2 ^ i else a) 0))


def State.serial (s : State) : List Byte := toBytes 16 s.part.serial.toNat

/-- The order code of a part (R37). -/
def Part.orderCode (x : Part) : List Byte := ascii (if x.disabled.length ≤ 8 then "CDI-IK2-136" else "CDI-IK2-128")

/-- The factory record's bytes and their SHA-256 digest (R397). (DESIGN CHOICE: log entry 5) -/
def Part.record (x : Part) : List Byte :=
  Config.factoryBytes x.serial x.disabled x.trims (x.mgmtMac :: x.portMacs) x.helper

def Part.digest (x : Part) : BitVec 256 := Config.sha256 x.record

/-- Whether the factory record's signature verifies (R403). -/
def Part.factoryOk (x : Part) : Bool := Config.slhVerify Config.vendorRoot x.record x.signature

/-- Whether the boot has ended in HALTED for the factory record (R403). -/
def State.factoryLost (s : State) : Bool := s.entry 0x9000 1 == 3 && !s.part.factoryOk

/-- Bytes that come from the factory record read as zeros where it failed its check (R406). -/
def State.factory (s : State) (bs : List Byte) : List Byte :=
  if s.factoryLost then List.replicate bs.length 0 else bs

/-- `ORDER_CODE` (R37). -/
def State.orderCode (s : State) : List Byte := s.factory s.part.orderCode

/-- A key of the part by its label (R396), the same at every power-up. -/
def Part.key (x : Part) (label : String) : BitVec 256 := Config.hmac (Config.deviceSecret x.serial x.helper) (ascii label)

/-- The public keys (R396): the identity key's, and the device KEM key's of 1,568 bytes. -/
def Part.identityPublic (x : Part) : BitVec 512 :=
  Config.slhPublic (x.key "IK2 id sk") (x.key "IK2 id prf") (x.key "IK2 id pk")

def Part.kemPublic (x : Part) : List Byte := padTo 1568 (Config.kemPublic (x.key "IK2 kem d") (x.key "IK2 kem z"))

/-- The device certificate (R397). -/
def Part.cert (x : Part) : List Byte := Config.deviceCert x.serial x.orderCode x.identityPublic x.kemPublic x.digest

/-- The capability word of the core kind (R40). -/
def coreCapability : Nat := 63 * 2 ^ 26 + 16 * 2 ^ 21 + 16 * 2 ^ 16 + 0xFFFF

/-- The unit directory (R38): kind, version, base, stride, count. -/
def unitDir : List (Nat × Nat × Nat × Nat × Nat) :=
  [(1, 0x0200, 0x4000, 16, 144), (2, 0x0200, 0x2100, 16, 16), (3, 0x0100, 0x3100, 1, 256), (4, 0x0200, 0x5100, 16, 16),
   (5, 0x0200, 0x6100, 16, 5), (6, 0x0100, 0x8100, 64, 4), (7, 0x0200, 0x2000, 256, 1), (8, 0x0200, 0x1000, 512, 1),
   (9, 0x0100, 0x9000, 256, 1), (10, 0x0100, 0x7000, 256, 1), (11, 0x0100, 0x7100, 256, 1), (12, 0x0100, 0x7200, 256, 1),
   (13, 0x0100, 0xA000, 256, 1)]

/-- A number of a unit's directory record. (DESIGN CHOICE: log entry 71) -/
def unitDirValue (i sub : Nat) : Nat :=
  let r := unitDir.getD i (0, 0, 0, 0, 0)
  match sub with
  | 1 => r.1
  | 2 => r.2.1
  | 3 => r.2.2.1
  | 4 => r.2.2.2.1
  | 5 => r.2.2.2.2
  | _ => if i = 0 then coreCapability else 0

/-- The editions of an interface (R49): lowest and highest supported. -/
def editionsOf (i : Nat) : Nat × Nat := (1, if i = 0 then 3 else 2)

/-! ### The modes and the controller -/

/-- `BOOT_MODE`: 0 NORMAL, 1 SELF_TEST, 2 RECOVERY, 3 HALTED. -/
def State.mode (s : State) : Nat := s.entry 0x9000 1

/-- Whether the always-on controller serves requests: it is powered, has booted and is not in reset.
(DESIGN CHOICE: log entry 64) -/
def State.alive (s : State) : Bool := s.supply.vaon && s.supply.booted && !s.supply.inReset

/-- Whether an owner is enrolled (R407). -/
def State.enrolled (s : State) : Bool := (tblFind s.kept (entryKey 0x9030 2)).isSome

/-- The role bits of a session's scope: an Owner's or a Vendor's is every polder (R24, R25). -/
def Session.reach (x : Session) : W16 := if 2 ≤ x.role then 0xFFFF else x.scope

/-! ### Computed numbers -/

/-- Whether a context runs, is being saved or restored, or is torn down on its cores. -/
def Ctx.onCores (c : Ctx) : Bool := c.state == 3 || c.state == 4 || c.state == 6 || c.state == 7

/-- What the offsets 0, 1 and 9 of a core's block show (R77, R166). -/
def State.coreValue (s : State) (core off sub : Nat) : Nat :=
  let k := s.core core
  match off, sub with
  | 0, 1 => siteOf core
  | 0, 2 => core % 9
  | 0, 3 => 3 * (siteOf core % 4) + core % 9 % 3
  | 0, 4 => 3 * (siteOf core / 4) + core % 9 / 3
  | 1, 1 => k.power
  | 1, 2 =>
    match k.ctx with
    | some c => if (s.ctx c.toNat).onCores then c.toNat else 0xFFFF
    | none => 0xFFFF
  | 1, 3 => k.pc % 65536
  | 1, 4 => k.rank
  | 9, 1 => if s.reduced then 7 else 63
  | _, _ => s.entry (coreIndex core off) sub

/-- What the stack of a site does: off outside a polder, and while a kept mask waits for the next boot in NORMAL to form its
polder (R17, R315, R319, R406). -/
def State.memPower (s : State) (site : Nat) : Nat :=
  if !s.supply.rails then 0
  else
    match s.polderOfSite site with
    | none => 0
    | some p =>
      let q := s.polder p
      if q.joining.getLsbD site then 1 else if q.formed || q.joining != 0 then 2 else 0

/-- What an engine does (R393). With an empty queue its clock is stopped and it is asleep; while a job runs that it has
switched for, whether it still switches is open. (DESIGN CHOICE: log entry 71) -/
def State.engineState (s : State) (e : Nat) : Nat :=
  let x := s.engine e
  match x.running with
  | some j =>
    let ws := if j.func = 1 then j.words else ((tblFind x.streams j.stream).map Stream.words).getD []
    let still : BitVec 1 := s.freeVal 1
    if x.switching ∧ still = 1 then 4 else if (openOf ws).encode then 3 else 2
  | none => if x.queue.isEmpty then 0 else 1

/-- A member of a session's record; what it holds while no such session is open is a free value.
(DESIGN CHOICE: log entry 66) -/
def State.sessionValue (s : State) (n sub : Nat) : Nat :=
  match s.session n with
  | none => let v : W32 := s.freeVal 32
    v.toNat
  | some x =>
    match sub with
    | 1 => x.role
    | 2 => x.edition
    | 3 => match x.path with
      | .mgmt => 0
      | .inband => 1
    | 4 => x.served % 2 ^ 32
    | _ => x.scope.toNat

/-- The number that an entry of a fixed numeric type reads as. (DESIGN CHOICE: log entry 2)
(DESIGN CHOICE: log entry 3) (DESIGN CHOICE: log entry 50) (DESIGN CHOICE: log entry 71)
(DESIGN CHOICE: log entry 77) -/
def State.number (s : State) (index sub : Nat) : Nat :=
  if sub = 0 ∧ isRecord index then highestSub index
  else if 0x4000 ≤ index ∧ index < 0x4900 then s.coreValue ((index - 0x4000) / 16) (index % 16) sub
  else if 0x0101 ≤ index ∧ index ≤ 0x010D then unitDirValue (index - 0x0101) sub
  else if 0x0300 ≤ index ∧ index ≤ 0x0304 then
    (if sub = 1 then (editionsOf (index - 0x0300)).1 else (editionsOf (index - 0x0300)).2)
  else if 0x1020 ≤ index ∧ index ≤ 0x102F then s.sessionValue (index - 0x1020) sub
  else if 0x5100 ≤ index ∧ index < 0x5200 then
    (let p := (index - 0x5100) / 16
    match index % 16, sub with
    | 0, 2 => (s.polder p).formed.toNat
    | 0, 3 => (s.coresOf (s.polderMask p)).length
    | 3, 1 => (s.openCtxs p).length
    | _, _ => s.entry index sub)
  else if 0x6100 ≤ index ∧ index < 0x6150 then
    (let x := s.port ((index - 0x6100) / 16)
    match index % 16, sub with
    | 0, 2 => if 3 ≤ x.linkState then x.mode else 0
    | 0, 5 => if x.linkState = 1 then (let training : BitVec 1 := s.freeVal 1
        1 + training.toNat) else x.linkState
    | 2, 6 => x.channels.length
    | _, _ => s.entry index sub)
  else if 0x8100 ≤ index ∧ index < 0x8200 ∧ index % 64 = 0 then
    (let e := (index - 0x8100) / 64
    match sub with
    | 1 => s.engineState e
    | 2 => (s.engine e).streams.length
    | _ => (s.engine e).queue.length)
  else if 0x7010 ≤ index ∧ index < 0x7020 ∧ sub = 0xF then
    (let c := s.cacheCfg (index - 0x7010)
    let v : W32 := s.freeVal 32
    if c.geometryOk then c.pageBytes else v.toNat)
  else if 0x8010 ≤ index ∧ index < 0x8020 ∧ sub = 1 then
    (s.engines.foldl (fun n e => n + (e.2.streams.filter (fun x => x.2.polder == index - 0x8010)).length) 0)
  else if 0x3300 ≤ index ∧ index < 0x3310 ∧ sub = 5 then s.memPower (index - 0x3300)
  else if 0x9050 ≤ index ∧ index < 0x9060 ∧ sub = 1 then
    ((List.range 16).foldl (fun a i => if (tblFind s.sealKeys (16 * (index - 0x9050) + i)).isSome then a + 2 ^ i else a) 0)
  else
    match index, sub with
    | 0x0000, 6 => if s.factoryLost then 0 else 144 - s.part.disabled.length
    | 0x0010, 2 => if s.factoryLost then 0 else s.part.disabled.length
    | 0x1000, 2 => s.sessions.length
    | 0x2000, 0xA => s.wakeQ.length
    | 0x9030, 1 => s.enrolled.toNat
    | _, _ => s.entry index sub

/-- The text of a string entry (R37). (DESIGN CHOICE: log entry 71) -/
def State.text (s : State) (sub : Nat) : List Byte :=
  match sub with
  | 1 => ascii "Cinditi"
  | 2 => ascii "Lyshar"
  | 3 => ascii "Ikiroth"
  | 4 => ascii "IK2"
  | 5 => s.orderCode
  | _ => ascii "B0"

/-- The bytes of an entry of a fixed number of octets. (DESIGN CHOICE: log entry 71) -/
def State.octets (s : State) (index sub n : Nat) : List Byte :=
  if index = 0x0000 then s.factory s.serial
  else if index = 0x0010 ∨ (index = 0x0101 ∧ sub = 7) then s.factory (mapBytes n s.part.disabled)
  else if index = 0x1001 then s.factory (toBytes 6 s.part.mgmtMac.toNat)
  else if 0x6100 ≤ index ∧ index < 0x6150 then
    s.factory (toBytes 6 (s.part.portMacs.getD ((index - 0x6100) / 16) 0).toNat)
  else if index = 0x9021 then s.factory (toBytes 64 s.part.identityPublic.toNat)
  else toBytes n (s.entry index sub)

/-! ### DOMAINs (R34, R35) -/

/-- A slice of a sequence of FP32 values, most significant byte first. -/
def tableSlice (f : Nat → W32) (off n : Nat) : List Byte :=
  let vs := (List.range ((off + n + 3) / 4 - off / 4)).map (fun i => f (off / 4 + i))
  ((vs.flatMap (fun v => toBytes 4 v.toNat)).drop (off % 4)).take n

/-- `NORMAL_TABLE` word by word (R278). -/
def normalWord (i : Nat) : W32 := if i % 2 = 0 then normalN (i / 2) else normalS (i / 2)

/-- The image slot that is not active, as the rollback record stands. -/
def Rollback.newer (a b : Rollback) : Rollback := if a.ok && (!b.ok || b.seq ≤ a.seq) then a else b

/-- The standing copy of the rollback record (R399, R404). -/
def State.rollback (s : State) : Rollback := s.rollA.newer s.rollB

def State.image (s : State) (slot : Nat) : List Byte := if slot = 0 then s.slotA else s.slotB

/-- The slot that `FW_IMAGE` reads and writes (R405). -/
def State.inactiveSlot (s : State) : Nat := if s.rollback.active = 0 then 1 else 0

/-- The generation of a DOMAIN, which advances with each replacement (R34). (DESIGN CHOICE: log entry 67) -/
def State.domainGen (s : State) (index sub : Nat) : W32 := ((tblFind s.domains (entryKey index sub)).map Domain.gen).getD 0

/-- The size of a DOMAIN. -/
def State.sizeOf (s : State) (index sub : Nat) : Nat :=
  if 0x4000 ≤ index ∧ index < 0x4900 then funcRoutines.length
  else if index = 0x7201 then 32768
  else if index = 0x7202 then 16384
  else if index = 0x9020 then s.part.cert.length
  else if index = 0x9022 then 1568
  else if index = 0x9010 then (s.image s.inactiveSlot).length
  else if 0x5100 ≤ index ∧ index < 0x5200 then 32768
  else if index = 0x6001 then 2097152
  else s.domainSize index sub

/-- Bytes of a DOMAIN from an offset, all of them within it. -/
def State.sliceOf (s : State) (index sub off n : Nat) : List Byte :=
  if 0x4000 ≤ index ∧ index < 0x4900 then (funcRoutines.drop off).take n
  else if index = 0x7201 then tableSlice normalWord off n
  else if index = 0x7202 then tableSlice gumbelG off n
  else if index = 0x9020 then s.factory ((s.part.cert.drop off).take n)
  else if index = 0x9022 then s.factory ((s.part.kemPublic.drop off).take n)
  else if index = 0x9010 then ((s.image s.inactiveSlot).drop off).take n
  else s.domainBytes index sub off n

/-! ### Reading one entry -/

/-- The row of an entry, that of the computed subindex 0x00 of a RECORD included (R20). -/
def entryRow (index sub : Nat) : Option EntryRow :=
  match rowOf index sub with
  | some r => some r
  | none =>
    if sub = 0 ∧ isRecord index then
      ((rowsAt index).head?).map (fun r =>
        { r with name := "HIGHEST_SUB", sub := 0, subs := 1, ty := .u8, access := .const, role := 0, kept := false, timed := false })
    else none

/-- The entry that shows whether time may have driven a counter since it was zeroed: the stalls of a core want a core in
RUN, the losses of the array a stream, `SFU_WAIT` a vector operation, `ATTN_VWAIT` an attention stream.
(DESIGN CHOICE: log entry 3) -/
def timedMark (index sub : Nat) : Nat × Nat :=
  let core := 0x4000 ≤ index ∧ index < 0x4900
  let off := index % 16
  if core ∧ off = 4 then (index, 1)
  else if core ∧ off = 5 ∧ sub ≠ 8 then (index, 3)
  else if core ∧ off = 10 then (index, 2)
  else if core ∧ off = 12 then (index, 5)
  else if 0x7020 ≤ index ∧ index < 0x7030 then (index, 7)
  else if 0x8102 ≤ index ∧ index < 0x8200 then (index, 4)
  else (index, sub)

/-- Whether time may have driven a counter since it was zeroed. (DESIGN CHOICE: log entry 3) -/
def State.driven (s : State) (index sub : Nat) : Bool := s.entry (timedMark index sub).1 (timedMark index sub).2 != 0

/-- What a `READ` of an entry returns, with the state after it: a value that time alone drives, or that the spec leaves
open, uses up a free value (log entries 2 and 3). (DESIGN CHOICE: log entry 2) (DESIGN CHOICE: log entry 3) -/
def State.readEntry (s : State) (r : EntryRow) (index sub : Nat) : State × List Byte :=
  match r.ty with
  | .str => (s, s.text sub)
  | .octets n => (s, s.octets index sub n)
  | .domain => (s, toBytes 4 (s.sizeOf index sub) ++ toBytes 4 (s.domainGen index sub).toNat)
  | t =>
    if r.timed then
      (s.usedFree, toBytes t.size (if s.driven index sub then (Config.timedValue (entryKey index sub) s.free).toNat else 0))
    else (s.usedFree, toBytes t.size (s.number index sub))

/-! ### The checks of R437 before a message's own -/

/-- What a request does with an entry. -/
inductive Use where
  | read
  | write
  | record
  | subscribe
  deriving DecidableEq, Repr

/-- The polder that an index belongs to: none for an entry of the device, a value that no polder has where its site
belongs to none (R24). -/
def State.ownerOf (s : State) (index : Nat) : Option Nat :=
  match indexPlace index with
  | .device => none
  | .polder p => some p
  | .site x => some ((s.polderOfSite x).getD 16)

/-- Whether a session's scope reaches an index (R24). (DESIGN CHOICE: log entry 72) -/
def State.inScope (s : State) (x : Session) (index : Nat) : Bool :=
  match s.ownerOf index with
  | none => true
  | some p => x.reach == 0xFFFF#16 || x.reach.getLsbD p

/-- Whether the unit of an index is disabled (R27). -/
def State.unitDisabled (s : State) (index : Nat) : Bool :=
  0x4000 ≤ index && index < 0x4900 && !s.coreEnabled ((index - 0x4000) / 16)

/-- The least role for a use of an entry (R23). -/
def EntryRow.leastRole (r : EntryRow) (u : Use) : Nat :=
  match r.access, u with
  | .const, _ => r.role
  | .ro, _ => r.role
  | _, .write => r.role
  | _, _ => 0

/-- Whether the access right allows a use (R22); a single WO entry passes to check 7 under `RECORD_READ` and `SUBSCRIBE`.
(DESIGN CHOICE: log entry 69) -/
def EntryRow.allows (r : EntryRow) (u : Use) : Bool :=
  match u, r.access with
  | .read, .wo => false
  | .write, .const => false
  | .write, .ro => false
  | _, _ => true

/-- The entries that RECOVERY offers for writing (R406). (DESIGN CHOICE: log entry 69) -/
def recoveryOffers (index sub : Nat) : Bool := index == 0x9010 || index == 0x9011 || (index == 0x9000 && sub == 2)

/-- What the state of the session and the part adds to the role check: an unenrolled session's one write is `OWNER_KEY`,
which only it may write, and only on an unenrolled part (R407). (DESIGN CHOICE: log entry 69) -/
def State.roleAllows (s : State) (x : Session) (index sub : Nat) (u : Use) : Bool :=
  if u = .write then
    (if index = 0x9030 ∧ sub = 2 then x.enrolKey.isSome && !s.enrolled else x.enrolKey.isNone)
  else true

/-- Checks 1 to 6 of R437 and, in RECOVERY, whether the entry is offered; the row, or the status of the first check that
fails. -/
def State.reachEntry (s : State) (x : Session) (index sub : Nat) (u : Use) : Except Nat EntryRow :=
  if 0xF000 ≤ index then .error (if x.role = 3 then stNoEntry else stRole)
  else if (rowsAt index).isEmpty then .error stNoEntry
  else match entryRow index sub with
    | none => .error stNoSub
    | some r =>
      if s.unitDisabled index then .error stDisabled
      else if x.role < r.leastRole u ∨ !s.inScope x index ∨ !s.roleAllows x index sub u then .error stRole
      else if !r.allows u ∨ (u = .write ∧ s.mode = 2 ∧ !recoveryOffers index sub) then .error stAccess
      else .ok r

end Sys2Proof.Machine
end

