-- ==== Sys2Proof/Machine/Writes.lean ====
section
/-! DEFINITION. Writes to the dictionary: the conditions and ranges of checks 8 and 9 of R437, what each write does
beyond storing its value, and the actions of WO entries (R22, R144, R247, R260, R317, R320, R321, R327 to R332, R340,
R375, R376, R405 to R417, R435). -/

namespace Sys2Proof.Machine

/-! ### Firmware images (R402, R403) -/

def imageLength (im : List Byte) : Nat := fieldAt im 16 4
def imageBody (im : List Byte) : List Byte := (im.drop 32768).take (imageLength im)
def imageVersion (im : List Byte) : Nat := fieldAt im 8 4
def imageSecurity (im : List Byte) : Nat := fieldAt im 12 4

/-- The checks of an image (R403 step 3). -/
def imageOk (counter : Nat) (im : List Byte) : Bool :=
  im.take 4 == ascii "IK2F" && fieldAt im 4 4 == 1
    && 1 ≤ imageLength im && imageLength im ≤ 16744448 && (imageBody im).length == imageLength im
    && Config.slhVerify Config.vendorRoot (im.take 64) ((im.drop 64).take 29792)
    && toBytes 32 (Config.sha256 (imageBody im)).toNat == (im.drop 32).take 32
    && counter ≤ imageSecurity im

/-! ### The nonvolatile store (R398, R399) -/

/-- The regions of the MRAM (R398). -/
inductive NvRegion where
  | factory
  | imageA
  | imageB
  | rollback
  | kept
  | owner
  | reserved
  deriving DecidableEq, Repr

/-- A region's offset and size in bytes. -/
def NvRegion.span : NvRegion → Nat × Nat
  | .factory => (0x0000000, 0x100000)
  | .imageA => (0x0100000, 0x1000000)
  | .imageB => (0x1100000, 0x1000000)
  | .rollback => (0x2100000, 0x10000)
  | .kept => (0x2110000, 0x800000)
  | .owner => (0x2910000, 0x10000)
  | .reserved => (0x2920000, 0x16E0000)

/-- Where a copy of a region of two copies begins. (DESIGN CHOICE: log entry 86) -/
def NvRegion.copyAt (r : NvRegion) (second : Bool) : Nat := r.span.1 + (if second then r.span.2 / 2 else 0)

/-- Whether the first of two copies stands (R399): the higher sequence of those that verify. -/
def firstStands (okA okB : Bool) (seqA seqB : Nat) : Bool := okA && (!okB || seqB ≤ seqA)

/-- The bytes of a copy of the rollback record that its MAC and digest cover (R399, R404). -/
def Rollback.bytes (r : Rollback) : List Byte :=
  toBytes 4 r.counter ++ [BitVec.ofNat 8 r.active, BitVec.ofNat 8 r.trial, BitVec.ofNat 8 r.attempted] ++ toBytes 4 r.seq

/-- Whether a copy's MAC verifies under k("IK2 rollback"), and its digest (R399, R404). -/
def State.rollVerifies (s : State) (r : Rollback) : Bool :=
  r.mac == Config.hmac (s.deviceKey "IK2 rollback") r.bytes && r.digest == Config.sha256 r.bytes

/-- Whether copy A of the rollback record stands. -/
def State.standsA (s : State) : Bool := firstStands s.rollA.ok s.rollB.ok s.rollA.seq s.rollB.seq

/-- The copy that does not stand is written, its sequence one higher, under its MAC and digest (R399, R404). -/
def State.writeRollback (s : State) (f : Rollback → Rollback) : State :=
  let r := s.rollback
  let n := { f r with ok := true, seq := (r.seq + 1) % 2 ^ 32 }
  let n := { n with mac := Config.hmac (s.deviceKey "IK2 rollback") n.bytes, digest := Config.sha256 n.bytes }
  let s := s.setEntry 0x9000 6 n.counter
  if s.standsA then { s with rollB := n } else { s with rollA := n }

/-- DOMAINs that are kept: `FABRIC_PEERS`, `FABRIC_CREDENTIAL`. -/
def storedDomain (key : Nat) : Bool := key == entryKey 0x6001 4 || key == entryKey 0x9030 5

def KeptCopy.hash (c : KeptCopy) : BitVec 256 :=
  Config.sha256 (Config.keptBytes c.seq c.entries
    (c.domains.map (fun d => (d.1, d.2.size, d.2.gen, d.2.bytes.map (fun b => (b.1, b.2))))))

def KeptCopy.verifies (c : KeptCopy) : Bool := c.digest == c.hash

/-- Whether copy A of the kept entries stands. -/
def State.keptStandsA (s : State) : Bool := firstStands s.keptA.verifies s.keptB.verifies s.keptA.seq s.keptB.seq

def State.keptCopy (s : State) : KeptCopy := if s.keptStandsA then s.keptA else s.keptB

/-- The kept entries are written to the copy that does not stand (R399); the owner key has a record of its own.
(DESIGN CHOICE: log entry 86) -/
def State.storeKept (s : State) : State :=
  let c : KeptCopy :=
    { seq := (s.keptCopy.seq + 1) % 2 ^ 32, digest := 0, entries := s.kept.filter (fun e => e.1 != entryKey 0x9030 2),
      domains := s.domains.filter (fun d => storedDomain d.1) }
  let c := { c with digest := c.hash }
  if s.keptStandsA then { s with keptB := c } else { s with keptA := c }

def OwnerCopy.hash (c : OwnerCopy) : BitVec 256 :=
  Config.sha256 (toBytes 4 c.seq ++ (c.key.map (toBytes 64)).getD [])

def OwnerCopy.verifies (c : OwnerCopy) : Bool := c.digest == c.hash

/-- Whether copy A of the owner record stands. -/
def State.ownerStandsA (s : State) : Bool := firstStands s.ownerA.verifies s.ownerB.verifies s.ownerA.seq s.ownerB.seq

def State.ownerCopy (s : State) : OwnerCopy := if s.ownerStandsA then s.ownerA else s.ownerB

/-- The owner record is written to the copy that does not stand (R399, R407). (DESIGN CHOICE: log entry 86) -/
def State.storeOwner (s : State) : State :=
  let c : OwnerCopy :=
    { seq := (s.ownerCopy.seq + 1) % 2 ^ 32, digest := 0, key := tblFind s.kept (entryKey 0x9030 2) }
  let c := { c with digest := c.hash }
  if s.ownerStandsA then { s with ownerB := c } else { s with ownerA := c }

/-- The kept entries as the standing copies hold them. -/
def State.storedEntries (s : State) : Tbl Nat :=
  match s.ownerCopy.key with
  | some k => tblPut s.keptCopy.entries (entryKey 0x9030 2) k
  | none => s.keptCopy.entries

/-- At boot the kept entries and DOMAINs are what the standing copies hold (R26, R399).
(DESIGN CHOICE: log entry 86) -/
def State.loadKept (s : State) : State :=
  { s with
    kept := s.storedEntries
    domains := s.keptCopy.domains.foldl (fun t d => tblPut t d.1 d.2) (s.domains.filter (fun d => !storedDomain d.1)) }

/-! ### Check 8: conditions that answer `ACCESS` -/

/-- The polder of a block of one index a polder. -/
def polderAt (base index : Nat) : Option Nat := if base ≤ index ∧ index < base + 16 then some (index - base) else none

/-- The polder and offset of a block at 0x5100. -/
def polderBlock (index : Nat) : Option (Nat × Nat) :=
  if 0x5100 ≤ index ∧ index < 0x5200 then some ((index - 0x5100) / 16, index % 16) else none

def State.noneOpen (s : State) (p : Nat) : Bool := (s.openCtxs p).isEmpty

def State.writeAllowed (s : State) (index sub : Nat) : Bool :=
  (match polderBlock index with
    | some (p, 0) => (sub != 1 && sub != 4) || s.noneOpen p
    | _ => true)
  && (match polderAt 0x3010 index with
    | some p => s.noneOpen p
    | none => true)
  && (match polderAt 0x7110 index with
    | some p => s.noneOpen p
    | none => true)
  && (match polderAt 0x7010 index with
    | some p => s.noneOpen p && s.entry (0x7020 + p) 1 == 0
    | none => true)
  && (index != 0x9012 || s.rollback.trial != 0xFF)

/-! ### Check 9: defined values -/

/-- Whether two regions of a polder, as base and length, share a byte; of regions in different views, the code words of
one are looked up in the other. -/
def State.regionsMeet (s : State) (p : Nat) (x y : W64 × Nat) : Bool :=
  x.2 != 0 && y.2 != 0
    && (if (x.1.toNat < 2 ^ 39) = (y.1.toNat < 2 ^ 39) then
          x.1.toNat < y.1.toNat + y.2 && y.1.toNat < x.1.toNat + x.2
        else s.touches p x.1 x.2 (s.inRegion p y.1 y.2))

/-- Whether `INIT` may succeed (R230, R247). (DESIGN CHOICE: log entry 50) -/
def State.cacheOk (s : State) (p : Nat) : Bool :=
  let c := s.cacheCfg p
  let rs := c.regions
  c.seqBase.toNat % 64 == 0 && c.arenaBase.toNat % 64 == 0 && c.poolBase.toNat % 2048 == 0 && c.metaBase.toNat % 64 == 0
    && rs.all (fun r => s.rangeIn p r.1 r.2)
    && (List.range 4).all (fun i => (List.range 4).all (fun j =>
        j ≤ i || !s.regionsMeet p (rs.getD i (0, 0)) (rs.getD j (0, 0))))
    && (s.polderMask p).testBit (s.entry (0x7010 + p) 0xC / 16)
    && 1 ≤ c.seqCount && c.seqCount ≤ 65536 && c.poolPages != 0 && c.geometryOk

/-- The shares of a port over all polders when polder `p` takes `v` (R321). -/
def State.shareSum (s : State) (p sub v : Nat) : Nat :=
  (List.range 16).foldl (fun a q => a + (if q = p then v else s.entry (polderIndex q 0) sub)) 0

/-- Ranges of the polder block. -/
def State.polderRange (s : State) (p off sub v : Nat) : Bool :=
  match off, sub with
  | 0, 1 => (List.range 16).all (fun q => q == p || (s.polderMask q &&& v) == 0)
  | 0, 4 => v % 65536 == 0 && v < 2 ^ 38 && s.rangeIn p (BitVec.ofNat 64 v) 65536
  | 0, 5 => true
  | 0, 6 => true
  | 0, _ => s.shareSum p sub v ≤ 256
  | 2, 4 =>
    let ctx := 256 * p + v / 65536
    (s.ctx ctx).state == 0 || ((s.ctx ctx).preemptible && s.moveOk ctx (BitVec.ofNat 16 v))
  | _, _ => true

/-- Whether a value lies within an entry's defined values. -/
def State.inRange (s : State) (x : Session) (r : EntryRow) (index sub v : Nat) : Bool :=
  (r.ty != .bool || v ≤ 1)
  && (match polderBlock index with
    | some (p, off) => s.polderRange p off sub v
    | none => true)
  && (match polderAt 0x7110 index with
    | some p => (s.polderMask p).testBit (v / 16)
    | none => true)
  && (match polderAt 0x7010 index with
    | some p => (sub != 0xC || (s.polderMask p).testBit (v / 16)) && (sub != 0xE || s.cacheOk p)
    | none => true)
  && ((polderAt 0x3010 index).isNone || v ≤ 16)
  && ((polderAt 0xA020 index).isNone || v ≤ 1)
  && ((polderAt 0x9050 index).isNone || v ≤ 15)
  && (!(0x1100 ≤ index && index ≤ 0x1104)
    || (if sub = 1 then (editionsOf (index - 0x1100)).1 ≤ v && v ≤ s.entry index 2
        else s.entry index 1 ≤ v && v ≤ (editionsOf (index - 0x1100)).2))
  && (!(0x6100 ≤ index && index < 0x6150 && index % 16 == 0 && sub == 4) || v ≤ 1)
  && (match index, sub with
    | 0x2000, 1 => 300 ≤ v && v ≤ 1200
    | 0x2000, 6 => 80 ≤ v && v ≤ 105
    | 0x3000, 1 => 75 ≤ v && v ≤ 100
    | 0x9000, 2 => v ≤ 1
    | 0x9070, 3 => 10 ≤ v && v ≤ 100
    | 0x9030, 2 => (x.enrolKey.map BitVec.toNat) == some v
    | 0x9030, 3 => s.entry 0x9030 3 ≤ v
    | 0x9011, _ => imageOk s.rollback.counter (s.image s.inactiveSlot)
    | _, _ => true)

/-! ### What a write does -/

/-- The bits a value may set: the mode bits of `SPEED_ALLOW`, the defined bits of a status record (R8).
(DESIGN CHOICE: log entry 72) -/
def definedBits (index sub v : Nat) : Nat :=
  match statusOf index with
  | some r => v % 2 ^ (r.highest + 1)
  | none => if 0x6100 ≤ index ∧ index < 0x6150 ∧ index % 16 = 0 ∧ sub = 3 then v % 8 else v

/-- An RWC write to `FLAGS` (R22, R31): the events that have arrived take effect in the same slow cycle, and a bit that
one of them sets stays. (DESIGN CHOICE: log entry 58) -/
def State.clearFlags (s : State) (index mask : Nat) : State :=
  let set := (s.arrived.filter (fun e => e.1 == index)).foldl (fun a e => a ||| 2 ^ e.2.1) 0
  let t := s.postAll
  let old := t.entry index 1
  t.setEntry index 1 ((List.range 32).foldl (fun a b =>
    if old.testBit b && (!mask.testBit b || set.testBit b) then a + 2 ^ b else a) 0)

/-- A port is enabled or disabled (R345); one that waits out `AN_RETRY` goes on waiting. (DESIGN CHOICE: log entry 72) -/
def State.enablePort (s : State) (q : Nat) (on : Bool) : State :=
  if !on then s.setPort q Port.reset
  else if (s.port q).linkState = 0 ∧ !(s.port q).retryWait ∧ s.mode ≤ 1 then s.onPort q (fun x => { x with linkState := 1 })
  else s

/-- A stored value and what follows from it at once. (DESIGN CHOICE: log entry 72) -/
def State.store (s : State) (r : EntryRow) (index sub v : Nat) : State :=
  if r.access = .rwc then s.clearFlags index v
  else
    let w := definedBits index sub v
    let old := s.entry index sub
    let s := if r.kept then s.setKept index sub w else s.setEntry index sub w
    if (statusOf index).isSome then { s with alertN := s.alertN || s.alerting }
    else
      match polderBlock index with
      | some (p, 0) => if sub = 1 ∧ s.mode ≠ 1 then s.applyMask p old w else s
      | _ =>
        if 0x6100 ≤ index ∧ index < 0x6150 ∧ index % 16 = 0 ∧ sub = 1 then s.enablePort ((index - 0x6100) / 16) (w == 1)
        else s

/-- A DOMAIN that the Ikiroth rewrites to its default. -/
def State.clearDomain (s : State) (key size : Nat) : State :=
  { s with domains := tblPut s.domains key { size := size, gen := ((tblFind s.domains key).map Domain.gen).getD 0 + 1, bytes := [] } }

/-- `OWNER_RELEASE` (R407): every polder is dissolved, its contexts torn down; seal keys, kept entries and the owner
record are erased. (DESIGN CHOICE: log entry 72) -/
def State.release (s : State) : State :=
  let s := (List.range 16).foldl (fun s p => (s.openCtxs p).foldl (fun s c => s.teardown c 0 2) s) s
  let masks := (List.range 16).map s.polderMask
  let s := { s with kept := [], sealKeys := [] }
  let s := (s.clearDomain (entryKey 0x6001 4) 2097152).clearDomain (entryKey 0x9030 5) 0
  let s := (List.range 16).foldl (fun s p => s.applyMask p (masks.getD p 0) 0) s
  (List.range 5).foldl (fun s q => s.enablePort q true) s

/-- `HIST_CLEAR` (R144). -/
def State.clearHist (s : State) (core : Nat) : State :=
  { s with dict := s.dict.filter (fun x => !(x.1 / 256 == coreIndex core 6)) }

/-- An action of a WO entry. (DESIGN CHOICE: log entry 72) (DESIGN CHOICE: log entry 67) -/
def State.act (s : State) (index sub v : Nat) : State :=
  match polderBlock index with
  | some (p, 2) =>
    match sub with
    | 1 => s.resetPolder p 0
    | 2 => s.requestPreempt (256 * p + v)
    | 3 => (s.teardown (256 * p + v) 0 0).schedule p
    | _ => s.moveContext (256 * p + v / 65536) (BitVec.ofNat 16 v)
  | some (p, _) => s.takeSnapshot p
  | none =>
    if 0x4000 ≤ index ∧ index < 0x4900 then s.clearHist ((index - 0x4000) / 16)
    else match polderAt 0x7010 index, polderAt 0x9050 index with
      | some p, _ => s.initCache p
      | _, some p => { s with sealKeys := tblDrop s.sealKeys (16 * p + v) }
      | _, _ =>
        match index with
        | 0x9011 => s.writeRollback (fun r => { r with trial := s.inactiveSlot, attempted := 0 })
        | 0x9012 => s.writeRollback (fun r =>
            { r with active := r.trial, trial := 0xFF, attempted := 0,
                     counter := max r.counter (imageSecurity (s.image r.trial)) })
        | 0x9030 => s.release
        | 0x9060 => { s with attest := some (BitVec.ofNat 256 v) }
        | _ => s

/-- Whether an item needs the nonvolatile store: a kept entry, or an action that writes a record of the store. -/
def EntryRow.needsNv (r : EntryRow) : Bool :=
  r.kept || r.base == 0x9011 || r.base == 0x9012 || (r.base == 0x9030 && r.sub == 4)

/-! ### Items (R437, R440) -/

/-- One write: entry and value. -/
structure Item where
  index : Nat
  sub : Nat
  data : List Byte

/-- Checks 1 to 9 of one item against a state; its value, or the status of the first check that fails. -/
def State.checkItem (s : State) (x : Session) (i : Item) : Except Nat Nat :=
  match s.reachEntry x i.index i.sub .write with
  | .error e => .error e
  | .ok r =>
    if r.ty = .domain ∨ i.data.length ≠ r.ty.size then .error stType
    else if !s.writeAllowed i.index i.sub then .error stAccess
    else if !s.inRange x r i.index i.sub (ofBytes i.data) then .error stRange
    else .ok (ofBytes i.data)

/-- All items take effect in one step: values in order, then actions in order. -/
def State.applyItems (s : State) (vs : List (Nat × Nat)) : State :=
  let go (wo : Bool) (s : State) (kv : Nat × Nat) : State :=
    let index := kv.1 / 256
    let sub := kv.1 % 256
    match entryRow index sub with
    | none => s
    | some r =>
      if (r.access == .wo) != wo then s
      else if wo then s.act index sub kv.2
      else s.store r index sub kv.2
  vs.foldl (go true) (vs.foldl (go false) s)

/-- Items checked in order, each against the state that those before it would leave (R440): their entry numbers and
values, or the ordinal and status of the first that fails. (DESIGN CHOICE: log entry 68) -/
def State.checkItems (s : State) (x : Session) : List (Nat × Nat) → List Item → Except (Nat × Nat) (List (Nat × Nat))
  | vs, [] => .ok vs
  | vs, i :: rest =>
    match (s.applyItems vs).checkItem x i with
    | .error e => .error (vs.length, e)
    | .ok v => s.checkItems x (vs ++ [(entryKey i.index i.sub, v)]) rest

/-- The first item, by ordinal, that needs the nonvolatile store. -/
def firstNv (vs : List (Nat × Nat)) : Option Nat :=
  vs.findIdx? (fun kv => ((entryRow (kv.1 / 256) (kv.1 % 256)).map EntryRow.needsNv).getD false)

/-- The items of a `BATCH_WRITE` payload, or none where it is not 1 to 32 whole items. -/
def batchItems : Nat → List Byte → Option (List Item)
  | 0, [] => some []
  | 0, _ => none
  | _, [] => some []
  | n + 1, bs =>
    let len := fieldAt bs 3 1
    if bs.length < 4 + len then none
    else (batchItems n (bs.drop (4 + len))).map (fun is =>
      { index := fieldAt bs 0 2, sub := fieldAt bs 2 1, data := (bs.drop 4).take len } :: is)

end Sys2Proof.Machine
end

