-- ==== Sys2Proof/Machine/Tsusen.lean ====
section
/-! DEFINITION. The Tsusen protocol's requests (02_dictionary.md R28, R32 to R36, R41 to R47, R437 to R440), credentials
and seal keys (19_security_boot.md R407, R408, R412, R413), and the nonvolatile batches that answer writes (R400, R401). -/

namespace Sys2Proof.Machine

/-! ### Credentials (R408, R412) -/

/-- A credential's fields. -/
structure Cred where
  version : Nat
  role : Nat
  scope : Nat
  epoch : Nat
  subject : List Byte
  bytes : List Byte

/-- Bytes of the credential at the head of a message: its signature's length follows from its role. -/
def credLength (bs : List Byte) : Nat := 80 + (if fieldAt bs 2 1 = 3 then 29792 else 49856)

def credOf (bs : List Byte) : Cred :=
  { version := fieldAt bs 0 2, role := fieldAt bs 2 1, scope := fieldAt bs 4 2, epoch := fieldAt bs 8 4,
    subject := (bs.drop 16).take 64, bytes := bs.take (credLength bs) }

/-- Whether a credential's signature verifies under a key. -/
def Cred.signedBy (c : Cred) (key : List Byte) : Bool := Config.slhVerify key (c.bytes.take 80) (c.bytes.drop 80)

/-- The enrolled owner key. -/
def State.ownerKey (s : State) : List Byte := toBytes 64 (s.entry 0x9030 2)

/-- Whether a credential is accepted (R25, R408). (DESIGN CHOICE: log entry 69) -/
def State.credOk (s : State) (c : Cred) : Bool :=
  c.version == 1 && c.bytes.length == credLength c.bytes && s.entry 0x9030 3 ≤ c.epoch
    && (if c.role = 3 then c.signedBy Config.vendorRoot && s.entry 0x1010 0 == 1
        else c.role ≤ 2 && s.enrolled && c.signedBy s.ownerKey && (c.role != 2 || c.scope == 0xFFFF))

/-- Whether a credential is one that an unenrolled part takes: role Owner, signed by its own subject key (R407).
(DESIGN CHOICE: log entry 69) -/
def State.selfOwner (s : State) (c : Cred) : Bool :=
  !s.enrolled && c.version == 1 && c.role == 2 && c.bytes.length == credLength c.bytes && c.signedBy c.subject

/-- Whether a written `FABRIC_CREDENTIAL` is accepted (R412). -/
def State.fabricCredOk (s : State) (bs : List Byte) : Bool :=
  let c := credOf bs
  c.version == 1 && (c.role == 1 || c.role == 2) && bs.length == credLength bs && s.enrolled && c.signedBy s.ownerKey
    && s.entry 0x9030 3 ≤ c.epoch && c.subject == toBytes 64 s.part.identityPublic.toNat

/-! ### Seal keys (R413) -/

/-- The key that a `SEAL_INSTALL` message puts into a slot: slot and key, or none where a check fails. -/
def State.sealOf (s : State) (p : Nat) (bs : List Byte) : Option (Nat × BitVec 256) :=
  let slot := fieldAt bs 0 1
  let rest := bs.drop 1572
  let c := credOf rest
  let body := 1572 + credLength rest
  if bs.length = body + 49856 ∧ slot < 16 ∧ s.credOk c ∧ 1 ≤ c.role ∧ c.scope.testBit p
      ∧ Config.slhVerify c.subject (bs.take body) (bs.drop body) then
    (Config.kemDecapDevice (s.deviceKey "IK2 kem d") (s.deviceKey "IK2 kem z") ((bs.drop 4).take 1568)).map (fun z =>
      (slot, Config.hkdf [] z (ascii "IK2 seal" ++ [BitVec.ofNat 8 p, BitVec.ofNat 8 slot])))
  else none

/-! ### Responses and the replay window (R45) -/

/-- The payload limit of a session's edition (R43). -/
def Session.limit (x : Session) : Nat := if x.edition = 1 then 256 else 1024

/-- What a message asks: what its row says, or an undefined type (R438). (DESIGN CHOICE: log entry 66) -/
def asks (h : Hdr) (b : Body) : Body :=
  match h.otherType with
  | none => b
  | some t => if t.toNat ≤ 0xB && t != 7 then b else .undefined (t.toNat % 128)

/-- `TYPE`, `INDEX`, `SUBINDEX` and `OFFSET` of a request. -/
def Body.type : Body → Nat
  | .read _ _ => 2
  | .write _ _ _ => 3
  | .segRead _ _ _ _ _ => 4
  | .segWrite _ _ _ _ _ => 5
  | .subscribe _ _ => 6
  | .recordRead _ => 8
  | .batch _ => 9
  | .close => 0xA
  | .undefined t => t

def Body.index : Body → Nat
  | .read i _ => i
  | .write i _ _ => i
  | .segRead i _ _ _ _ => i
  | .segWrite i _ _ _ _ => i
  | .subscribe i _ => i
  | .recordRead i => i
  | .batch _ => 0
  | .close => 0
  | .undefined _ => 0

def Body.sub : Body → Nat
  | .read _ j => j
  | .write _ j _ => j
  | .segRead _ j _ _ _ => j
  | .segWrite _ j _ _ _ => j
  | .subscribe _ _ => 0
  | .recordRead _ => 0
  | .batch _ => 0
  | .close => 0
  | .undefined _ => 0

def Body.offset : Body → Nat
  | .read _ _ => 0
  | .write _ _ _ => 0
  | .segRead _ _ o _ _ => o
  | .segWrite _ _ o _ _ => o
  | .subscribe _ _ => 0
  | .recordRead _ => 0
  | .batch _ => 0
  | .close => 0
  | .undefined _ => 0

/-- The response to a request (R43), which echoes `INDEX`, `SUBINDEX` and `OFFSET`. (DESIGN CHOICE: log entry 66) -/
def Body.response (b : Body) (status : Nat) (payload : List Byte) : Resp :=
  { type := b.type + 0x80, index := b.index, sub := b.sub, offset := b.offset, status := status, payload := payload }

/-- How far a sequence number lies behind another, modulo 65,536. -/
def behind (newest seq : W16) : Nat := (newest - seq).toNat

/-- Whether a sequence number is newer. (DESIGN CHOICE: log entry 66) -/
def newer (newest seq : W16) : Bool := seq != newest && (seq - newest).toNat < 32768

/-- A response leaves: under the session's key where there is a session (R43). (DESIGN CHOICE: log entry 66) -/
def State.sayOn (s : State) (path : MgmtPath) (session seq : W16) (r : Resp) : State :=
  let edition := ((s.session session.toNat).map Session.edition).getD 1
  s.send (.tsusen path session seq r
    (s.wire session seq (tsusenHeader edition r.type session seq r.index r.sub r.status r.payload.length r.offset) r.payload))

def State.sayTo (s : State) (h : Hdr) (r : Resp) : State := s.sayOn h.path h.session h.seq r

/-- A request has been served: its response is kept and sent. -/
def State.answer (s : State) (h : Hdr) (r : Resp) : State :=
  let s := match s.session h.session.toNat with
    | none => s
    | some x => s.setSession h.session.toNat
        { x with served := x.served + 1, responses := ((h.seq, r) :: x.responses).take 16,
                 newest := match x.newest with
                   | none => some h.seq
                   | some n => if newer n h.seq then some h.seq else some n }
  s.sayTo h r

def State.reply (s : State) (q : Req) (status : Nat) (payload : List Byte) : State :=
  s.answer q.h (q.body.response status payload)

/-! ### Nonvolatile batches (R400, R401) -/

/-- Batches of at most 64 KiB for a write of `n` bytes from a place in the store. (DESIGN CHOICE: log entry 68) -/
def State.queueNv (s : State) (place n : Nat) (w : NvWork) : State :=
  let count := max 1 ((n + 65535) / 65536)
  { s with nvQ := s.nvQ ++ (List.range count).map (fun i =>
      { place := place + 65536 * i, bytes := if i + 1 = count then n - 65536 * i else 65536, work := w }) }

/-- Whether an item changes the kept entries, or the owner record (R398, R407). -/
def storesKept (kv : Nat × Nat) : Bool :=
  kv.1 == entryKey 0x9030 4
    || (kv.1 != entryKey 0x9030 2 && ((entryRow (kv.1 / 256) (kv.1 % 256)).map EntryRow.kept).getD false)

def storesOwner (kv : Nat × Nat) : Bool := kv.1 == entryKey 0x9030 4 || kv.1 == entryKey 0x9030 2

/-- Where in the store a batch of items begins: the copy that does not stand (R398, R399). (DESIGN CHOICE: log entry 86) -/
def State.itemsPlace (s : State) (vs : List (Nat × Nat)) : Nat :=
  if vs.any storesKept then NvRegion.kept.copyAt s.keptStandsA
  else if vs.any storesOwner then NvRegion.owner.copyAt s.ownerStandsA
  else NvRegion.rollback.copyAt s.standsA

/-- A batch of items: how many bytes the store writes for them is a free value. -/
def State.queueItems (s : State) (q : Req) (vs : List (Nat × Nat)) (ordinal : Option Nat) : State :=
  let n : W16 := s.freeVal 16
  s.usedFree.queueNv (s.itemsPlace vs) (n.toNat + 1) (.items q vs ordinal)

/-- Whether a request waits for a nonvolatile batch, so that later ones wait in turn (R28).
(DESIGN CHOICE: log entry 65) -/
def State.storing (s : State) : Bool := s.nvRun.isSome || !s.nvQ.isEmpty

/-! ### Records (R33, R439) -/

/-- One item of a record: subindex, status, length, value. -/
def State.recordItem (s : State) (x : Session) (index sub : Nat) : State × List Byte :=
  let head (st n : Nat) : List Byte := [BitVec.ofNat 8 sub, BitVec.ofNat 8 st] ++ toBytes 2 n
  match s.reachEntry x index sub .read with
  | .error e => (s, head e 0)
  | .ok r =>
    let v := s.readEntry r index sub
    (v.1, head stOk v.2.length ++ v.2)

/-- Every subindex of a record at once. -/
def State.recordBytes (s : State) (x : Session) (index : Nat) : State × List Byte :=
  (List.range (highestSub index + 1)).foldl (fun (a : State × List Byte) sub =>
    let i := a.1.recordItem x index sub
    (i.1, a.2 ++ i.2)) (s, [])

/-! ### Requests (R437 to R440) -/

def State.serveRead (s : State) (q : Req) (x : Session) (index sub : Nat) : State :=
  match s.reachEntry x index sub .read with
  | .error e => s.reply q e []
  | .ok r =>
    let v := s.readEntry r index sub
    v.1.reply q stOk v.2

/-- Checked items take effect at once, or with the nonvolatile batch that a kept one needs. -/
def State.takeItems (s : State) (q : Req) (vs : List (Nat × Nat)) (batch : Bool) : State :=
  match firstNv vs with
  | some n => s.queueItems q vs (if batch then some n else none)
  | none => (s.applyItems vs).reply q stOk []

def State.serveWrite (s : State) (q : Req) (x : Session) (index sub : Nat) (data : List Byte) : State :=
  match s.checkItems x [] [{ index := index, sub := sub, data := data }] with
  | .error e => s.reply q e.2 []
  | .ok vs => s.takeItems q vs false

def State.serveSegRead (s : State) (q : Req) (x : Session) (index sub offset length : Nat) (gen : W32) : State :=
  match s.reachEntry x index sub .read with
  | .error e => s.reply q e []
  | .ok r =>
    if r.ty ≠ .domain ∨ x.limit < length then s.reply q stType []
    else if s.domainGen index sub ≠ gen then s.reply q stChanged []
    else if s.sizeOf index sub ≤ offset then s.reply q stSegment []
    else s.reply q stOk (s.sliceOf index sub offset (min length (s.sizeOf index sub - offset)))

/-- The size of a writable DOMAIN: fixed, or at most. (DESIGN CHOICE: log entry 67) -/
def domainLimit (index : Nat) : Nat × Bool :=
  if index = 0x6001 then (2097152, true)
  else if index = 0x9010 then (16777216, false)
  else if index = 0x9030 then (49936, false)
  else (131072, false)

/-- The whole content of a DOMAIN has arrived (R36, R405, R412, R413). (DESIGN CHOICE: log entry 67) -/
def State.takeDomain (s : State) (q : Req) (index sub : Nat) (data : List Byte) : State :=
  match polderAt 0x9040 index with
  | some p =>
    match s.sealOf p data with
    | none => s.reply q stAuth []
    | some k => { s with sealKeys := tblPut s.sealKeys (16 * p + k.1) k.2 }.reply q stOk []
  | none =>
    if index = 0x9010 then
      s.queueNv (if s.inactiveSlot = 0 then NvRegion.imageA else NvRegion.imageB).span.1 data.length (.image q data)
    else if index = 0x9030 ∧ !s.fabricCredOk data then s.reply q stAuth []
    else s.queueNv (NvRegion.kept.copyAt s.keptStandsA) data.length (.keptDomain q (entryKey index sub) data)

def State.setSeg (s : State) (n : Nat) (g : Option SegSeq) : State :=
  match s.session n with
  | none => s
  | some x => s.setSession n { x with seg := g }

def State.serveSegWrite (s : State) (q : Req) (x : Session) (index sub offset : Nat) (last : Bool) (data : List Byte) :
    State :=
  match s.reachEntry x index sub .write with
  | .error e => s.reply q e []
  | .ok r =>
    if r.ty ≠ .domain ∨ x.limit < data.length then s.reply q stType []
    else
      let n := q.h.session.toNat
      let key := entryKey index sub
      let before := if offset = 0 then some [] else match x.seg with
        | some g => if g.key = key ∧ g.data.length = offset then some g.data else none
        | none => none
      let lim := domainLimit index
      match before with
      | none => (s.setSeg n none).reply q stSegment []
      | some b =>
        let all := b ++ data
        if lim.1 < all.length ∨ (last ∧ lim.2 ∧ all.length ≠ lim.1) then (s.setSeg n none).reply q stSegment []
        else if last then (s.setSeg n none).takeDomain q index sub all
        else (s.setSeg n (some { key := key, data := all })).reply q stOk []

def State.serveSubscribe (s : State) (q : Req) (x : Session) (index : Nat) (on : Bool) : State :=
  match s.reachEntry x index 0 .subscribe with
  | .error e => s.reply q e []
  | .ok _ =>
    if (statusOf index).isNone then s.reply q stType []
    else
      let subs := x.subs.filter (fun i => i != index)
      (s.setSession q.h.session.toNat { x with subs := if on then subs ++ [index] else subs }).reply q stOk []

def State.serveRecord (s : State) (q : Req) (x : Session) (index : Nat) : State :=
  if x.edition < 2 then s.reply q stNoType []
  else match s.reachEntry x index 0 .record with
    | .error e => s.reply q e []
    | .ok _ =>
      if !isRecord index then s.reply q stType []
      else
        let v := s.recordBytes x index
        v.1.reply q stOk v.2

def State.serveBatch (s : State) (q : Req) (x : Session) (payload : List Byte) : State :=
  if x.edition < 2 then s.reply q stNoType []
  else match batchItems 32 payload with
    | none => s.reply q stType []
    | some [] => s.reply q stType []
    | some items =>
      match s.checkItems x [] items with
      | .error e => s.reply q e.2 [BitVec.ofNat 8 e.1]
      | .ok vs => s.takeItems q vs true

/-- A session ends, and its subscriptions with it; a Vendor session's consent ends too (R25, R46). -/
def State.endSession (s : State) (n : Nat) : State :=
  match s.session n with
  | none => s
  | some x =>
    let waits : MgmtMsg → Bool
      | .request q => q.h.session.toNat == n
      | _ => false
    let s := { s with sessions := tblDrop s.sessions n, mgmtQ := s.mgmtQ.filter (fun m => !waits m) }
    if x.role = 3 then s.setEntry 0x1010 0 0 else s

/-- One request of a session is served. -/
def State.serve (s : State) (q : Req) : State :=
  match s.session q.h.session.toNat with
  | none => s
  | some x =>
    match q.body with
    | .read i j => s.serveRead q x i j
    | .write i j d => s.serveWrite q x i j d
    | .segRead i j o n g => s.serveSegRead q x i j o n g
    | .segWrite i j o l d => s.serveSegWrite q x i j o l d
    | .subscribe i on => s.serveSubscribe q x i on
    | .recordRead i => s.serveRecord q x i
    | .batch p => s.serveBatch q x p
    | .close => (s.reply q stOk []).endSession q.h.session.toNat
    | .undefined _ => s.reply q stNoType []

/-! ### Arrival -/

/-- Requests of a session that are not answered yet. (DESIGN CHOICE: log entry 66) -/
def State.outstanding (s : State) (n : W16) : List Req :=
  let ofWork : NvWork → Option Req
    | .items q _ _ => some q
    | .keptDomain q _ _ => some q
    | .image q _ => some q
    | .stopped => none
  let now := match s.nvRun with
    | some b => ofWork b.work
    | none => s.nvQ.head?.bind (fun (b : NvBatch) => ofWork b.work)
  let waiting := s.mgmtQ.filterMap (fun m => match m with
    | .request q => some q
    | _ => none)
  (now.toList ++ waiting).filter (fun q => q.h.session == n)

/-- A session that no credential opened: what plain-text answers are checked under (R406, R43). -/
def Session.plain : Session :=
  { role := 0, edition := 2, path := .mgmt, scope := 0xFFFF, udpPort := 0, served := 0, newest := none, responses := [],
    subs := [], seg := none, keys := { i2d := 0, d2i := 0 }, enrolKey := none }

/-- HALTED: a `READ` of the Almanac, of `BOOT_MODE` or of `BOOT_STATUS`; every other request answers `AUTH` (R406). -/
def State.halted (s : State) (h : Hdr) (body : Body) : State :=
  let say (s : State) (st : Nat) (p : List Byte) : State := s.sayTo h (body.response st p)
  match body with
  | .read i j =>
    if h.session = 0 ∧ (i ≤ 0x0FFF ∨ (i = 0x9000 ∧ j = 1) ∨ i = 0x9001) then
      (match s.reachEntry Session.plain i j .read with
      | .error e => say s e []
      | .ok r =>
        let v := s.readEntry r i j
        say v.1 stOk v.2)
    else say s stAuth []
  | _ => say s stAuth []

/-- A datagram on port 0 that in-band access does not take: dropped and counted (R41), or nothing there at all where the
ports stay down (R406). -/
def State.inbandShut (s : State) : Bool := 2 ≤ s.mode || s.entry 0x1000 5 == 0

def State.dropInband (s : State) : State := if 2 ≤ s.mode then s else s.bump32 0x1000 6

/-- A request of a session arrives (R43 to R46). (DESIGN CHOICE: log entry 64) (DESIGN CHOICE: log entry 73) -/
def State.request (s : State) (h : Hdr) (asked : Body) : State :=
  let body := asks h asked
  if !s.alive then s
  else if h.path = .inband ∧ s.inbandShut then s.dropInband
  else if s.mode = 3 then s.halted h body
  else match s.session h.session.toNat with
    | none => s.bump32 0x1000 7
    | some x =>
      if !h.tagOk then s.bump32 0x1000 7
      else match x.responses.find? (fun r => r.1 == h.seq) with
        | some r => s.sayTo h r.2
        | none =>
          let say (st : Nat) : State := s.sayTo h (body.response st [])
          if (match x.newest with
              | some n => !newer n h.seq && 16 < behind n h.seq
              | none => false) then say stStale
          else
            let out := s.outstanding h.session
            if out.any (fun q => q.h.seq == h.seq) then s
            else if 16 ≤ out.length then say stBusy
            else if s.storing then { s with mgmtQ := s.mgmtQ ++ [.request { h := h, body := body }] }
            else s.serve { h := h, body := body }

/-! ### The store's batches -/

/-- What a batch of a work completes. (DESIGN CHOICE: log entry 68) -/
def State.commit (s : State) : NvWork → State
  | .items q vs _ =>
    let s := s.applyItems vs
    let s := if vs.any storesKept then s.storeKept else s
    (if vs.any storesOwner then s.storeOwner else s).reply q stOk []
  | .keptDomain q key data => (s.replaceDomain key data).storeKept.reply q stOk []
  | .image q data =>
    let slot := s.inactiveSlot
    let s := if slot = 0 then { s with slotA := data } else { s with slotB := data }
    (s.replaceDomain (entryKey 0x9010 0) []).reply q stOk []
  | .stopped => s

/-- A deferred batch's answer (R26, R440). (DESIGN CHOICE: log entry 65) (DESIGN CHOICE: log entry 68) -/
def State.defer (s : State) : NvWork → State
  | .items q _ (some n) => s.reply q stDeferred [BitVec.ofNat 8 n]
  | .items q _ none => s.reply q stDeferred []
  | .keptDomain q _ _ => s.reply q stDeferred []
  | .image q _ => s.reply q stDeferred []
  | .stopped => s

/-- The freeboard check of R400 for a batch: E ≥ E_b · (1 + margin/100), in whole units.
(DESIGN CHOICE: log entry 68) -/
def freeboardOk (x : HoldReading) (bytes margin : Nat) : Bool :=
  2 * ((x.v0 : Int) - x.v1) * ((60000 + 15 * bytes) * (100 + margin) * 10000)
    ≤ (x.t : Int) * ((x.v0 : Int) * x.v0 - 25000000000000)

/-- C in µF and E in mJ as measured; with no discharge they are free values. (DESIGN CHOICE: log entry 68) -/
def State.measure (s : State) (x : HoldReading) : State :=
  let d : Int := (x.v0 : Int) - x.v1
  let c : W32 := s.freeVal 32
  let e : W32 := s.usedFree.freeVal 32
  let s := s.usedFree.usedFree
  let cap := if d = 0 then c else (write32 [] ((Fv.ofInt (1000 * x.t) 0).div (Fv.ofInt d 0))).1
  let en := if d = 0 then e
    else (write32 [] ((Fv.ofInt ((x.t : Int) * ((x.v0 : Int) * x.v0 - 25000000000000)) 0).div
      (Fv.ofInt (2000000000000 * d) 0))).1
  (s.setEntry 0x9070 1 en.toNat).setEntry 0x9070 2 cap.toNat

/-- The discharge ends after 100 µs or at a fall of 0.5 V, whichever comes first (R400). -/
def readingOk (x : HoldReading) : Bool :=
  x.v1 ≤ x.v0 && x.v0 - x.v1 ≤ 500000 && x.t ≤ 100000 && (x.t == 100000 || x.v0 - x.v1 == 500000)

/-- A reading of the ROM or the firmware at a write of its own, whose values are open. (DESIGN CHOICE: log entry 68) -/
def State.ownReading (s : State) : State × HoldReading :=
  let v0 : W32 := s.freeVal 32
  let x : W32 := s.usedFree.freeVal 32
  let whole : BitVec 1 := s.usedFree.usedFree.freeVal 1
  (s.usedFree.usedFree.usedFree,
    if whole = 1 then { v0 := v0.toNat, v1 := v0.toNat - x.toNat % 500001, t := 100000 }
    else { v0 := v0.toNat + 500000, v1 := v0.toNat, t := x.toNat % 100001 })

/-- A record that the ROM or the firmware writes on its own: one batch under its freeboard check, whose outcome it answers
(R400, R403, R405); how many bytes the store writes is a free value. (DESIGN CHOICE: log entry 68) -/
def State.ownWrite (s : State) (write : State → State) : State × Bool :=
  let n : W16 := s.freeVal 16
  let r := s.usedFree.ownReading
  let s := r.1.measure r.2
  if freeboardOk r.2 (n.toNat + 1) (s.entry 0x9070 3) && !s.supply.inputLost then ((write s).bump 0x9070 4 1, true)
  else ((s.bump 0x9070 5 1).event 0x9001 1 1, false)

end Sys2Proof.Machine
end

