-- ==== Sys2Proof/Machine/Handshakes.lean ====
section
/-! DEFINITION. The handshake that opens sessions, associations, secure channels and fabric links (19_security_boot.md
R407, R409 to R411; 02_dictionary.md R47 to R49; 17_ports_transport.md R348, R349, R351, R368). -/

namespace Sys2Proof.Machine

/-! ### Fragments (R411) -/

/-- Bytes that parts cover without a gap from a position. -/
def gather (parts : List (Nat × List Byte)) : Nat → Nat → List Byte
  | 0, _ => []
  | n + 1, pos =>
    match parts.find? (fun p => p.1 ≤ pos && pos < p.1 + p.2.length) with
    | none => []
    | some p => p.2.drop (pos - p.1) ++ gather parts n (p.1 + p.2.length)

/-- A message of `n` bytes once every byte has arrived. -/
def wholeOf (n : Nat) (parts : List (Nat × List Byte)) : Option (List Byte) :=
  let bs := gather parts parts.length 0
  if n ≤ bs.length then some (bs.take n) else none

/-- Whether a fragment fits its message. -/
def fragFits (f : Fragment) (total : Nat) : Bool :=
  f.total.toNat == total && f.offset.toNat + f.bytes.length ≤ total

def fragPart (f : Fragment) : Nat × List Byte := (f.offset.toNat, f.bytes)

/-! ### Handshakes -/

def State.handshake (s : State) (path : HsPath) (n : W32) : Option Handshake :=
  s.handshakes.find? (fun h => h.path == path && h.id == n)

def State.dropHandshake (s : State) (path : HsPath) (n : W32) : State :=
  { s with
    handshakes := s.handshakes.filter (fun h => !(h.path == path && h.id == n))
    signQ := s.signQ.filter (fun q => !(q.1 == path && q.2 == n)) }

def State.putHandshake (s : State) (h : Handshake) : State :=
  if (s.handshake h.path h.id).isSome then
    { s with handshakes := s.handshakes.map (fun (x : Handshake) => if x.path == h.path && x.id == h.id then h else x) }
  else { s with handshakes := s.handshakes ++ [h] }

def Handshake.begin (path : HsPath) (m : MgmtPath) (n : W32) (total : Nat) : Handshake :=
  { path := path, mgmt := m, id := n, h1Total := total, h1 := [], cut := 0, h2 := [], signed := false,
    queued := false, fresh := 0, h3Total := 0, h3 := [], lo := 0, hi := 0, acked := none }

/-- The lowest free handshake number of a path, with its top bit set. -/
def State.freeHandshake (s : State) (path : HsPath) (top : Nat) : W32 :=
  BitVec.ofNat 32 (((List.range 4096).map (fun i => top + i)).find? (fun n => (s.handshake path (BitVec.ofNat 32 n)).isNone)
    |>.getD top)

/-- What the arrival of a fragment comes to. -/
inductive HsStep where
  | taken
  | gone
  | busy
  | role
  deriving DecidableEq, Repr

def Handshake.h1Bytes (h : Handshake) : List Byte := (wholeOf h.h1Total h.h1).getD []

/-- The credential of H1. -/
def Handshake.cred (h : Handshake) : Cred := credOf (h.h1Bytes.drop 34)

/-- Whether H1's credential is accepted on its path (R407, R408, R412; in RECOVERY Owner sessions only, R406). -/
def State.h1Accepted (s : State) (h : Handshake) : Bool :=
  let c := h.cred
  h.h1Bytes.length == 34 + credLength (h.h1Bytes.drop 34)
    && (match h.path with
      | .tsusen =>
        (s.credOk c || s.selfOwner c) && (s.mode != 2 || c.role == 2)
          && (c.role != 3 || !s.sessions.any (fun x => x.2.role == 3))
      | .host => s.credOk c
      | .port _ _ => s.credOk c
      | .fabric peer => s.credOk c && (c.role == 1 || c.role == 2) && s.linkable peer && peer.ult s.deviceId)

/-- A complete H1: it is refused, or H2 waits for its signature (R409, R410). (DESIGN CHOICE: log entry 70) -/
def State.takeH1 (s : State) (h : Handshake) : State × HsStep :=
  let c := h.cred
  if !s.h1Accepted h then ((s.dropHandshake h.path h.id).bump32 0x1000 7, .gone)
  else if (h.path = .tsusen ∧ h.mgmt = .inband ∧ !s.credOk c) ∨ (h.path = .host ∧ c.role = 0) then
    (s.dropHandshake h.path h.id, .role)
  else if 9 ≤ s.signQ.length then (s.bump 0x9080 2 1, .busy)
  else
    let nonce : BitVec 256 := s.freeVal 256
    let s := s.usedFree
    let h2 := toBytes 32 nonce.toNat ++ padTo 1568 (Config.kemFresh s.free) ++ s.part.cert
    let b := h.h1Bytes
    ({ s.putHandshake { h with queued := true, h2 := h2, fresh := s.free, lo := fieldAt b 32 1, hi := fieldAt b 33 1 }
        with signQ := s.signQ ++ [(h.path, h.id)] }.usedFree, .taken)

/-- A fragment of H1 for a handshake. -/
def State.h1Fragment (s : State) (h : Handshake) (f : Fragment) : State × HsStep :=
  if h.queued then (s, .taken)
  else if !fragFits f h.h1Total then (s, .gone)
  else
    let g := { h with h1 := if h.h1.contains (fragPart f) then h.h1 else h.h1 ++ [fragPart f], cut := max h.cut f.bytes.length }
    if (wholeOf g.h1Total g.h1).isNone then (s.putHandshake g, .taken)
    else
      let r := (s.putHandshake g).takeH1 g
      if r.2 = .busy then (r.1.putHandshake h, .busy) else r

/-- One fragment of H2 from an offset. (DESIGN CHOICE: log entry 70) -/
def Handshake.h2Piece (h : Handshake) (off : Nat) : List Byte := (h.h2.drop off).take (max 1 h.cut)

/-- H2 is sent unasked on the paths of frames and fabric datagrams. -/
def State.sendH2 (s : State) (h : Handshake) : State := s.sendHs h.path 2 h.id h.h2

/-- The security block signs the H2 at the head of its queue (R410). -/
def State.signNext (s : State) : State :=
  match s.signQ with
  | [] => s
  | (path, n) :: rest =>
    let s := { s with signQ := rest }
    match s.handshake path n with
    | none => s
    | some h =>
      let digest := toBytes 32 (Config.sha256 (h.h1Bytes ++ h.h2)).toNat
      let h := { h with h2 := h.h2 ++ s.identitySign digest, signed := true }
      let s := s.putHandshake h
      match path with
      | .port _ _ => s.sendH2 h
      | .fabric _ => s.sendH2 h
      | _ => s

/-- Whether a complete H3 verifies and decapsulates (R409, R410), and H1 would still be accepted (R395, R407, R408). -/
def State.h3Ok (s : State) (h : Handshake) (h3 : List Byte) : Bool :=
  let c := h.cred
  s.h1Accepted h && h3.length == 1568 + 49856
    && Config.slhVerify c.subject (toBytes 32 (Config.sha256 (h.h1Bytes ++ h.h2 ++ h3.take 1568)).toNat) (h3.drop 1568)
    && (Config.kemDecap h.fresh (h3.take 1568)).isSome

/-- The direction keys that a handshake ends with (R409). -/
def Handshake.keys (h : Handshake) (h3 : List Byte) : Keys :=
  keysOf h.h1Bytes h.h2 h3 ((Config.kemDecap h.fresh (h3.take 1568)).getD 0)

/-- A fragment of H3: the message once it is whole. -/
def State.h3Fragment (s : State) (h : Handshake) (f : Fragment) : State × Option (List Byte) :=
  let total := if h.h3.isEmpty then f.total.toNat else h.h3Total
  if !fragFits f total then (s, none)
  else
    let g := { h with h3Total := total, h3 := if h.h3.contains (fragPart f) then h.h3 else h.h3 ++ [fragPart f] }
    (s.putHandshake g, wholeOf total g.h3)

/-- A handshake that fails is dropped without an answer and counted (R410). -/
def State.failHandshake (s : State) (h : Handshake) : State := (s.dropHandshake h.path h.id).bump32 0x1000 7

/-- A handshake that has opened what it was for. (DESIGN CHOICE: log entry 70) -/
def State.ackHandshake (s : State) (h : Handshake) (n : W32) (status : Nat) (payload : List Byte) : State :=
  s.putHandshake { h with acked := some (n, status, payload) }

/-- The edition that H1's offer gives under an interface's permitted range, of editions no lower than `least`; a refusal is
counted (R48). (DESIGN CHOICE: log entry 75) -/
def State.negotiated (s : State) (index least : Nat) (h : Handshake) : State × Option Nat :=
  match negotiate h.lo h.hi (max least (s.entry index 1)) (s.entry index 2) with
  | none => (s.bump32 index 3, none)
  | some e => (s, some e)

/-! ### Tsusen (R411) -/

def State.sayOpen (s : State) (path : MgmtPath) (seq : W16) (type : Nat) (n : W32) (status : Nat) (payload : List Byte)
    (offset : Nat := 0) : State :=
  s.sayOn path (n.setWidth 16) seq { type := type, offset := offset, status := status, payload := payload }

/-- The response to an `OPEN` fragment. -/
def State.answerOpen (path : MgmtPath) (seq : W16) (n : W32) (r : State × HsStep) : State :=
  match r.2 with
  | .taken => r.1.sayOpen path seq 0x81 n stOk []
  | .gone => r.1
  | .busy => r.1.sayOpen path seq 0x81 n stBusy []
  | .role => r.1.sayOpen path seq 0x81 n stRole []

/-- A fragment of H1 in an `OPEN`. -/
def State.openH1 (s : State) (path : MgmtPath) (session seq : W16) (f : Fragment) : State :=
  if session = 0 then
    match s.handshakes.find? (fun h => h.path == .tsusen && h.mgmt == path && h.h1Total == f.total.toNat && h.h1.contains (fragPart f)) with
    | some h => s.sayOpen path seq 0x81 h.id stOk []
    | none =>
      if 16 ≤ s.sessions.length then s.sayOpen path seq 0x81 0 stBusy []
      else
        let n := s.freeHandshake .tsusen 0x8000
        State.answerOpen path seq n (s.h1Fragment (Handshake.begin .tsusen path n f.total.toNat) f)
  else match s.handshake .tsusen (session.setWidth 32) with
    | none => s
    | some h => State.answerOpen path seq h.id (s.h1Fragment h f)

/-- `OPEN` (R411). -/
def State.openRequest (s : State) (path : MgmtPath) (session seq : W16) (msg : HsPart) : State :=
  if s.mode = 3 then s.sayOpen path seq 0x81 (session.setWidth 32) stAuth []
  else match msg with
    | .h1 f => s.openH1 path session seq f
    | .readH2 off =>
      match s.handshake .tsusen (session.setWidth 32) with
      | none => s
      | some h =>
        if !h.signed then s.sayOpen path seq 0x81 h.id stBusy []
        else s.sayOpen path seq 0x81 h.id stOk (toBytes 4 h.h2.length ++ h.h2Piece off.toNat) off.toNat

/-- A session opens (R43, R47, R411). (DESIGN CHOICE: log entry 66) -/
def State.beginSession (s : State) (path : MgmtPath) (seq : W16) (h : Handshake) (keys : Keys) (edition : Nat) :
    State :=
  match (List.range 16).find? (fun n => (s.session n).isNone) with
  | none => s.sayOpen path seq 0x8B h.id stBusy []
  | some n =>
    let c := h.cred
    let x : Session :=
      { role := c.role, edition := edition, path := path, scope := BitVec.ofNat 16 c.scope, udpPort := s.entry 0x1000 4,
        served := 0, newest := none, responses := [], subs := [], seg := none,
        keys := keys, enrolKey := if s.credOk c then none else some (BitVec.ofNat 512 (ofBytes c.subject)) }
    let ack := [BitVec.ofNat 8 edition, BitVec.ofNat 8 c.role]
    (((s.setSession n x).bump 0x9080 1 1).ackHandshake h (BitVec.ofNat 32 n) stOk ack).sayOpen path seq 0x8B
      (BitVec.ofNat 32 n) stOk ack

/-- `OPEN_FINISH` (R411). -/
def State.openFinish (s : State) (path : MgmtPath) (session seq : W16) (f : Fragment) : State :=
  if s.mode = 3 then s.sayOpen path seq 0x8B (session.setWidth 32) stAuth []
  else match s.handshake .tsusen (session.setWidth 32) with
    | none => s
    | some h =>
      match h.acked with
      | some a => s.sayOpen path seq 0x8B a.1 a.2.1 a.2.2
      | none =>
        if !h.signed then s
        else match s.h3Fragment h f with
          | (s, none) => s.sayOpen path seq 0x8B h.id stOk []
          | (s, some h3) =>
            if !s.h3Ok h h3 then s.failHandshake h
            else match s.negotiated 0x1103 0 h with
              | (s, none) => (s.ackHandshake h h.id stEdition []).sayOpen path seq 0x8B h.id stEdition []
              | (s, some e) => s.beginSession path seq h (h.keys h3) e

/-! ### Host associations (R351, R411) -/

def hostOk : Nat := 0
def hostNotReady : Nat := 1
def hostStale : Nat := 2
def hostBusy : Nat := 3
def hostRefused : Nat := 4
def hostRetransmit : Nat := 5
def hostPoisoned : Nat := 6
def hostEdition : Nat := 7
def hostRole : Nat := 8
def hostMalformed : Nat := 9
def hostNoAssoc : Nat := 0xA

/-- A host-transport response. -/
def State.sayHost (s : State) (type : Nat) (h : HostHdr) (status : Nat) (payload : List Byte) : State :=
  s.send (.host (type + 0x80) h status payload)

/-- Whether host transport is served: NORMAL mode, with the rails up. (DESIGN CHOICE: log entry 64) -/
def State.hosting (s : State) : Bool := s.alive && s.mode == 0 && s.supply.rails

def State.answerAssoc (h : HostHdr) (n : W32) (r : State × HsStep) : State :=
  let h := { h with assoc := n }
  match r.2 with
  | .taken => r.1.sayHost 1 h hostOk []
  | .gone => r.1
  | .busy => r.1.sayHost 1 h hostBusy []
  | .role => r.1.sayHost 1 h hostRole []

/-- A fragment of H1 in an `ASSOC`. -/
def State.assocH1 (s : State) (h : HostHdr) (f : Fragment) : State :=
  if h.assoc = 0 then
    match s.handshakes.find? (fun x => x.path == .host && x.h1Total == f.total.toNat && x.h1.contains (fragPart f)) with
    | some x => s.sayHost 1 { h with assoc := x.id } hostOk []
    | none =>
      if 16 ≤ s.assocs.length then s.sayHost 1 h hostBusy []
      else
        let n := s.freeHandshake .host 0x80000000
        State.answerAssoc h n (s.h1Fragment (Handshake.begin .host .inband n f.total.toNat) f)
  else match s.handshake .host h.assoc with
    | none => s
    | some x => State.answerAssoc h x.id (s.h1Fragment x f)

/-- The payload bytes of an `ASSOC` (R411). -/
def partLength : HsPart → Nat
  | .h1 f => 4 + f.bytes.length
  | .readH2 _ => 0

/-- `ASSOC` (R411). -/
def State.assocRequest (s : State) (h : HostHdr) (msg : HsPart) : State :=
  if !s.hosting then s
  else if h.length.toNat ≠ partLength msg then s.sayHost 1 h hostMalformed []
  else match msg with
    | .h1 f => s.assocH1 h f
    | .readH2 off =>
      match s.handshake .host h.assoc with
      | none => s
      | some x =>
        if !x.signed then s.sayHost 1 h hostBusy []
        else s.sayHost 1 h hostOk (toBytes 4 x.h2.length ++ x.h2Piece off.toNat)

/-- An association opens (R351). -/
def State.beginAssoc (s : State) (h : HostHdr) (x : Handshake) (keys : Keys) (edition : Nat) : State :=
  match ((List.range 16).map (· + 1)).find? (fun n => !s.assocs.any (fun a => a.num.toNat == n)) with
  | none => s.sayHost 0xA { h with assoc := x.id } hostBusy []
  | some n =>
    let c := x.cred
    let num := BitVec.ofNat 32 n
    let a : Association :=
      { num := num, ipv6 := h.ipv6, keys := keys, role := c.role, edition := edition,
        scope := if 2 ≤ c.role then 0xFFFF else BitVec.ofNat 16 c.scope }
    let ack := [BitVec.ofNat 8 edition, BitVec.ofNat 8 c.role]
    (({ s with assocs := s.assocs ++ [a] }.bump 0x9080 1 1).ackHandshake x num hostOk ack).sayHost 0xA
      { h with assoc := num } hostOk ack

/-- `ASSOC_FINISH` (R411). -/
def State.assocFinish (s : State) (h : HostHdr) (f : Fragment) : State :=
  if !s.hosting then s
  else if h.length.toNat ≠ 4 + f.bytes.length then s.sayHost 0xA h hostMalformed []
  else match s.handshake .host h.assoc with
    | none => s
    | some x =>
      match x.acked with
      | some a => s.sayHost 0xA { h with assoc := a.1 } a.2.1 a.2.2
      | none =>
        if !x.signed then s
        else match s.h3Fragment x f with
          | (s, none) => s.sayHost 0xA h hostOk []
          | (s, some h3) =>
            if !s.h3Ok x h3 then s.failHandshake x
            else match s.negotiated 0x1101 (if h.ipv6 then 2 else 0) x with
              | (s, none) => (s.ackHandshake x x.id hostEdition []).sayHost 0xA h hostEdition []
              | (s, some e) => s.beginAssoc h x (x.keys h3) e

/-! ### MACsec channels and fabric links (R348, R349, R368, R411) -/

/-- Whether a path of frames is there: a port whose link is up, a fabric address. -/
def State.pathUp (s : State) : HsPath → Bool
  | .port p _ => 3 ≤ (s.port p.toNat).linkState
  | .fabric _ => s.alive && s.supply.rails && s.mode == 0
  | _ => false

/-- The handshake of a peer station ends: its channel goes on under the new keys, or it has its first one, of at most 256
on a port (R347 to R349). (DESIGN CHOICE: log entry 70) -/
def State.openChannel (s : State) (q : Nat) (peer : BitVec 48) (keys : Keys) : State :=
  let x := s.port q
  match x.channels.find? (fun (c : Channel) => c.peer == peer) with
  | some c =>
    s.setPort q { x with channels := x.channels.map (fun (d : Channel) =>
      if d.num = c.num then { d with keys := keys, rekeying := false, oldKey := true } else d) }
  | none =>
    match (List.range 256).find? (fun n => !x.channels.any (fun (c : Channel) => c.num == n)) with
    | none => s
    | some n =>
      s.setPort q { x with
        linkState := 4
        channels := x.channels ++ [{ num := n, peer := peer, keys := keys, highest := 0, seen := [], oldKey := false, rekeying := false }] }

/-- A fabric link that a peer has opened, on which what has waited for it goes on; where the negotiation fails the peer is
not used (R49, R368). (DESIGN CHOICE: log entry 61) -/
def State.acceptLink (s : State) (peer : W16) (h : Handshake) (keys : Keys) : State :=
  match s.negotiated 0x1102 0 h with
  | (s, none) => s.failPeer peer
  | (s, some e) =>
    let credits : W16 := s.freeVal 16
    let r := s.usedFree.grantCredits
      { peer := peer, edition := e, scope := BitVec.ofNat 16 h.cred.scope, keys := keys, credits := credits.toNat,
        granted := 0, taken := [] }
    ({ r.1 with links := r.1.links.filter (fun (x : FabricLink) => x.peer != peer) ++ [r.2] } : State).linkOpened peer

/-- A fragment of H1 in a frame or a fabric datagram. -/
def State.frameH1 (s : State) (path : HsPath) (n : W16) (f : Fragment) : State :=
  if !s.pathUp path then s
  else
    let h := (s.handshake path (n.setWidth 32)).getD (Handshake.begin path .inband (n.setWidth 32) f.total.toNat)
    if h.signed then s.sendH2 h else (s.h1Fragment h f).1

/-- A fragment of H3 in a frame or a fabric datagram. -/
def State.frameH3 (s : State) (path : HsPath) (n : W16) (f : Fragment) : State :=
  if !s.pathUp path then s
  else match s.handshake path (n.setWidth 32) with
    | none => s
    | some h =>
      if !h.signed ∨ h.acked.isSome then s
      else match s.h3Fragment h f with
        | (s, none) => s
        | (s, some h3) =>
          if !s.h3Ok h h3 then s.failHandshake h
          else
            let s := (s.ackHandshake h h.id 0 []).bump 0x9080 1 1
            match path with
            | .port p peer => s.openChannel p.toNat peer (h.keys h3)
            | .fabric peer => s.acceptLink peer h (h.keys h3)
            | _ => s

/-- A request for a fragment of H2. -/
def State.frameH2 (s : State) (path : HsPath) (n : W16) (off : Nat) : State :=
  match s.handshake path (n.setWidth 32) with
  | none => s
  | some h =>
    if h.signed ∧ s.pathUp path then s.send (.hs path 2 h.id h.h2.length off ((h.h2.drop off).take 1480)) else s

end Sys2Proof.Machine
end

