-- ==== Sys2Proof/Machine/ContextCommands.lean ====
section
/-! DEFINITION. Packages, contexts and polders (16_partitions.md). -/

namespace Sys2Proof.Machine

/-- PACKAGE_START (R64): The next posted package starts: every core loads the program and begins at START. -/
def execPackageStart (ctx : W12) (s : State) : Host.Outcome State Fault Refusal :=
  .next (s.startPackage ctx.toNat)

/-- PACKAGE_END (R359): The closing barrier completes, and the package's result slot becomes READY. -/
def execPackageEnd (ctx : W12) (s : State) : Host.Outcome State Fault Refusal :=
  .next (s.endPackage ctx.toNat)

/-- SLICE_EXPIRY (R324): A running context that has used SLICE fast cycles is pre-empted for a waiting context of equal priority. -/
def execSliceExpiry (ctx : W12) (s : State) : Host.Outcome State Fault Refusal :=
  .next (s.sliceEnd ctx.toNat)

/-- SAVE_DONE (R327): Every core has written its save image, the context record is written, and the context becomes SAVED. -/
def execSaveDone (ctx : W12) (s : State) : Host.Outcome State Fault Refusal :=
  .next (s.saved ctx.toNat)

/-- RESTORE_DONE (R327): The save images are read back, and the context resumes. -/
def execRestoreDone (ctx : W12) (s : State) : Host.Outcome State Fault Refusal :=
  .next (s.restored ctx.toNat)

/-- CONTEXT_PREEMPT (R327): A write that requests pre-emption of a running context. -/
def execContextPreempt (h : Hdr) (polder : BitVec 4) (context : Byte) (s : State) : Host.Outcome State Fault Refusal :=
  .next (s.request h (.write (0x5102 + 16 * polder.toNat) 2 ([context])))

/-- CONTEXT_CLOSE (R331): A write that closes a context, tearing it down. -/
def execContextClose (h : Hdr) (polder : BitVec 4) (context : Byte) (s : State) : Host.Outcome State Fault Refusal :=
  .next (s.request h (.write (0x5102 + 16 * polder.toNat) 3 ([context])))

/-- CONTEXT_MOVE (R329): A write that moves a context to a new site mask. -/
def execContextMove (h : Hdr) (polder : BitVec 4) (context : Byte) (mask : W16) (s : State) : Host.Outcome State Fault Refusal :=
  .next (s.request h (.write (0x5102 + 16 * polder.toNat) 4 (context :: toBytes 2 mask.toNat)))

/-- POLDER_RESET (R332): Resets a polder: tears down its contexts and zeroes its counters and cache. -/
def execPolderReset (h : Hdr) (polder : BitVec 4) (value : Byte) (s : State) : Host.Outcome State Fault Refusal :=
  .next (s.request h (.write (0x5102 + 16 * polder.toNat) 1 ([value])))

/-- POLDER_SITES (R320): A write of a polder's site mask, which powers down leaving sites and zeroes joining ones. -/
def execPolderSites (h : Hdr) (polder : BitVec 4) (mask : W16) (s : State) : Host.Outcome State Fault Refusal :=
  .next (s.request h (.write (0x5100 + 16 * polder.toNat) 1 (toBytes 2 mask.toNat)))

/-- SITE_ZEROED (R315): A joining site completes its power-up and zero fill. -/
def execSiteZeroed (site : BitVec 4) (s : State) : Host.Outcome State Fault Refusal :=
  .next (s.siteFilled site.toNat)

/-- SNAPSHOT (R340): Copies every context's state into CONTEXT_TABLE and advances its generation. -/
def execSnapshot (h : Hdr) (polder : BitVec 4) (value : Byte) (s : State) : Host.Outcome State Fault Refusal :=
  .next (s.request h (.write (0x5105 + 16 * polder.toNat) 0 ([value])))

/-- HIST_CLEAR (R144): Zeroes a core's exponent histogram bins. -/
def execHistClear (h : Hdr) (core : Byte) (value : Byte) (s : State) : Host.Outcome State Fault Refusal :=
  .next (s.request h (.write (0x4007 + 16 * core.toNat) 0 ([value])))

/-- INIT (R247): Initialises a polder's key-value cache. -/
def execCacheInit (h : Hdr) (polder : BitVec 4) (value : Byte) (s : State) : Host.Outcome State Fault Refusal :=
  .next (s.request h (.write (0x7010 + polder.toNat) 0x0E ([value])))

/-- RESULT_HOLD_EXPIRY (R336): A closing barrier has waited RESULT_HOLD_LIMIT for its slot, and HOST_STALLED is set. -/
def execResultHoldExpiry (ctx : W12) (s : State) : Host.Outcome State Fault Refusal :=
  .next (s.holdExpiry ctx.toNat)

end Sys2Proof.Machine
end

