-- ==== Sys2Proof/Machine/ControlCommands.lean ====
section
/-! DEFINITION. The X slots of control, counters, exchange and synchronisation (03_core.md). -/

namespace Sys2Proof.Machine

/-- X_JMP (R57): Jumps to TARGET. -/
def execXJmp (h : SlotAt) (f : XFields) (s : State) : Host.Outcome State Fault Refusal :=
  .next (s.stage h (.jmp f))

/-- X_BR (R57): Jumps to TARGET when the guard holds. -/
def execXBr (h : SlotAt) (f : XFields) (s : State) : Host.Outcome State Fault Refusal :=
  .next (s.stage h (.br f))

/-- X_CALL (R57): Pushes the return address and jumps. -/
def execXCall (h : SlotAt) (f : XFields) (s : State) : Host.Outcome State Fault Refusal :=
  .next (s.stage h (.call f))

/-- X_RET (R57): Pops the return address and jumps. -/
def execXRet (h : SlotAt) (f : XFields) (s : State) : Host.Outcome State Fault Refusal :=
  .next (s.stage h (.ret f))

/-- X_BAR (R68): Arrives at a barrier of context or site scope. -/
def execXBar (h : SlotAt) (f : XFields) (s : State) : Host.Outcome State Fault Refusal :=
  .next (s.stage h (.bar f))

/-- BARRIER_RELEASE (R69): The barrier tree releases every core of the scope once the last core has arrived. -/
def execBarrierRelease (ctx : W12) (scope : Bool) (site : BitVec 4) (s : State) : Host.Outcome State Fault Refusal :=
  .next (s.releaseBarrier ctx.toNat scope site.toNat)

/-- X_FETCHADD (R72): Sends a fetch-and-add request to a work counter. -/
def execXFetchadd (h : SlotAt) (f : XFields) (s : State) : Host.Outcome State Fault Refusal :=
  .next (s.stage h (.fetchadd f))

/-- X_CSET (R72): Sends a set request to a work counter. -/
def execXCset (h : SlotAt) (f : XFields) (s : State) : Host.Outcome State Fault Refusal :=
  .next (s.stage h (.cset f))

/-- COUNTER_SERVED (R72): A controller serves one counter request indivisibly, in arrival order, and returns the old value. -/
def execCounterServed (site channel : BitVec 4) (s : State) : Host.Outcome State Fault Refusal :=
  .next (s.serveCounter (16 * site.toNat + channel.toNat))

/-- X_PUT (R67): Sends lines to a receive posted by another core. -/
def execXPut (h : SlotAt) (f : XFields) (s : State) : Host.Outcome State Fault Refusal :=
  .next (s.stage h (.put f))

/-- X_RECV (R67): Posts a receive under a tag. -/
def execXRecv (h : SlotAt) (f : XFields) (s : State) : Host.Outcome State Fault Refusal :=
  .next (s.stage h (.recv f))

/-- EXCHANGE_DONE (R67): The last line of a put reaches the receiving working store, and both tags become free. -/
def execExchangeDone (core : Byte) (tag : BitVec 4) (s : State) : Host.Outcome State Fault Refusal :=
  .next (s.exchange core.toNat tag.toNat)

/-- X_FENCE (R65): The bundle waits until every tag of the core is free. -/
def execXFence (h : SlotAt) (f : XFields) (s : State) : Host.Outcome State Fault Refusal :=
  .next (s.stage h (.fence f))

/-- X_ILOAD (R64): Starts an asynchronous load of bundles into the instruction store. -/
def execXIload (h : SlotAt) (f : XFields) (s : State) : Host.Outcome State Fault Refusal :=
  .next (s.stage h (.iload f))

/-- ILOAD_DONE (R64): An instruction-store load completes and frees its tag. -/
def execIloadDone (core : Byte) (tag : BitVec 4) (s : State) : Host.Outcome State Fault Refusal :=
  .next (s.finish core.toNat tag.toNat Op.isIload)

/-- X_WAIT (R65): The bundle waits at issue until the named tag is free. -/
def execXWait (h : SlotAt) (f : XFields) (s : State) : Host.Outcome State Fault Refusal :=
  .next (s.stage h (.xWait f))

/-- X_HALT (R70): The core arrives at the package's closing barrier. -/
def execXHalt (h : SlotAt) (f : XFields) (s : State) : Host.Outcome State Fault Refusal :=
  .next (s.stage h (.halt f))

/-- FAULT_TAKEN (R73): A fault detected inside an asynchronous operation is taken at the next bundle boundary. -/
def execFaultTaken (core : Byte) (s : State) : Host.Outcome State Fault Refusal :=
  .next (s.boundary core.toNat)

end Sys2Proof.Machine
end

