-- ==== Sys2Proof/Machine/FabricCommands.lean ====
section
/-! DEFINITION. The fabric (17_ports_transport.md R368 to R374). -/

namespace Sys2Proof.Machine

/-- FABRIC_PUT (R369): Sends bytes to a fabric group member. (DESIGN CHOICE: log entry 59) -/
def execFabricPut (h : SlotAt) (f : XFields) (s : State) : Host.Outcome State Fault Refusal :=
  .next (s.stage h (.fabric f))

/-- FABRIC_ALLREDUCE (R370): Combines leaves across members in Meridian order and writes the root at every member. -/
def execFabricAllreduce (h : SlotAt) (f : XFields) (s : State) : Host.Outcome State Fault Refusal :=
  .next (s.stage h (.fabric f))

/-- FABRIC_REDUCE (R370): Combines leaves across members and writes the root at the member that holds leaf 0. -/
def execFabricReduce (h : SlotAt) (f : XFields) (s : State) : Host.Outcome State Fault Refusal :=
  .next (s.stage h (.fabric f))

/-- FABRIC_BROADCAST (R369): Broadcasts bytes from a source member. -/
def execFabricBroadcast (h : SlotAt) (f : XFields) (s : State) : Host.Outcome State Fault Refusal :=
  .next (s.stage h (.fabric f))

/-- FABRIC_DONE (R370): A fabric operation completes, writing FSTATUS, and frees its tag. -/
def execFabricDone (op : Nat) (s : State) : Host.Outcome State Fault Refusal :=
  .next (s.doneFabric op)

/-- FABRIC_PACKET_RX (R374): Receives a fabric PUT, node or result write and checks it before writing. -/
def execFabricPacketRx (p : FabricPacket) (s : State) : Host.Outcome State Fault Refusal :=
  .next (s.fabricArrives p)

/-- FABRIC_ABORT_RX (R373): An abort from a member completes the local collective with FSTATUS 2. -/
def execFabricAbortRx (group : W64) (collId : W64) (s : State) : Host.Outcome State Fault Refusal :=
  .next (s.fabricAborts group collId)

/-- FABRIC_RTO_EXPIRY (R372): A fabric packet unacknowledged after RTO is sent again on the escape path. -/
def execFabricRtoExpiry (packet : Unacked) (s : State) : Host.Outcome State Fault Refusal :=
  .next (s.fabricRto packet.packet packet.crcFails)

/-- ESCAPE_WAIT_EXPIRY (R372): A fabric packet that has waited ESCAPE_WAIT takes the escape path. -/
def execEscapeWaitExpiry (packet : Nat) (s : State) : Host.Outcome State Fault Refusal :=
  .next (s.fabricEscape packet)

end Sys2Proof.Machine
end

