-- ==== Sys2Proof/Machine/Host.lean ====
section
/-! DEFINITION. Host transport (17_ports_transport.md R350 to R367, R369; 16_partitions.md R322, R326; 19_security_boot.md
R414): contexts, work packages, declaration blocks, result slots. -/

namespace Sys2Proof.Machine

/-! ### Requests -/

/-- The payload limit of an edition (R350). (DESIGN CHOICE: log entry 75) -/
def hostLimit (edition : Nat) : Nat := if edition = 1 then 4096 else 8192

/-- A request of `n` payload bytes on an open association (R350, R351): its header carries the association's edition, its
length and no more than that edition allows. T1 is not there over IPv6. (DESIGN CHOICE: log entry 75) -/
def State.onAssoc (s : State) (type : Nat) (h : HostHdr) (n : Nat) (f : Association → State) : State :=
  if !s.hosting then s
  else match s.assocs.find? (fun a => a.num == h.assoc) with
    | none => s.sayHost type h hostNoAssoc []
    | some a =>
      if a.edition = 1 ∧ h.ipv6 then s
      else if h.edition.toNat ≠ a.edition ∨ h.length.toNat ≠ n ∨ hostLimit a.edition < n then s.sayHost type h hostMalformed []
      else f a

/-- A request on a context that the association may address. -/
def State.onContext (s : State) (type : Nat) (h : HostHdr) (ctx : Nat) (a : Association) (f : State) : State :=
  if 4096 ≤ ctx then s.sayHost type h hostMalformed []
  else if !a.scope.getLsbD (polderOf ctx) then s.sayHost type h hostRole []
  else f

def State.refuseHost (s : State) (type : Nat) (h : HostHdr) (reason : Nat) : State :=
  s.sayHost type h hostRefused [BitVec.ofNat 8 reason]

/-! ### Opening a context (R322, R326, R354) -/

def notPreemptible : Nat := 0xFFFFFFFFFFFFFFFF

/-- Whether a save area may be used by a context with a site mask (R326). -/
def State.saveOk (s : State) (p mask off : Nat) : Bool :=
  off == notPreemptible
    || (off % 2048 == 0 && off + siteSaveBytes ≤ 2 ^ 34
      && !(s.ctxsOf p).any (fun x => x.2.preemptible && (x.2.sites.toNat &&& mask) != 0
        && off < x.2.saveOff.toNat + siteSaveBytes && x.2.saveOff.toNat < off + siteSaveBytes))

/-- The reason that refuses an open, if any (R354). (DESIGN CHOICE: log entry 75) -/
def State.openReason (s : State) (ctx mask off : Nat) : Option Nat :=
  let p := polderOf ctx
  if !(s.polder p).formed then some 1
  else if (s.ctx ctx).state ≠ 0 then some 2
  else if (mask &&& s.polderMask p) ≠ mask ∨ (s.coresOf mask).isEmpty then some 3
  else if !s.saveOk p mask off then some 4
  else if 256 ≤ (s.openCtxs p).length then some 5
  else if !s.recordsOk p then some 6
  else none

/-- The opened context. -/
def State.newContext (s : State) (a : Association) (ctx : Nat) (pl : List Byte) (cs me : Nat) : State :=
  let mask := fieldAt pl 2 2
  let off := fieldAt pl 8 8
  { s.setCtx ctx
      { Ctx.closed with
        state := 1, sites := BitVec.ofNat 16 mask, prio := fieldAt pl 4 1, relaxed := fieldAt pl 5 1 % 2 == 1,
        preemptible := off != notPreemptible, saveOff := BitVec.ofNat 64 off, csEd := cs, mEd := me,
        e4nan := s.entry (0xA020 + polderOf ctx) 0 == 1, cores := s.coresOf mask, openAt := s.nextId,
        openedBy := a.num, openPayload := pl }
    with nextId := s.nextId + 1 }

/-- One interface's negotiation at a context's open, its refusal counted. -/
def State.offered (s : State) (index : Nat) (pl : List Byte) (at' : Nat) : State × Option Nat :=
  match negotiate (fieldAt pl at' 1) (fieldAt pl (at' + 1) 1) (s.entry index 1) (s.entry index 2) with
  | none => (s.bump32 index 3, none)
  | some e => (s, some e)

/-- `CTX_OPEN` (R322, R352, R354). -/
def State.ctxOpen (s : State) (h : HostHdr) (pl : List Byte) : State :=
  s.onAssoc 3 h pl.length (fun a =>
    let ctx := fieldAt pl 0 2
    if pl.length ≠ 32 ∨ 7 < fieldAt pl 4 1 then s.sayHost 3 h hostMalformed []
    else s.onContext 3 h ctx a (
      let c := s.ctx ctx
      if c.state ≠ 0 ∧ c.openedBy = a.num ∧ c.openPayload = pl then s.sayHost 3 h hostOk []
      else match s.openReason ctx (fieldAt pl 2 2) (fieldAt pl 8 8) with
        | some r => s.refuseHost 3 h r
        | none =>
          let x := s.offered 0x1100 pl 16
          let y := x.1.offered 0x1104 pl 18
          match x.2, y.2 with
          | some cs, some me => (y.1.newContext a ctx pl cs me).sayHost 3 h hostOk []
          | _, _ => y.1.sayHost 3 h hostEdition []))

/-- `CTX_CLOSE` (R331, R350); a repeated one, which names a CLOSED context, is answered `OK` (R352).
(DESIGN CHOICE: log entry 53) (DEDUCED: log entry 74) -/
def State.ctxClose (s : State) (h : HostHdr) : State :=
  s.onAssoc 4 h 0 (fun a => s.onContext 4 h h.context.toNat a (
    if (s.ctx h.context.toNat).state = 0 then s.sayHost 4 h hostOk []
    else ((s.teardown h.context.toNat 0 0).schedule (polderOf h.context.toNat)).sayHost 4 h hostOk []))

/-- An association ends: no context counts as opened by it any more, so that one that takes its number later has opened
none (R352). -/
def State.endAssoc (s : State) (n : W32) : State :=
  { s with
    assocs := s.assocs.filter (fun b => b.num != n)
    ctxs := s.ctxs.map (fun x => (x.1, { x.2 with openedBy := if x.2.openedBy = n then 0 else x.2.openedBy })) }

/-- `ASSOC_CLOSE` (R351). -/
def State.assocClose (s : State) (h : HostHdr) : State :=
  s.onAssoc 2 h 0 (fun a => (s.endAssoc a.num).sayHost 2 h hostOk [])

/-- An association that has been idle for too long is closed (R351). -/
def State.assocIdle (s : State) (n : W32) : State := s.endAssoc n

/-! ### Work packages (R353, R355) -/

/-- The descriptor at the head of a package (R353, R414). -/
def pkgOf (bs : List Byte) : Pkg :=
  let flags := fieldAt bs 2 2
  { ordinal := fieldAt bs 8 8, version := fieldAt bs 0 2, e2e := flags % 2 == 1, sealed := flags / 2 % 2 == 1,
    length := fieldAt bs 16 8, dest := BitVec.ofNat 64 (fieldAt bs 24 8), program := BitVec.ofNat 64 (fieldAt bs 32 8),
    bundles := fieldAt bs 40 2, start := fieldAt bs 42 2, resAddr := BitVec.ofNat 64 (fieldAt bs 48 8),
    resBytes := fieldAt bs 56 4, crc := BitVec.ofNat 64 (fieldAt bs 64 8), declOffset := fieldAt bs 72 4,
    declCount := fieldAt bs 76 4, key := none, nonce := (bs.drop 132).take 12 }

/-- The descriptor versions of a command-stream edition (R356). -/
def versionAllowed (cs v : Nat) : Bool :=
  match cs with
  | 1 => v == 1
  | 2 => v == 1 || v == 2
  | _ => v == 2

/-- Whether a descriptor is valid for a context (reason 0x10). -/
def State.pkgValid (s : State) (ctx k : Nat) (x : Pkg) : Bool :=
  let p := polderOf ctx
  versionAllowed (s.ctx ctx).csEd x.version && x.ordinal == k
    && x.length % 64 == 0 && (if x.sealed then 192 else 128) ≤ x.length && x.length ≤ 2 ^ 32 - 64
    && x.dest.toNat % 64 == 0 && s.rangeIn p x.dest x.length
    && x.program.toNat % 128 == 0 && 1 ≤ x.bundles && x.bundles ≤ 2048 && s.rangeIn p x.program (128 * x.bundles)
    && x.start ≤ 2047 && x.resAddr.toNat % 64 == 0 && x.resBytes % 64 == 0 && s.rangeIn p x.resAddr x.resBytes
    && (x.version != 1 || (x.declOffset == 0 && x.declCount == 0))

def Ctx.assembly (c : Ctx) (k : Nat) : Option Assembly := c.asm.find? (fun a => a.ordinal == k)

def State.dropAssembly (s : State) (ctx k : Nat) : State :=
  s.onCtx ctx (fun c => { c with asm := c.asm.filter (fun a => a.ordinal != k) })

def State.putAssembly (s : State) (ctx : Nat) (a : Assembly) : State :=
  (s.dropAssembly ctx a.ordinal).onCtx ctx (fun c => { c with asm := c.asm ++ [a] })

/-! ### Declarations (R357, R358) -/

def declOf (bs : List Byte) : Decl :=
  { kind := fieldAt bs 0 2, leaves := fieldAt bs 4 4, ident := BitVec.ofNat 64 (fieldAt bs 8 8),
    addr := BitVec.ofNat 64 (fieldAt bs 16 8) }

/-- Whether one record is valid. (DESIGN CHOICE: log entry 76) -/
def declValid (bs : List Byte) : Bool :=
  let d := declOf bs
  1 ≤ d.kind && d.kind ≤ 3 && fieldAt bs 2 2 == 0 && fieldAt bs 24 8 == 0 && (d.kind == 2 || d.leaves != 0)
    && (d.kind != 2 || d.addr.toNat % 64 == 0)

/-- A record enters the table: it replaces one of its `ID` or `ADDR`. -/
def enterDecl (t : List Decl) (d : Decl) : List Decl :=
  if d.kind = 3 then t
  else
    let same (e : Decl) : Bool := e.kind == d.kind && (if d.kind = 1 then e.ident == d.ident else e.addr == d.addr)
    if t.any same then t.map (fun e => if same e then d else e) else t ++ [d]

/-- The declaration table after a package's block, or none where the block is invalid or the table too full.
(DESIGN CHOICE: log entry 76) -/
def declTable (t : List Decl) (x : Pkg) (plain : List Byte) : Option (List Decl) :=
  if x.version ≠ 2 then some t
  else if 64 < x.declCount then none
  else if x.declOffset = 0 then some t
  else if x.declOffset % 64 ≠ 0 ∨ x.declOffset < (if x.sealed then 192 else 128)
      ∨ x.length < x.declOffset + 32 * x.declCount then none
  else
    let recs := (List.range x.declCount).map (fun i => (plain.drop (x.declOffset + 32 * i)).take 32)
    if !recs.all declValid then none
    else
      let u := recs.foldl (fun t b => enterDecl t (declOf b)) t
      if 16 < u.length then none else some u

/-! ### Posting (R14, R355, R358) -/

/-- The requests that wait for a package to be posted are answered. -/
def State.answerPosting (s : State) (a : Assembly) (answer : State → HostHdr → State) : State := a.replies.foldl answer s

/-- The next package in order, if it is ready: posted, or refused for its declaration block; its last segment is answered
with that (R358). (DESIGN CHOICE: log entry 76) -/
def State.postNext (s : State) (ctx : Nat) : State :=
  let c := s.ctx ctx
  match c.assembly c.nextPost with
  | none => s
  | some a =>
    match a.ready with
    | none => s
    | some x =>
      match declTable c.decls x ((a.parts.headD (0, [])).2) with
      | none => (s.dropAssembly ctx a.ordinal).answerPosting a (fun s h => s.refuseHost 5 h 0x13)
      | some t =>
        let s := (s.dropAssembly ctx a.ordinal).onCtx ctx (fun c =>
          { c with decls := t, queue := c.queue ++ [x], nextPost := c.nextPost + 1 })
        (s.bump (0x6200 + polderOf ctx) 1 1).answerPosting a (fun s h => s.sayHost 5 h hostOk [])

/-- Packages posted in order; a context that had none becomes ready, and its polder's scheduler looks (R324). -/
def State.postReady (s : State) (ctx : Nat) : State :=
  let old := s.ctx ctx
  let s := (List.range 4).foldl (fun s _ => s.postNext ctx) s
  let new := s.ctx ctx
  if new.queue.length = old.queue.length then s
  else
    let s := if old.state = 1 then (s.onCtx ctx (fun c => { c with state := 2 })).stampReady ctx
      else if old.state = 5 ∧ !old.waits then s.stampReady ctx
      else s
    s.schedule (polderOf ctx)

/-! ### A segment lands (R14, R355, R364, R366, R414) -/

/-- Parts of a package are written where they lie. (DESIGN CHOICE: log entry 76) -/
def State.land (s : State) (p : Nat) (x : Pkg) (parts : List (Nat × List Byte)) : State :=
  (parts.filter (fun q => q.1 + q.2.length ≤ x.length)).foldl (fun s q =>
    s.writeView (ioFor p) (x.dest + BitVec.ofNat 64 q.1) q.2) s

/-- The plain bytes of a sealed package with its slot key, or none where the slot is empty or the tag fails (R414).
(DESIGN CHOICE: log entry 76) -/
def State.unsealPkg (s : State) (p : Nat) (bs : List Byte) : Option (List Byte × BitVec 256) :=
  match tblFind s.sealKeys (16 * p + fieldAt bs 128 1) with
  | none => none
  | some k =>
    (Config.gcmOpen k ((bs.drop 132).take 12) (bs.take 128) (bs.drop 192) ((bs.drop 144).take 16)).map (fun pt =>
      (bs.take 128 ++ List.replicate 64 0 ++ padTo (bs.length - 192) pt, k))

/-- A package that is whole in the order of its bytes: opened if it is sealed, checked end to end; ready, or the reason
that refuses it. -/
def State.checkPkg (s : State) (ctx : Nat) (x : Pkg) (bs : List Byte) : State × Except Nat (Pkg × List Byte) :=
  let p := polderOf ctx
  let opened : Option (Pkg × List Byte) :=
    if x.sealed then (s.unsealPkg p bs).map (fun r => ({ x with key := some r.2 }, r.1)) else some (x, bs)
  match opened with
  | none => ((s.writeView (ioFor p) x.dest (List.replicate x.length 0)).event 0x9001 2 1, .error 0x10)
  | some (x, plain) =>
    let s := if x.sealed then s.writeView (ioFor p) x.dest plain else s
    if x.e2e ∧ crc64 (plain.drop 128) ≠ x.crc then (s.event 0x6010 2 1, .error 0x10)
    else (s, .ok (x, plain))

/-- The descriptor of a package in assembly, once its first segment has arrived. -/
def descOf (parts : List (Nat × List Byte)) : Option Pkg :=
  (parts.find? (fun q => q.1 == 0)).map (fun q => pkgOf q.2)

/-- Packages of a context that are whole, posted or not. (DESIGN CHOICE: log entry 76) -/
def Ctx.wholePkgs (c : Ctx) : Nat := c.queue.length + (c.asm.filter (fun a => a.ready.isSome)).length

/-- A whole package's checks, and its posting when its turn has come, which answers its last segment. -/
def State.completeAssembly (s : State) (h : HostHdr) (ctx k : Nat) (x : Pkg) (bs : List Byte) : State :=
  match s.checkPkg ctx x bs with
  | (s, .error r) => (s.dropAssembly ctx k).refuseHost 5 h r
  | (s, .ok (x, plain)) =>
    (s.putAssembly ctx { ordinal := k, parts := [(0, plain)], ready := some x, replies := [h] }).postReady ctx

/-- A segment that has passed its CRC, for a package in the assembly window. (DESIGN CHOICE: log entry 76) -/
def State.takeSegment (s : State) (h : HostHdr) (ctx k : Nat) (bs : List Byte) : State :=
  let p := polderOf ctx
  let off := h.offset.toNat
  let old := ((s.ctx ctx).assembly k).map Assembly.parts |>.getD []
  let parts := old.filter (fun q => q.1 != off) ++ [(off, bs)]
  match descOf parts with
  | none => (s.putAssembly ctx { ordinal := k, parts := parts, ready := none, replies := [] }).sayHost 5 h hostOk []
  | some x =>
    if off = 0 ∧ !s.pkgValid ctx k x then (s.dropAssembly ctx k).refuseHost 5 h 0x10
    else if x.length < off + bs.length ∨ (h.flags.getLsbD 0 ∧ off + bs.length ≠ x.length) then
      s.sayHost 5 h hostMalformed []
    else if s.touchesGuarded p x.dest x.length then (s.dropAssembly ctx k).refuseHost 5 h 0x11
    else
      let s := if x.sealed then s else s.land p x (if off = 0 then parts else [(off, bs)])
      let s := s.putAssembly ctx { ordinal := k, parts := parts, ready := none, replies := [] }
      match wholeOf x.length parts with
      | none => s.sayHost 5 h hostOk []
      | some all =>
        if 64 ≤ (s.ctx ctx).wholePkgs then
          (s.putAssembly ctx { ordinal := k, parts := old, ready := none, replies := [] }).sayHost 5 h hostBusy []
        else s.completeAssembly h ctx k x all

/-- A segment of a package that is whole: one that repeats the last waits with it, any other is answered (R352).
(DESIGN CHOICE: log entry 76) -/
def State.repeatSegment (s : State) (h : HostHdr) (ctx : Nat) (x : Assembly) : State :=
  if x.replies.any (fun r => r.offset == h.offset) then s.putAssembly ctx { x with replies := x.replies ++ [h] }
  else s.sayHost 5 h hostOk []

/-- `SUBMIT` (R352, R355, R364). -/
def State.submit (s : State) (h : HostHdr) (payload arrived : List Byte) : State :=
  s.onAssoc 5 h payload.length (fun a =>
    let ctx := h.context.toNat
    s.onContext 5 h ctx a (
      let c := s.ctx ctx
      let n := payload.length
      if c.state = 0 then s.refuseHost 5 h 0x12
      else if n = 0 ∨ h.offset.toNat % 256 ≠ 0
          ∨ (!h.flags.getLsbD 0 ∧ n % 256 ≠ 0) then s.sayHost 5 h hostMalformed []
      else if h.item.toNat < c.nextPost then s.sayHost 5 h hostOk []
      else if c.nextPost + 4 ≤ h.item.toNat then s.sayHost 5 h hostBusy []
      else if !segmentsOk payload arrived then
        ((s.event 0x6010 0 1).bump (0x6200 + polderOf ctx) 3 1).sayHost 5 h hostRetransmit []
      else match c.assembly h.item.toNat with
        | some x => if x.ready.isSome then s.repeatSegment h ctx x else s.takeSegment h ctx h.item.toNat arrived
        | none => s.takeSegment h ctx h.item.toNat arrived))

/-- A package left incomplete is discarded; its written bytes stay (R355). -/
def State.assemblyExpiry (s : State) (ctx k : Nat) : State :=
  match (s.ctx ctx).assembly k with
  | none => s
  | some a =>
    if a.ready.isSome then s
    else ((s.dropAssembly ctx k).bump (0x6200 + polderOf ctx) 2 1).event 0x6010 4 1

/-! ### Result slots (R360, R361) -/

/-- Whether a package with a tag has been submitted for a slot and has not completed. -/
def Ctx.submitted (c : Ctx) (slot tag : Nat) : Bool :=
  (c.asm.map Assembly.ordinal ++ c.queue.map Pkg.ordinal ++ (c.running.toList.map Pkg.ordinal)
    ++ c.discards.map Unplaced.ordinal).any (fun k => k % 256 == slot && resultTag k == tag)

/-- The bytes of a READY slot: the record, then the result as memory stands or as it was sealed. -/
def State.resultBytes (s : State) (p : Nat) (r : ResultSlot) (off n : Nat) : State × List Byte × Bool :=
  let head := ((r.record.getD []).drop off).take n
  let from' := max off 64 - 64
  let m := off + n - 64 - from'
  if off + n ≤ 64 then (s, head, false)
  else
    let v := s.readView (ioFor p) (r.resAddr + BitVec.ofNat 64 from') m
    let sent := match r.sealed with
      | some bs => (bs.drop from').take m
      | none => v.data
    (v.state, head ++ sent, v.poison.isSome)

/-- Segments of a reply whose check fails on the way out, by how often each does (R365): the segment is read again, up to
`RETRY_LIMIT` times; whether one still fails, or holds a poisoned word. (DESIGN CHOICE: log entry 76) -/
def State.resendSegments (s : State) (p : Nat) (r : ResultSlot) (off n : Nat) (fails : List Nat) : State × Bool :=
  let limit := s.entry 0x6000 6
  let first := off / 256
  ((fails.take ((off + n + 255) / 256 - first)).zipIdx).foldl (fun a f =>
    let lo := max off (256 * (first + f.2))
    let hi := min (off + n) (256 * (first + f.2 + 1))
    let t := a.1.event 0x6010 1 (min f.1 (limit + 1))
    (List.range (min f.1 limit)).foldl (fun a _ =>
      let v := a.1.resultBytes p r lo (hi - lo)
      (v.1, a.2 || v.2.2)) (t, a.2 || limit < f.1)) (s, false)

/-- `GET` (R360, R365). -/
def State.getResult (s : State) (h : HostHdr) : State :=
  s.onAssoc 6 h h.length.toNat (fun a =>
    let ctx := h.context.toNat
    let p := polderOf ctx
    let tag := h.item.toNat % 2 ^ 32
    let n := h.length.toNat
    s.onContext 6 h ctx a (
      if 256 ≤ h.slot.toNat then s.sayHost 6 h hostMalformed []
      else
        let c := s.ctx ctx
        let missing : State :=
          if c.submitted h.slot.toNat tag then (s.bump (0x6200 + p) 4 1).sayHost 6 h hostNotReady []
          else (s.bump (0x6200 + p) 5 1).sayHost 6 h hostStale []
        match tblFind c.slots h.slot.toNat with
        | none => missing
        | some r =>
          if !r.ready ∨ r.tag ≠ tag then missing
          else if 64 + r.resBytes < h.offset.toNat + n then s.sayHost 6 h hostMalformed []
          else match s.resultBytes p r h.offset.toNat n with
            | (s, _, true) => (s.event 0x6010 3 1).sayHost 6 h hostPoisoned []
            | (s, bs, false) =>
              match s.resendSegments p r h.offset.toNat n h.crcFails with
              | (s, true) => s.sayHost 6 h hostPoisoned []
              | (s, false) => s.sayHost 6 h hostOk bs))

/-- `RELEASE` (R361). (DEDUCED: log entry 74) -/
def State.releaseSlot (s : State) (h : HostHdr) : State :=
  s.onAssoc 7 h 0 (fun a =>
    let ctx := h.context.toNat
    let tag := h.item.toNat % 2 ^ 32
    let stale : State := (s.bump (0x6200 + polderOf ctx) 5 1).sayHost 7 h hostStale []
    s.onContext 7 h ctx a (
      if 256 ≤ h.slot.toNat then s.sayHost 7 h hostMalformed []
      else match tblFind (s.ctx ctx).slots h.slot.toNat with
        | none => stale
        | some r =>
          if r.tag ≠ tag ∨ r.record.isNone then stale
          else if r.released then s.sayHost 7 h hostOk []
          else
            let s := s.onCtx ctx (fun c => { c with slots := tblPut c.slots h.slot.toNat { r with released := true } })
            (s.placeWaiting ctx h.slot.toNat).sayHost 7 h hostOk []))

/-! ### Fabric groups (R369) -/

/-- `FABRIC_JOIN`: group identifier, context, member count, members. (DESIGN CHOICE: log entry 75) -/
def State.fabricJoin (s : State) (h : HostHdr) (pl : List Byte) : State :=
  s.onAssoc 9 h pl.length (fun a =>
    let ctx := fieldAt pl 8 2
    let m := fieldAt pl 10 2
    let members := (List.range m).map (fun i => BitVec.ofNat 16 (fieldAt pl (12 + 2 * i) 2))
    s.onContext 9 h ctx a (
      if m = 0 ∨ pl.length ≠ 12 + 2 * m ∨ s.deviceId = 0xFFFF#16 ∨ !members.contains s.deviceId then
        s.sayHost 9 h hostMalformed []
      else if (s.ctx ctx).state = 0 then s.refuseHost 9 h 0x12
      else
        let g : Group :=
          { ident := BitVec.ofNat 64 (fieldAt pl 0 8), members := members, mine := members.idxOf s.deviceId, ended := [] }
        (s.onCtx ctx (fun c => { c with group := some g })).sayHost 9 h hostOk []))

end Sys2Proof.Machine
end

