-- ==== Sys2Proof/Machine/HostCommands.lean ====
section
/-! DEFINITION. The host transport (17_ports_transport.md R350 to R362). -/

namespace Sys2Proof.Machine

/-- ASSOC (R411): A host-transport ASSOC request carries an H1 fragment or reads an H2 fragment. -/
def execAssoc (h : HostHdr) (msg : HsPart) (s : State) : Host.Outcome State Fault Refusal :=
  .next (s.assocRequest h msg)

/-- ASSOC_FINISH (R411): Carries H3 fragments; the last is answered with ASSOC_ACK. -/
def execAssocFinish (h : HostHdr) (frag : Fragment) (s : State) : Host.Outcome State Fault Refusal :=
  .next (s.assocFinish h frag)

/-- ASSOC_CLOSE (R351): Ends a host association. -/
def execAssocClose (h : HostHdr) (s : State) : Host.Outcome State Fault Refusal :=
  .next (s.assocClose h)

/-- ASSOC_IDLE_EXPIRY (R351): An association with no request for ASSOC_IDLE_LIMIT slow cycles is closed. -/
def execAssocIdleExpiry (assoc : W32) (s : State) : Host.Outcome State Fault Refusal :=
  .next (s.assocIdle assoc)

/-- CTX_OPEN (R322): Opens a context after checks and edition negotiation. -/
def execCtxOpen (h : HostHdr) (payload : List Byte) (s : State) : Host.Outcome State Fault Refusal :=
  .next (s.ctxOpen h payload)

/-- CTX_CLOSE (R331): A host request to close a context, tearing it down. -/
def execCtxClose (h : HostHdr) (s : State) : Host.Outcome State Fault Refusal :=
  .next (s.ctxClose h)

/-- SUBMIT (R355): Lands one segment of a work package in memory. -/
def execSubmit (h : HostHdr) (payload arrived : List Byte) (s : State) : Host.Outcome State Fault Refusal :=
  .next (s.submit h payload arrived)

/-- PKG_ASSEMBLY_EXPIRY (R355): A package left incomplete for PKG_ASSEMBLY_LIMIT is discarded. -/
def execPkgAssemblyExpiry (ctx : W12) (ordinal : W64) (s : State) : Host.Outcome State Fault Refusal :=
  .next (s.assemblyExpiry ctx.toNat ordinal.toNat)

/-- GET (R360): Reads bytes of a result slot. -/
def execGet (h : HostHdr) (s : State) : Host.Outcome State Fault Refusal :=
  .next (s.getResult h)

/-- RELEASE (R361): Frees a READY result slot. -/
def execRelease (h : HostHdr) (s : State) : Host.Outcome State Fault Refusal :=
  .next (s.releaseSlot h)

/-- FABRIC_JOIN (R369): Binds a context to a fabric group. -/
def execFabricJoin (h : HostHdr) (payload : List Byte) (s : State) : Host.Outcome State Fault Refusal :=
  .next (s.fabricJoin h payload)

end Sys2Proof.Machine
end

