-- ==== Sys2Proof/Machine/MatrixCommands.lean ====
section
/-! DEFINITION. The matrix slots and their ends (06_matrix_array.md, 07, 09, 10). -/

namespace Sys2Proof.Machine

/-- M_STREAM (R126): Streams operands A and B into a bank in Meridian order. -/
def execMStream (h : SlotAt) (f : MFields) (s : State) : Host.Outcome State Fault Refusal :=
  .next (s.stage h (.stream false f))

/-- M_STREAM_ATTN (R215): Runs one query block through its key blocks in attention mode. -/
def execMStreamAttn (h : SlotAt) (f : MFields) (s : State) : Host.Outcome State Fault Refusal :=
  .next (s.stage h (.stream true f))

/-- M_STREAM_DONE (R129): The last beat of a stream is taken, and the stream completes and frees its tag. -/
def execMStreamDone (core : Byte) (tag : BitVec 4) (s : State) : Host.Outcome State Fault Refusal :=
  .next (s.finish core.toNat tag.toNat Op.isStream)

/-- M_DRAIN (R139): Drains a bank through the epilogue of its chain. -/
def execMDrain (h : SlotAt) (f : MFields) (s : State) : Host.Outcome State Fault Refusal :=
  .next (s.stage h (.drain false f))

/-- M_DRAIN_ATTN (R218): Drains bank B divided by the running sum and writes each row's statistic. -/
def execMDrainAttn (h : SlotAt) (f : MFields) (s : State) : Host.Outcome State Fault Refusal :=
  .next (s.stage h (.drain true f))

/-- M_DRAIN_DONE (R140): A drain writes its last row and histogram and frees its tag. -/
def execMDrainDone (core : Byte) (tag : BitVec 4) (s : State) : Host.Outcome State Fault Refusal :=
  .next (s.finish core.toNat tag.toNat Op.isDrain)

/-- M_WAIT (R65): The bundle waits at issue until the named tag is free. -/
def execMWait (h : SlotAt) (f : MFields) (s : State) : Host.Outcome State Fault Refusal :=
  .next (s.stage h (.mWait f))

/-- M_GSTREAM (R151): Streams into a group of active columns with a group size of 1. -/
def execMGstream (h : SlotAt) (f : GFields) (s : State) : Host.Outcome State Fault Refusal :=
  .next (s.stage h (.gstream f))

end Sys2Proof.Machine
end

