-- ==== Sys2Proof/Machine/MediaCommands.lean ====
section
/-! DEFINITION. The media engines (18_media.md). -/

namespace Sys2Proof.Machine

/-- MEDIA_OPEN (R380): A media job that opens a stream context. (DESIGN CHOICE: log entry 59) -/
def execMediaOpen (h : SlotAt) (f : XFields) (s : State) : Host.Outcome State Fault Refusal :=
  .next (s.stage h (.media f))

/-- MEDIA_FRAME (R381): A media job that decodes or encodes one frame. -/
def execMediaFrame (h : SlotAt) (f : XFields) (s : State) : Host.Outcome State Fault Refusal :=
  .next (s.stage h (.media f))

/-- MEDIA_CLOSE (R384): A media job that closes a stream context. -/
def execMediaClose (h : SlotAt) (f : XFields) (s : State) : Host.Outcome State Fault Refusal :=
  .next (s.stage h (.media f))

/-- MEDIA_JOB_START (R383): An engine takes the next queued job, switching stream state if needed. -/
def execMediaJobStart (engine : BitVec 2) (s : State) : Host.Outcome State Fault Refusal :=
  .next ((s.startMedia engine.toNat).pumpAll)

/-- MEDIA_JOB_DONE (R382): A media job completes, rewrites its descriptor and frees the tag. -/
def execMediaJobDone (engine : BitVec 2) (s : State) : Host.Outcome State Fault Refusal :=
  .next ((s.endMedia engine.toNat).pumpAll)

end Sys2Proof.Machine
end

