-- ==== Sys2Proof/Machine/Serving.lean ====
section
/-! DEFINITION. What reaches the always-on controller without a session, and what has waited while the nonvolatile store
was written (02_dictionary.md R28, R43; 19_security_boot.md R400, R401, R411). -/

namespace Sys2Proof.Machine

/-- `DISCOVER` is answered (R43): the identity record in plain text. (DESIGN CHOICE: log entry 73) -/
def State.answerDiscover (s : State) (path : MgmtPath) : State :=
  let v := s.recordBytes Session.plain 0x0000
  v.1.sayOn path 0 0 { type := 0x80, status := stOk, payload := v.2 }

/-- A message that has reached the controller is served. -/
def State.serveMessage (s : State) : MgmtMsg → State
  | .request q => s.serve q
  | .discover path => s.answerDiscover path
  | .openPart path session seq msg => s.openRequest path session seq msg
  | .finishPart path session seq frag => s.openFinish path session seq frag

/-- A message without a session arrives: it is taken in its turn (R28, R41). (DESIGN CHOICE: log entry 65) -/
def State.takeMessage (s : State) (path : MgmtPath) (m : MgmtMsg) : State :=
  if !s.alive then s
  else if path = .inband ∧ s.inbandShut then s.dropInband
  else if s.storing then { s with mgmtQ := s.mgmtQ ++ [m] }
  else s.serveMessage m

/-- Messages that have waited are served in order, until one waits for a batch of its own. (DESIGN CHOICE: log entry 65) -/
def State.serveWaiting (s : State) : State :=
  s.mgmtQ.foldl (fun s m =>
    if s.storing then { s with mgmtQ := s.mgmtQ ++ [m] } else s.serveMessage m) { s with mgmtQ := [] }

/-- The next batch is checked and starts, or is deferred with its whole write (R400). (DESIGN CHOICE: log entry 68)
(DESIGN CHOICE: log entry 16) -/
def State.startBatch (s : State) (x : HoldReading) : State :=
  match s.nvQ with
  | [] => s
  | b :: rest =>
    if s.nvRun.isSome || !s.supply.vaon || s.supply.inputLost || !readingOk x then s
    else
      let ok := freeboardOk x b.bytes (s.entry 0x9070 3)
      let s := s.measure x
      if ok then { s with nvRun := some b, nvQ := rest }
      else ((({ s with nvQ := [] }.bump 0x9070 5 1).event 0x9001 1 1).defer b.work).serveWaiting

/-- A started batch completes; with the last one of a write, the write takes effect and is answered (R401).
(DESIGN CHOICE: log entry 65) -/
def State.endBatch (s : State) : State :=
  match s.nvRun with
  | none => s
  | some b =>
    let s := { s with nvRun := none }.bump 0x9070 4 1
    if s.nvQ.isEmpty then (s.commit b.work).serveWaiting else s

/-- With the input lost no further batch starts: a write whose last batch has not started takes no effect and answers as a
deferred one (R401). (DESIGN CHOICE: log entry 68) -/
def State.stopWrites (s : State) : State :=
  match s.nvQ with
  | [] => s
  | b :: _ =>
    let s := { s with nvQ := [], nvRun := s.nvRun.map (fun (r : NvBatch) => { r with work := .stopped }) }
    let s := s.defer b.work
    if s.nvRun.isSome then s else s.serveWaiting

end Sys2Proof.Machine
end

