-- ==== Sys2Proof/Machine/MgmtCommands.lean ====
section
/-! DEFINITION. The management requests, session expiries and events (02_dictionary.md, 19_security_boot.md R411). -/

namespace Sys2Proof.Machine

/-- DISCOVER (R43): A Tsusen DISCOVER datagram is answered with the 0x0000 identity record in plain text. -/
def execDiscover (path : MgmtPath) (s : State) : Host.Outcome State Fault Refusal :=
  .next (s.takeMessage path (.discover path))

/-- OPEN (R411): A Tsusen OPEN request carries a fragment of handshake message H1 or reads a fragment of H2. -/
def execTsusenOpen (path : MgmtPath) (session seq : W16) (msg : HsPart) (s : State) : Host.Outcome State Fault Refusal :=
  .next (s.takeMessage path (.openPart path session seq msg))

/-- OPEN_FINISH (R411): A Tsusen OPEN_FINISH request carries a fragment of H3; the last fragment completes the handshake and is answered with OPEN_ACK. -/
def execOpenFinish (path : MgmtPath) (session seq : W16) (frag : Fragment) (s : State) : Host.Outcome State Fault Refusal :=
  .next (s.takeMessage path (.finishPart path session seq frag))

/-- READ (R437): A Tsusen READ of one subindex is checked in order and answered with its value or a status code. -/
def execRead (h : Hdr) (index : W16) (sub : Byte) (s : State) : Host.Outcome State Fault Refusal :=
  .next (s.request h (.read index.toNat sub.toNat))

/-- WRITE (R437): A Tsusen WRITE of one subindex is checked in order and stores the value; this row also covers writes to entries that have no row of their own. -/
def execWrite (h : Hdr) (index : W16) (sub : Byte) (data : List Byte) (s : State) : Host.Outcome State Fault Refusal :=
  .next (s.request h (.write index.toNat sub.toNat data))

/-- SEG_READ (R35): Reads one segment of a DOMAIN entry, checked against its generation. -/
def execSegRead (h : Hdr) (index : W16) (sub : Byte) (offset : W32) (length : W16) (gen : W32) (s : State) : Host.Outcome State Fault Refusal :=
  .next (s.request h (.segRead index.toNat sub.toNat offset.toNat length.toNat gen))

/-- SEG_WRITE (R36): Writes one segment of a DOMAIN entry; a LAST segment replaces the content and advances the generation. -/
def execSegWrite (h : Hdr) (index : W16) (sub : Byte) (offset : BitVec 31) (last : Bool) (data : List Byte) (s : State) : Host.Outcome State Fault Refusal :=
  .next (s.request h (.segWrite index.toNat sub.toNat offset.toNat last data))

/-- SUBSCRIBE (R438): Asks for NOTIFY on one status record, or cancels the subscription. -/
def execSubscribe (h : Hdr) (index : W16) (on : Byte) (s : State) : Host.Outcome State Fault Refusal :=
  .next (s.request h (.subscribe index.toNat (on != 0)))

/-- RECORD_READ (R439): Reads every subindex of a RECORD as it stood at the end of one slow cycle. -/
def execRecordRead (h : Hdr) (index : W16) (s : State) : Host.Outcome State Fault Refusal :=
  .next (s.request h (.recordRead index.toNat))

/-- BATCH_WRITE (R440): Checks up to 32 items and writes them atomically in payload order. -/
def execBatchWrite (h : Hdr) (payload : List Byte) (s : State) : Host.Outcome State Fault Refusal :=
  .next (s.request h (.batch payload))

/-- CLOSE (R43): Ends a Tsusen session and its subscriptions. -/
def execTsusenClose (h : Hdr) (s : State) : Host.Outcome State Fault Refusal :=
  .next (s.request h .close)

/-- SESSION_IDLE_EXPIRY (R46): A session with no request for SESSION_IDLE_LIMIT slow cycles is closed and its subscriptions end. -/
def execSessionIdleExpiry (session : W16) (s : State) : Host.Outcome State Fault Refusal :=
  .next (s.endSession session.toNat)

/-- SEG_WRITE_GAP_EXPIRY (R36): A gap of more than SESSION_IDLE_LIMIT slow cycles between segments discards the SEG_WRITE sequence. -/
def execSegWriteGapExpiry (session : W16) (s : State) : Host.Outcome State Fault Refusal :=
  .next (s.setSeg session.toNat none)

/-- EVENT_POST (R30): Events that arrived from fast domains set their status flags and advance their counters at a slow-cycle edge, driving ALERT_N. -/
def execEventPost (s : State) : Host.Outcome State Fault Refusal :=
  .next s.postAll

/-- FLAGS_CLEAR (R31): An RWC write to FLAGS clears each bit written 1; a hardware set in the same slow cycle wins. -/
def execFlagsClear (h : Hdr) (record : W16) (mask : W32) (s : State) : Host.Outcome State Fault Refusal :=
  .next (s.request h (.write record.toNat 1 (toBytes 4 mask.toNat)))

end Sys2Proof.Machine
end

