-- ==== Sys2Proof/Machine/Ports.lean ====
section
/-! DEFINITION. Ethernet ports and the management link (17_ports_transport.md R344 to R349; 02_dictionary.md R41, R42). -/

namespace Sys2Proof.Machine

/-- The index of offset `i` of a port's block (R376). -/
def portIndex (q i : Nat) : Nat := 0x6100 + 16 * q + i

/-! ### Links (R344, R345) -/

/-- The modes that a mask allows, in the order in which a link prefers them. -/
def modesOf (mask : Nat) : List Nat := [1, 2, 3].filter (fun m => mask.testBit (m - 1))

/-- Negotiation and training complete: the highest common mode, as far as the port negotiates and there is one. -/
def State.linkUp (s : State) (q : Nat) (peer : Nat) : State :=
  let x := s.port q
  if 5 ≤ q ∨ x.linkState ≠ 1 then s
  else match modesOf (s.entry (portIndex q 0) 3 &&& peer) with
    | [] => s
    | m :: _ =>
      let s := s.setPort q { x with
        linkState := if x.channels.isEmpty then 3 else 4, mode := m, kind := s.entry (portIndex q 0) 4 }
      if m = 1 then s else s.event (portIndex q 1) 1 1

/-- A link that is up drops, and negotiation starts again. -/
def State.linkLost (s : State) (q : Nat) : State :=
  let x := s.port q
  if x.linkState < 3 then s
  else (s.setPort q { x with linkState := 1, mode := 0 }).event (portIndex q 1) 0 1

/-- Negotiation or training fails: the port waits. -/
def State.negotiationFailed (s : State) (q : Nat) : State :=
  let x := s.port q
  if x.linkState = 1 ∨ x.linkState = 2 then s.setPort q { x with linkState := 0, retryWait := true } else s

/-- The wait of `AN_RETRY` is over. -/
def State.anRetry (s : State) (q : Nat) : State :=
  let x := s.port q
  if x.retryWait then s.setPort q { x with linkState := 1, retryWait := false } else s

/-! ### Frames (R346 to R349) -/

/-- One frame dropped under R346. -/
def State.dropFrame (s : State) (q : Nat) : State := s.bump (portIndex q 2) 7 1

/-- A packet number against a channel's window (R349): the channel after it is accepted, or none.
(DESIGN CHOICE: log entry 77) -/
def Channel.acceptPn (c : Channel) (window pn : Nat) : Option Channel :=
  if c.highest < pn then
    some { c with highest := pn, seen := (c.seen.filter (fun n => pn ≤ n + window)) ++ [pn] }
  else if c.highest ≤ pn + window ∧ !c.seen.contains pn then some { c with seen := c.seen ++ [pn] }
  else none

/-- The channel that a frame is checked against: the first frame under a new key begins that key's numbers (R349).
(DESIGN CHOICE: log entry 77) -/
def Channel.under (c : Channel) (newKey : Bool) : Channel :=
  if c.oldKey && newKey then { c with oldKey := false, highest := 0, seen := [] } else c

/-- What port 0 itself does with an accepted frame (R41, R346). -/
def State.frameInner (s : State) (q : Nat) : FrameInner → State
  | .arpRequest target sender =>
    if q = 0 ∧ target.toNat = s.entry 0x6000 1 then s.send (.arpReply sender) else s
  | .neighbourSolicit target sender =>
    if q = 0 ∧ target.toNat = s.entry 0x6000 2 then s.send (.neighbourAdvert sender) else s
  | .ipFragment => s.dropFrame q
  | .tsusen => if q = 0 ∧ s.inbandShut then s.dropInband else s
  | .other => s

/-- A frame that has passed every check is counted as accepted, an IP fragment as dropped. -/
def State.acceptFrame (s : State) (q len : Nat) (inner : FrameInner) : State :=
  let s := s.frameInner q inner
  if inner = .ipFragment then s else (s.bump (portIndex q 2) 2 1).bump (portIndex q 2) 4 len

/-- A frame under MACsec. (DESIGN CHOICE: log entry 77) -/
def State.macsecFrame (s : State) (q len ch : Nat) (pn : W64) (icvOk newKey : Bool) (inner : FrameInner) : State :=
  let x := s.port q
  match x.channels.find? (fun (c : Channel) => c.num == ch) with
  | none => s.event (portIndex q 1) 4 1
  | some c =>
    if !icvOk then s.event (portIndex q 1) 4 1
    else match (c.under newKey).acceptPn (s.entry 0x6002 1) pn.toNat with
      | none => s.event (portIndex q 1) 5 1
      | some d =>
        (s.setPort q { x with channels := x.channels.map (fun (y : Channel) => if y.num = ch then d else y) }).acceptFrame
          q len inner

/-- A frame arrives at a port whose link is up (R346). -/
def State.frameReceive (s : State) (q : Nat) (f : Frame) : State :=
  if (s.port q).linkState < 3 then s
  else
    let s := (s.bump (portIndex q 2) 5 f.fecCorrected).event (portIndex q 1) 2 f.fecBad
    if !f.fcsOk then (s.dropFrame q).event (portIndex q 1) 3 1
    else if 9216 < f.length ∨ f.vlan then s.dropFrame q
    else match f.kind with
      | .unprotected => s.event (portIndex q 1) 6 1
      | .handshake => (s.bump (portIndex q 2) 2 1).bump (portIndex q 2) 4 f.length
      | .macsec ch pn icvOk newKey inner => s.macsecFrame q f.length ch.toNat pn icvOk newKey inner

/-- A channel's transmit packet number has reached `REKEY_PN`: its handshake runs again (R349). -/
def State.rekey (s : State) (q ch : Nat) : State :=
  let x := s.port q
  if x.channels.any (fun (c : Channel) => c.num == ch) then
    (s.setPort q { x with channels := x.channels.map (fun (c : Channel) => if c.num = ch then { c with rekeying := true } else c) }).event
      (portIndex q 1) 7 1
  else s

/-! ### The management link (R41, R42) -/

def State.mgmtLink (s : State) (up : Bool) : State := if s.supply.vaon then s.setEntry 0x1001 3 up.toNat else s

/-- A beacon: a newly written node ID takes effect. -/
def State.beacon (s : State) : State :=
  if s.supply.vaon then { s with plcaNode := BitVec.ofNat 8 (s.entry 0x1001 1) } else s

end Sys2Proof.Machine
end

