-- ==== Sys2Proof/Machine/PortCommands.lean ====
section
/-! DEFINITION. Ports, MACsec and handshakes in frames (17_ports_transport.md, 19_security_boot.md). -/

namespace Sys2Proof.Machine

/-- FRAME_RECEIVE (R346): A port checks an incoming frame, MACsec included, and accepts or drops it; ARP and neighbour replies are sent here. -/
def execFrameReceive (port : BitVec 3) (frame : Frame) (s : State) : Host.Outcome State Fault Refusal :=
  .next (s.frameReceive port.toNat frame)

/-- LINK_UP (R345): Negotiation and training complete on a port at the highest common mode. -/
def execLinkUp (port : BitVec 3) (peerModes : Byte) (s : State) : Host.Outcome State Fault Refusal :=
  .next (s.linkUp port.toNat peerModes.toNat)

/-- LINK_LOST (R345): A port link drops and negotiation restarts. -/
def execLinkLost (port : BitVec 3) (s : State) : Host.Outcome State Fault Refusal :=
  .next (s.linkLost port.toNat)

/-- AN_RETRY_EXPIRY (R345): After a failed negotiation, the port starts again when AN_RETRY expires. -/
def execAnRetryExpiry (port : BitVec 3) (s : State) : Host.Outcome State Fault Refusal :=
  .next (s.anRetry port.toNat)

/-- REKEY (R349): A channel's transmit packet number reaches REKEY_PN, and the handshake runs again. -/
def execRekey (port : BitVec 3) (channel : Byte) (s : State) : Host.Outcome State Fault Refusal :=
  .next (s.rekey port.toNat channel.toNat)

/-- HS_H1 (R409): Receives a fragment of handshake message H1 on a MACsec or fabric path. -/
def execHsH1 (path : HsPath) (hsId : W16) (frag : Fragment) (s : State) : Host.Outcome State Fault Refusal :=
  .next (s.frameH1 path hsId frag)

/-- HS_H3 (R409): Receives a fragment of H3; a complete H3 derives the session keys. -/
def execHsH3 (path : HsPath) (hsId : W16) (frag : Fragment) (s : State) : Host.Outcome State Fault Refusal :=
  .next (s.frameH3 path hsId frag)

/-- HS_H2_REQUEST (R411): An initiator asks again for a missed fragment of H2. -/
def execHsH2Request (path : HsPath) (hsId : W16) (offset : W32) (s : State) : Host.Outcome State Fault Refusal :=
  .next (s.frameH2 path hsId offset.toNat)

/-- H2_SIGNED (R410): The security block finishes signing H2, which can then be sent. -/
def execH2Signed (s : State) : Host.Outcome State Fault Refusal :=
  .next s.signNext

/-- HANDSHAKE_IDLE_EXPIRY (R411): A handshake left incomplete for its path's idle limit is abandoned. -/
def execHandshakeIdleExpiry (path : HsPath) (hsId : W32) (s : State) : Host.Outcome State Fault Refusal :=
  .next (s.dropHandshake path hsId)

/-- MGMT_LINK_CHANGE (R41): The 10BASE-T1S management PHY gains or loses link, which changes MGMT_LINK_UP. -/
def execMgmtLinkChange (up : Bool) (s : State) : Host.Outcome State Fault Refusal :=
  .next (s.mgmtLink up)

/-- PLCA_BEACON (R42): A PLCA beacon on the management segment, at which a newly written node ID takes effect. -/
def execPlcaBeacon (s : State) : Host.Outcome State Fault Refusal :=
  .next s.beacon

/-- NEGOTIATION_FAILED (R345): Auto-negotiation or link training fails on a port, and the AN_RETRY wait starts. -/
def execNegotiationFailed (port : BitVec 3) (s : State) : Host.Outcome State Fault Refusal :=
  .next (s.negotiationFailed port.toNat)

end Sys2Proof.Machine
end

