-- ==== Sys2Proof/Machine/Power.lean ====
section
/-! DEFINITION. Temperature, refresh and throttling of memory (15_memory.md R306, R312 to R314), the power manager's
governor, power states, wake-up admission, trips, input loss (20_power_package.md R420 to R430), and what a reset keeps. -/

namespace Sys2Proof.Machine

/-! ### Temperatures as exact values -/

def atLeast (x : W32) (n : Nat) : Bool := (Fv.ofInt n 0).le (fv32 x)
def below (x : W32) (n : Int) : Bool := (fv32 x).lt (Fv.ofInt n 0)

/-- The throttle level a temperature calls for under a flood mark (R314). -/
def floodLevel (t : Fv) (mark : Nat) : Nat :=
  match t with
  | .nan => 0
  | .inf neg => if neg then 0 else 7
  | _ =>
    let k := ((t.add (Fv.ofInt (-(mark : Int)) 0)).scale (-1)).floor
    if k < 0 then 0 else min 7 (1 + k.toNat)

/-! ### Rails off (R428, R430) -/

/-- Errors that stay with the cells when their content is lost. -/
def hardOnly (t : Tbl WordError) : Tbl WordError :=
  t.filterMap (fun x => if x.2.hard = [] then none else some (x.1, { x.2 with soft := [] }))

/-- Entries that a site keeps only under power: its throttle level and level in force, and the temperature, throttle
level and refresh mode of its stack, which read 0 while it is off (R319). (DESIGN CHOICE: log entry 78) -/
def underPower (key : Nat) : Bool :=
  let ix := key / 256
  let sub := key % 256
  (0x2100 ≤ ix && ix < 0x2200 && ix % 16 == 0 && (sub == 5 || sub == 1))
    || (0x3300 ≤ ix && ix < 0x3310 && (sub == 1 || sub == 3 || sub == 4))

/-- Every rail but VAON is off: contexts, cores, memory and everything of the compute and I/O dies are lost.
(DESIGN CHOICE: log entry 13) (DESIGN CHOICE: log entry 79) -/
def State.railsOff (s : State) : State :=
  { s with
    supply := { s.supply with rails := false }
    cores := [], ctxs := [], polders := [], mem := [], check := [], memErr := hardOnly s.memErr, counters := [], ctrQ := [],
    fabricOps := [], fabricPkts := [], links := [], engines := [], ports := [], assocs := [], wakeQ := [],
    wakeHeld := [], startQ := [],
    handshakes := s.handshakes.filter (fun h => h.path == .tsusen)
    signQ := s.signQ.filter (fun q => q.1 == .tsusen)
    dict := s.dict.filter (fun x => !underPower x.1) }

/-- A trip: the site and the sensor are recorded, and kept (R428). (DESIGN CHOICE: log entry 86) -/
def State.trip (s : State) (site sensor : Nat) : State :=
  if s.supply.tripped then s
  else
    let s := s.railsOff
    let s := (s.setKept 0x2000 0xC ((s.entry 0x2000 0xC + 1) % 2 ^ 32)).setKept 0x2000 0xD (256 * site + sensor)
    { (s.ownWrite State.storeKept).1 with thermTripN := true, supply := { s.supply with tripped := true } }

/-! ### Memory (R306, R312 to R314) -/

/-- One refresh of a channel: 94 memory cycles. (DESIGN CHOICE: log entry 78) -/
def State.refreshChannel (s : State) (site ch : Nat) : State :=
  if s.memPower site = 0 then s else s.bump (0x3100 + 16 * site + ch) 0xB 94

/-- A stack's temperature: the highest of its dies. -/
def hottest (ds : List W32) : W32 := ds.foldl (fun a b => if lt32 a b then b else a) (ds.headD 0)

/-- Doubled refresh is entered or left. -/
def State.setRefresh (s : State) (site : Nat) (t : W32) : State :=
  let ix := 0x3300 + site
  if atLeast t 85 then (if s.entry ix 4 = 1 then s else (s.setEntry ix 4 1).event (0x3200 + site) 3 1)
  else if below t 83 then s.setEntry ix 4 0
  else s

/-- The throttle level rises at once and falls by one. -/
def State.setThrottle (s : State) (site : Nat) (t : W32) : State :=
  let ix := 0x3300 + site
  let mark := s.entry 0x3000 1
  let l := s.entry ix 3
  let target := floodLevel (fv32 t) mark
  let later := floodLevel ((fv32 t).add (Fv.ofInt 1 0)) mark
  let new := if l < target then target else if later < l then l - 1 else l
  let s := s.setEntry ix 3 new
  let s := if new = 0 then s else (List.range 16).foldl (fun s c => s.mark (0x3100 + 16 * site + c) 0xC) s
  if l = 0 ∧ 0 < new then s.event (0x3200 + site) 4 1 else s

/-- A reading of a powered stack. (DESIGN CHOICE: log entry 78) -/
def State.tempReading (s : State) (site : Nat) (ds : List W32) : State :=
  if s.memPower site = 0 then s
  else
    let t := hottest ds
    let ix := 0x3300 + site
    let peak := BitVec.ofNat 32 (s.entry ix 2)
    let s := s.setEntry ix 1 t.toNat
    let s := if lt32 peak t then s.setEntry ix 2 t.toNat else s
    let s := (s.setRefresh site t).setThrottle site t
    if atLeast t 105 then s.trip site 1 else s

/-! ### The governor (R420 to R422) -/

def State.siteOn (s : State) (site : Nat) : Bool := s.entry (siteIndex site) 5 == 0

/-- A site's own readings. -/
def State.siteReadings (s : State) (r : PowerReading) (site : Nat) : State :=
  let ix := siteIndex site
  let put (s : State) (sub : Nat) (v : Option Nat) : State := match v with
    | some v => s.setEntry ix sub v
    | none => s
  put (put (put s 3 ((r.junction[site]?).map BitVec.toNat)) 4 ((r.sitePower[site]?).map BitVec.toNat)) 7
    ((r.vcore[site]?).map BitVec.toNat)

/-- A junction floor after a reading (R421). (DESIGN CHOICE: log entry 78) -/
def nextFloor (floor limit : Nat) (t : W32) : Nat :=
  if atLeast t limit then min 16 (floor + 1) else if below t ((limit : Int) - 3) then floor - 1 else floor

/-- A site's floor, its event and its step. (DESIGN CHOICE: log entry 78) -/
def State.siteStep (s : State) (r : PowerReading) (device site : Nat) : State :=
  let ix := siteIndex site
  let floor := s.entry ix 2
  let new := match r.junction[site]? with
    | some t => nextFloor floor (s.entry 0x2000 6) t
    | none => floor
  let s := s.setEntry ix 2 new
  let s := if floor = 0 ∧ 0 < new then s.event 0x2001 1 1 else s
  let k := max device new
  if s.siteOn site then (if k = 0 then s else s.mark ix 6).setEntry ix 1 k else s

/-- An evaluation of the power manager. (DESIGN CHOICE: log entry 78) -/
def State.evaluate (s : State) (r : PowerReading) : State :=
  if !s.alive then s
  else
    let s := ((s.setEntry 0x2000 2 r.power.toNat).setEntry 0x2000 3 r.voltage.toNat).setEntry 0x2000 4 r.current.toNat
    let s := (List.range 16).foldl (fun s i => s.siteReadings r i) s
    let limit := s.entry 0x2000 1
    let beyond := (Fv.ofInt limit 0).lt (fv32 r.power)
    let on := (List.range 16).filter s.siteOn
    let low := if below r.power ((limit : Int) - 24) then min 10 (s.evalsBelow + 1) else 0
    let atMax := if !on.isEmpty && on.all (fun i => s.entry (siteIndex i) 1 == 16) then min 10 (s.evalsAtMax + 1) else 0
    let k := s.entry 0x2000 5
    let k' := if beyond then (if on.any (fun i => s.entry (siteIndex i) 1 < 16) then min 16 (k + 1) else k)
      else if low = 10 then k - 1 else k
    let s := { s.setEntry 0x2000 5 k' with evalsBelow := low, evalsAtMax := atMax }
    let s := (List.range 16).foldl (fun s i => s.siteStep r k' i) s
    let s := if k = 0 ∧ 0 < k' then s.event 0x2001 0 1 else s
    let s := if atMax = 10 ∧ beyond then s.event 0x2001 2 1 else s
    match (List.range 16).find? (fun i => (r.junction[i]?).any (fun t => atLeast t 115)) with
    | some i => s.trip i 0
    | none => s

/-! ### Power states and wake-up admission (R424 to R427) -/

/-- Whether the scheduler has chosen a context that runs on a core. -/
def State.wanted (s : State) (core : Nat) : Bool := s.ctxs.any (fun x => x.2.granted && x.2.cores.contains core)

/-- A core reaches RUN, or IDLE where no context waits for it any more; contexts that waited for it go on. -/
def State.reachRun (s : State) (core : Nat) : State :=
  let s := s.onCore core (fun k => { k with power := if s.wanted core then 0 else 1, waking := false })
  let s := if (s.core core).power = 0 then s.mark (coreIndex core 4) 1 else s
  (s.ctxs.filter (fun x => x.2.granted && x.2.cores.contains core)).foldl (fun s x => s.afterWake x.1) s

/-- One wake-up is admitted. (DESIGN CHOICE: log entry 57) -/
def State.admitCore (s : State) (core : Nat) : State :=
  let s := s.bump 0x2000 0xB 1
  match (s.core core).power with
  | 1 => s.reachRun core
  | 2 => s.onCore core (fun k => { k with waking := true })
  | _ => s

/-- One window: at most four wake-ups; held requests take the places that fall free. (DESIGN CHOICE: log entry 57) -/
def State.wakeWindow (s : State) : State :=
  let now := s.wakeQ.take 4
  let q := s.wakeQ.drop 4
  let room := 256 - q.length
  let s := { s with wakeQ := q ++ s.wakeHeld.take room, wakeHeld := s.wakeHeld.drop room }
  now.foldl State.admitCore s

/-- A core admitted from NAP reaches RUN. -/
def State.napWakeDone (s : State) (core : Nat) : State := if (s.core core).waking then s.reachRun core else s

/-- A site start is admitted (R426). -/
def State.siteStart (s : State) : State :=
  match s.startQ with
  | [] => s
  | x :: rest => { s with startQ := rest }.setEntry (siteIndex x) 5 1

/-- A started site is settled: its cores ask for admission from IDLE. -/
def State.siteSettled (s : State) (site : Nat) : State :=
  let ix := siteIndex site
  if s.entry ix 5 ≠ 1 then s
  else
    let k := max (s.entry 0x2000 5) (s.entry ix 2)
    let s := ((if k = 0 then s else s.mark ix 6).setEntry ix 5 0).setEntry ix 1 k
    (s.coresOf (2 ^ site)).foldl (fun s n => (s.onCore n (fun k => { k with power := 1 })).queueWake n) s

/-- The bound of a context's wake-up has passed (R427). -/
def State.wakeTimeout (s : State) (ctx : Nat) : State :=
  let c := s.ctx ctx
  if c.granted && (c.state == 2 || c.state == 5) && !s.allRun c then
    (s.event 0x2001 5 1).faultContext ctx faultWake 0
  else s

/-- A core idle for `NAP_DELAY` enters NAP. -/
def State.napEntry (s : State) (core : Nat) : State :=
  if (s.core core).power = 1 ∧ s.coreEnabled core ∧ !s.wakeQ.contains core ∧ !s.wakeHeld.contains core then
    s.onCore core (fun k => { k with power := 2 })
  else s

/-- A site whose cores have napped enters SLEEP, or its idle contexts are saved first (R424).
(DESIGN CHOICE: log entry 57) -/
def State.sleepEntry (s : State) (site : Nat) : State :=
  let cs := s.coresOf (2 ^ site)
  let here := s.ctxs.filter (fun x => x.2.state != 0 && x.2.sites.getLsbD site)
  if !(s.siteOn site && cs.all (fun n => (s.core n).power == 2 && !(s.core n).waking)
      && !here.any (fun x => x.2.waits || x.2.granted)) then s
  else
    let stand := here.filter (fun x => x.2.resident)
    if stand.isEmpty then
      cs.foldl (fun s n => s.onCore n (fun k => { k with power := 3 })) (s.setEntry (siteIndex site) 5 2)
    else if stand.all (fun x => x.2.preemptible) then stand.foldl (fun s x => s.preempt x.1) s
    else s

/-! ### Reset and supply (R26, R429, R430) -/

/-- DOMAINs that the nonvolatile store holds: `FABRIC_PEERS`, `FABRIC_CREDENTIAL`, `FW_IMAGE`.
(DESIGN CHOICE: log entry 79) -/
def keptDomain (key : Nat) : Bool := storedDomain key || key == entryKey 0x9010 0

/-- Everything after a reset: defaults, but for the kept entries, the MRAM, the part itself, and the model's own
counters and record of outputs. -/
def State.afterReset (s : State) (supply : Supply) : State :=
  { State.reset with
    part := s.part, supply := supply, memErr := hardOnly s.memErr, kept := s.kept,
    domains := s.domains.filter (fun d => keptDomain d.1), slotA := s.slotA, slotB := s.slotB, rollA := s.rollA,
    rollB := s.rollB, keptA := s.keptA, keptB := s.keptB, ownerA := s.ownerA, ownerB := s.ownerB, pending := s.pending, tx := s.tx, free := s.free, nextId := s.nextId, readyCount := s.readyCount }

/-- The reset takes effect: rails are on again as the supply allows. (DESIGN CHOICE: log entry 79) -/
def State.doReset (s : State) : State :=
  s.afterReset { s.supply with rails := s.supply.vaon && s.supply.pwrok, tripped := false, inReset := true,
                               resetAfterBatch := false, booted := false, inputLost := s.supply.inputLost && !s.supply.pwrok }

/-- `RESET_N`: at once, or when the batch in progress has completed. (DESIGN CHOICE: log entry 79) -/
def State.resetPin (s : State) : State :=
  if s.nvRun.isSome then { s with supply := { s.supply with resetAfterBatch := true } } else s.doReset

/-- A started batch completes, and with it a reset that waited. What would be sent with VAON down is not.
(DESIGN CHOICE: log entry 79) -/
def State.batchDone (s : State) : State :=
  let t := s.endBatch
  let t := if s.supply.vaon then t else { t with tx := s.tx }
  if s.nvRun.isSome && s.supply.resetAfterBatch then t.doReset else t

/-- VIN48 is applied: VAON comes up, VHOLD charges; `RESET_N` and `PWROK` are low. -/
def State.vaonUp (s : State) : State :=
  if s.supply.vaon then s
  else s.afterReset { vaon := true, vhold := true, pwrok := false, rails := false, inputLost := false, tripped := false,
                      inReset := true, resetAfterBatch := false, booted := false }

/-- `PWROK` is asserted: the 6 V bus and VH12 start. A trip keeps the rails off. -/
def State.powerGood (s : State) : State :=
  if s.supply.vaon && !s.supply.pwrok then
    { s with supply := { s.supply with pwrok := true, rails := !s.supply.tripped, inputLost := false } }
  else s

/-- Input loss: no further batch starts (R401, R430); with VIN48 below 30 V VAON goes too, once a batch in progress has completed from VHOLD. -/
def State.inputLoss (s : State) (vaonOff : Bool) : State :=
  if !s.supply.vaon then s
  else
    let s := (s.event 0x2001 4 1).railsOff
    let s := { s with supply := { s.supply with pwrok := false, inputLost := true } }.stopWrites
    if !vaonOff then s
    else
      let s := { s with supply := { s.supply with vaon := false, vhold := false, tripped := false } }
      if s.nvRun.isSome then { s with supply := { s.supply with resetAfterBatch := true } } else s.doReset

/-- VIN48 lies between 38 V and 40 V. -/
def State.inputLow (s : State) : State := if s.supply.vaon then s.event 0x2001 3 1 else s

end Sys2Proof.Machine
end

