-- ==== Sys2Proof/Machine/PowerCommands.lean ====
section
/-! DEFINITION. Memory upkeep, power and supply (15_memory.md, 20_power_package.md). -/

namespace Sys2Proof.Machine

/-- REFRESH (R306): A channel performs a refresh at its interval. -/
def execRefresh (site channel : BitVec 4) (s : State) : Host.Outcome State Fault Refusal :=
  .next (s.refreshChannel site.toNat channel.toNat)

/-- TEMP_READING (R312): A stack temperature is read every 10 µs, and the controllers act on it. -/
def execTempReading (site : BitVec 4) (die0 die1 die2 die3 : W32) (s : State) : Host.Outcome State Fault Refusal :=
  .next (s.tempReading site.toNat [die0, die1, die2, die3])

/-- POWER_EVALUATION (R420): Every 40 slow cycles the power manager averages input power and adjusts the clock step. -/
def execPowerEvaluation (reading : PowerReading) (s : State) : Host.Outcome State Fault Refusal :=
  .next (s.evaluate reading)

/-- WAKE_WINDOW (R425): Each 160 ns window admits up to four queued core wake-ups. -/
def execWakeWindow (s : State) : Host.Outcome State Fault Refusal :=
  .next s.wakeWindow

/-- SITE_START (R426): A site start is admitted, one per 2 µs. -/
def execSiteStart (s : State) : Host.Outcome State Fault Refusal :=
  .next s.siteStart

/-- SITE_SETTLED (R426): A started site's PLL locks and its VCORE settles, and its cores queue as wake-ups. -/
def execSiteSettled (site : BitVec 4) (s : State) : Host.Outcome State Fault Refusal :=
  .next (s.siteSettled site.toNat)

/-- WAKE_TIMEOUT (R427): A context whose cores are not all in RUN within WAKE_LIMIT faults and is torn down. -/
def execWakeTimeout (ctx : W12) (s : State) : Host.Outcome State Fault Refusal :=
  .next (s.wakeTimeout ctx.toNat)

/-- NAP_ENTRY (R424): A core idle for NAP_DELAY enters NAP. -/
def execNapEntry (core : Byte) (s : State) : Host.Outcome State Fault Refusal :=
  .next (s.napEntry core.toNat)

/-- SLEEP_ENTRY (R424): A site whose cores have napped for SLEEP_DELAY enters SLEEP. -/
def execSleepEntry (site : BitVec 4) (s : State) : Host.Outcome State Fault Refusal :=
  .next (s.sleepEntry site.toNat)

/-- PWROK (R429): PWROK is asserted, and the 6 V bus and VH12 start. -/
def execPwrok (s : State) : Host.Outcome State Fault Refusal :=
  .next s.powerGood

/-- INPUT_LOSS (R430): PWROK goes low or VIN48 drops, and the rails other than VAON turn off. -/
def execInputLoss (vaonOff : Bool) (s : State) : Host.Outcome State Fault Refusal :=
  .next (s.inputLoss vaonOff)

/-- INPUT_LOW (R430): VIN48 lies between 38 V and 40 V, and INPUT_LOW is set. -/
def execInputLow (s : State) : Host.Outcome State Fault Refusal :=
  .next s.inputLow

/-- RESET (R430): RESET_N asserted resets the Ikiroth once any started batch completes. -/
def execResetN (s : State) : Host.Outcome State Fault Refusal :=
  .next s.resetPin

/-- NAP_WAKE_DONE (R425): A core admitted from NAP reaches RUN 400 ns after its admission. -/
def execNapWakeDone (core : Byte) (s : State) : Host.Outcome State Fault Refusal :=
  .next (s.napWakeDone core.toNat)

/-- VAON_UP (R429): VIN48 is applied, VAON comes up and VHOLD starts charging. -/
def execVaonUp (s : State) : Host.Outcome State Fault Refusal :=
  .next s.vaonUp

/-- ALERT_N_RELEASE (R32): ALERT_N is released in the slow cycle after the last enabled flag is cleared or disabled. -/
def execAlertNRelease (s : State) : Host.Outcome State Fault Refusal :=
  .next ({ s with alertN := s.alertN && s.alerting })

end Sys2Proof.Machine
end

