-- ==== Sys2Proof/Machine/SampleCommands.lean ====
section
/-! DEFINITION. The sampler and the training update (13_random_sampling.md, 14_training_update.md). -/

namespace Sys2Proof.Machine

/-- A_SAMPLE (R274): Chooses a token from logits under the sampling descriptor. -/
def execASample (h : SlotAt) (f : AFields) (s : State) : Host.Outcome State Fault Refusal :=
  .next (s.stage h (.sample f))

/-- SAMPLE_DONE (R276): The sampler writes the result line and completes. -/
def execSampleDone (core : Byte) (tag : BitVec 4) (s : State) : Host.Outcome State Fault Refusal :=
  .next (s.finishFirst core.toNat tag.toNat Op.isSample)

/-- UPDATE_NORM (R289): Update pass 1: writes the leaf sums of squares. -/
def execUpdateNorm (h : SlotAt) (f : UFields) (s : State) : Host.Outcome State Fault Refusal :=
  .next (s.stage h (.update 1 f))

/-- UPDATE_APPLY (R291): Update pass 2: applies the sign rule to weights and moments. -/
def execUpdateApply (h : SlotAt) (f : UFields) (s : State) : Host.Outcome State Fault Refusal :=
  .next (s.stage h (.update 2 f))

/-- UPDATE_SCALE (R293): Updates the history record and computes a delayed-scaling exponent. -/
def execUpdateScale (h : SlotAt) (f : UFields) (s : State) : Host.Outcome State Fault Refusal :=
  .next (s.stage h (.update 3 f))

/-- UPDATE_DONE (R281): An update completes, writes the result bytes of its descriptor and frees its tag. -/
def execUpdateDone (core : Byte) (tag : BitVec 4) (s : State) : Host.Outcome State Fault Refusal :=
  .next (s.finishFirst core.toNat tag.toNat Op.isUpdate)

end Sys2Proof.Machine
end

