-- ==== Sys2Proof/Machine/ScalarCommands.lean ====
section
/-! DEFINITION. The scalar slots (03_core.md R57 to R59). -/

namespace Sys2Proof.Machine

/-- S_ADD (R58): Scalar 64-bit add. -/
def execSAdd (h : SlotAt) (f : SFields) (s : State) : Host.Outcome State Fault Refusal :=
  .next (s.stage h (.add f))

/-- S_SUB (R58): Scalar 64-bit subtract. -/
def execSSub (h : SlotAt) (f : SFields) (s : State) : Host.Outcome State Fault Refusal :=
  .next (s.stage h (.sub f))

/-- S_MUL (R58): Scalar multiply, keeping the low 64 bits. -/
def execSMul (h : SlotAt) (f : SFields) (s : State) : Host.Outcome State Fault Refusal :=
  .next (s.stage h (.mul f))

/-- S_AND (R58): Scalar bitwise AND. -/
def execSAnd (h : SlotAt) (f : SFields) (s : State) : Host.Outcome State Fault Refusal :=
  .next (s.stage h (.and f))

/-- S_OR (R58): Scalar bitwise OR. -/
def execSOr (h : SlotAt) (f : SFields) (s : State) : Host.Outcome State Fault Refusal :=
  .next (s.stage h (.or f))

/-- S_XOR (R58): Scalar bitwise exclusive OR. -/
def execSXor (h : SlotAt) (f : SFields) (s : State) : Host.Outcome State Fault Refusal :=
  .next (s.stage h (.xor f))

/-- S_SHL (R58): Scalar shift left by b mod 64. -/
def execSShl (h : SlotAt) (f : SFields) (s : State) : Host.Outcome State Fault Refusal :=
  .next (s.stage h (.shl f))

/-- S_SHR (R58): Scalar logical shift right by b mod 64. -/
def execSShr (h : SlotAt) (f : SFields) (s : State) : Host.Outcome State Fault Refusal :=
  .next (s.stage h (.shr f))

/-- S_SAR (R58): Scalar arithmetic shift right by b mod 64. -/
def execSSar (h : SlotAt) (f : SFields) (s : State) : Host.Outcome State Fault Refusal :=
  .next (s.stage h (.sar f))

/-- S_MIN (R58): Scalar signed minimum. -/
def execSMin (h : SlotAt) (f : SFields) (s : State) : Host.Outcome State Fault Refusal :=
  .next (s.stage h (.min f))

/-- S_MAX (R58): Scalar signed maximum. -/
def execSMax (h : SlotAt) (f : SFields) (s : State) : Host.Outcome State Fault Refusal :=
  .next (s.stage h (.max f))

/-- S_CMP_EQ (R58): Writes the predicate PDST with a equal to b. -/
def execSCmpEq (h : SlotAt) (f : SFields) (s : State) : Host.Outcome State Fault Refusal :=
  .next (s.stage h (.cmpEq f))

/-- S_CMP_NE (R58): Writes the predicate PDST with a not equal to b. -/
def execSCmpNe (h : SlotAt) (f : SFields) (s : State) : Host.Outcome State Fault Refusal :=
  .next (s.stage h (.cmpNe f))

/-- S_CMP_LT (R58): Writes the predicate PDST with signed a below b. -/
def execSCmpLt (h : SlotAt) (f : SFields) (s : State) : Host.Outcome State Fault Refusal :=
  .next (s.stage h (.cmpLt f))

/-- S_CMP_LTU (R58): Writes the predicate PDST with unsigned a below b. -/
def execSCmpLtu (h : SlotAt) (f : SFields) (s : State) : Host.Outcome State Fault Refusal :=
  .next (s.stage h (.cmpLtu f))

/-- S_CMP_LE (R58): Writes the predicate PDST with signed a at most b. -/
def execSCmpLe (h : SlotAt) (f : SFields) (s : State) : Host.Outcome State Fault Refusal :=
  .next (s.stage h (.cmpLe f))

/-- S_CMP_LEU (R58): Writes the predicate PDST with unsigned a at most b. -/
def execSCmpLeu (h : SlotAt) (f : SFields) (s : State) : Host.Outcome State Fault Refusal :=
  .next (s.stage h (.cmpLeu f))

/-- S_LD (R58): Loads a scalar word from the scalar data store. -/
def execSLd (h : SlotAt) (f : SFields) (s : State) : Host.Outcome State Fault Refusal :=
  .next (s.stage h (.ld f))

/-- S_ST (R58): Stores a scalar word into the scalar data store. -/
def execSSt (h : SlotAt) (f : SFields) (s : State) : Host.Outcome State Fault Refusal :=
  .next (s.stage h (.st f))

/-- S_SYS (R59): Reads a system value selected by IMM. -/
def execSSys (h : SlotAt) (f : SFields) (s : State) : Host.Outcome State Fault Refusal :=
  .next (s.stage h (.sys f))

end Sys2Proof.Machine
end

