-- ==== Sys2Proof/Machine/Boot.lean ====
section
/-! DEFINITION. Boot and attestation (19_security_boot.md R402 to R406, R416). -/

namespace Sys2Proof.Machine

def State.setMode (s : State) (m : Nat) : State := s.setEntry 0x9000 1 m

/-- The attempt rule of R405: the slots to try, in order. Where the check is short the record stays as it is.
(DESIGN CHOICE: log entry 7) -/
def State.attempt (s : State) : State × List Nat :=
  let r := s.rollback
  if r.trial = 0xFF then (s, [r.active])
  else if r.attempted = 0 then
    match s.ownWrite (fun s => s.writeRollback (fun r => { r with attempted := 1 })) with
    | (s, true) => (s, [r.trial, r.active])
    | (s, false) => (s, [r.active])
  else
    (((s.ownWrite (fun s => s.writeRollback (fun r => { r with trial := 0xFF, attempted := 0 }))).1.event 0x9001 3 1),
      [r.active])

/-- The image that runs: its slot, versions, and whether it is on trial. -/
def State.runImage (s : State) (slot : Nat) : State :=
  let im := s.image slot
  let e (s : State) (sub v : Nat) : State := s.setEntry 0x9000 sub v
  e (e (e (e s 3 slot) 4 (imageVersion im)) 5 (imageSecurity im)) 7 (slot == s.rollback.trial).toNat

/-- What the firmware brings up (R403 steps 4 and 5): the trims, ports, kept polders, or the self-test, whose request is
taken and no longer kept. (DESIGN CHOICE: log entry 7) -/
def State.bringUp (s : State) : State :=
  let s := { s with trims := s.part.trims }
  if s.entry 0x9000 2 = 1 then
    let s := ((s.setKept 0x9000 2 0).ownWrite State.storeKept).1.setMode 1
    let s := (List.range 5).foldl (fun s q => s.enablePort q (s.entry (portIndex q 0) 1 == 1)) s
    { s with free := s.free + 1 }.event 0x9001 4 (Config.selfTestFails s.free).length
  else
    let s := s.setMode 0
    let s := (List.range 5).foldl (fun s q => s.enablePort q (s.entry (portIndex q 0) 1 == 1)) s
    (List.range 16).foldl (fun s p => if s.polderMask p = 0 then s else s.applyMask p 0 (s.polderMask p)) s

/-- Step 1 of the boot (R396, R403), and what the store holds: K_dev where the factory record verifies, which copies of the
rollback record do, and the kept entries that stand. -/
def State.readStore (s : State) : State :=
  let s := { s with secret := if s.part.factoryOk then Config.deviceSecret s.part.serial s.part.helper else 0 }
  { s with
    rollA := { s.rollA with ok := s.rollVerifies s.rollA }
    rollB := { s.rollB with ok := s.rollVerifies s.rollB } }.loadKept

/-- `BOOT` at the release of reset. (DESIGN CHOICE: log entry 7) -/
def State.boot (s : State) : State :=
  if !(s.supply.vaon && s.supply.pwrok && s.supply.rails && !s.supply.booted && !s.supply.tripped) then s
  else
    let s := { s with supply := { s.supply with booted := true, inReset := false } }.readStore
    let s := { s with plcaNode := BitVec.ofNat 8 (s.entry 0x1001 1) }
    if !s.part.factoryOk then s.setMode 3
    else if !s.rollA.ok && !s.rollB.ok then (s.setMode 3).event 0x9001 5 1
    else
      let s := s.setEntry 0x9000 6 s.rollback.counter
      let t := s.attempt
      let counter := t.1.rollback.counter
      let bad := t.2.takeWhile (fun n => !imageOk counter (t.1.image n))
      let u := t.1.event 0x9001 0 bad.length
      match t.2.find? (fun n => imageOk counter (t.1.image n)) with
      | none => u.setMode 2
      | some n => (u.runImage n).bringUp

/-! ### Attestation (R416) -/

/-- The report over a nonce, before its signature. -/
def State.reportBody (s : State) (nonce : BitVec 256) : List Byte :=
  let im := s.image (s.entry 0x9000 3)
  [0, 1, 0, 0] ++ s.factory s.serial ++ padTo 16 s.orderCode ++ s.factory (mapBytes 18 s.part.disabled) ++ ascii "B0"
    ++ [BitVec.ofNat 8 s.mode, BitVec.ofNat 8 (s.entry 0x9000 3), 0, 0] ++ toBytes 4 (s.entry 0x9000 4)
    ++ toBytes 4 (s.entry 0x9000 5) ++ toBytes 4 (s.entry 0x9000 6) ++ padTo 32 ((im.drop 32).take 32)
    ++ toBytes 32 s.part.digest.toNat
    ++ (if s.enrolled then toBytes 32 (Config.sha256 s.ownerKey).toNat else List.replicate 32 0)
    ++ toBytes 4 (s.entry 0x9030 3)
    ++ (List.range 5).flatMap (fun i => toBytes 1 (s.entry (0x1100 + i) 1) ++ toBytes 1 (s.entry (0x1100 + i) 2))
    ++ toBytes 2 (s.entry 0x400A 1) ++ toBytes 2 (s.entry 0x7200 1) ++ toBytes 2 (s.entry 0x8000 1) ++ [0, 0, 0, 0]
    ++ toBytes 32 nonce.toNat

/-- The report is signed and becomes the content of `ATTESTATION`. -/
def State.attestSigned (s : State) : State :=
  match s.attest with
  | none => s
  | some n =>
    let body := s.reportBody n
    { s with attest := none }.replaceDomain (entryKey 0x9060 2) (body ++ s.identitySign body)

end Sys2Proof.Machine
end

