-- ==== Sys2Proof/Machine/SecurityCommands.lean ====
section
/-! DEFINITION. Boot, the nonvolatile store, firmware, ownership, seals, attestation (19_security_boot.md). -/

namespace Sys2Proof.Machine

/-- BOOT (R403): On reset release the ROM verifies the factory record and rollback record, chooses an image and boots a mode. -/
def execBoot (s : State) : Host.Outcome State Fault Refusal :=
  .next s.boot

/-- NV_BATCH (R400): A nonvolatile batch is started after a freeboard check, or deferred. -/
def execNvBatch (reading : HoldReading) (s : State) : Host.Outcome State Fault Refusal :=
  .next (s.startBatch reading)

/-- NV_BATCH_DONE (R401): A started batch completes, from VHOLD if the input has failed. -/
def execNvBatchDone (s : State) : Host.Outcome State Fault Refusal :=
  .next s.batchDone

/-- FW_IMAGE (R405): Writes a firmware image into the inactive slot. (DESIGN CHOICE: log entry 73) -/
def execFwImage (h : Hdr) (offset : BitVec 31) (last : Bool) (data : List Byte) (s : State) : Host.Outcome State Fault Refusal :=
  .next (s.request h (.segWrite 0x9010 0 offset.toNat last data))

/-- FW_ACTIVATE (R405): Checks the new image and records it as the trial slot. (DESIGN CHOICE: log entry 73) -/
def execFwActivate (h : Hdr) (value : Byte) (s : State) : Host.Outcome State Fault Refusal :=
  .next (s.request h (.write (0x9011) 0 ([value])))

/-- FW_COMMIT (R405): Makes the trial slot active and raises the rollback counter. -/
def execFwCommit (h : Hdr) (value : Byte) (s : State) : Host.Outcome State Fault Refusal :=
  .next (s.request h (.write (0x9012) 0 ([value])))

/-- OWNER_KEY (R407): Enrols the owner key on an unenrolled part. (DESIGN CHOICE: log entry 73) -/
def execOwnerKey (h : Hdr) (key : BitVec 512) (s : State) : Host.Outcome State Fault Refusal :=
  .next (s.request h (.write (0x9030) 2 (toBytes 64 key.toNat)))

/-- OWNER_RELEASE (R407): Dissolves polders, erases seal keys and kept entries, and unenrols the owner. -/
def execOwnerRelease (h : Hdr) (value : Byte) (s : State) : Host.Outcome State Fault Refusal :=
  .next (s.request h (.write (0x9030) 4 ([value])))

/-- CREDENTIAL_EPOCH (R408): Raises the credential epoch, revoking older credentials. -/
def execCredentialEpoch (h : Hdr) (epoch : W32) (s : State) : Host.Outcome State Fault Refusal :=
  .next (s.request h (.write (0x9030) 3 (toBytes 4 epoch.toNat)))

/-- FABRIC_CREDENTIAL (R412): Checks and stores this Ikiroth's fabric credential. -/
def execFabricCredential (h : Hdr) (offset : BitVec 31) (last : Bool) (data : List Byte) (s : State) : Host.Outcome State Fault Refusal :=
  .next (s.request h (.segWrite 0x9030 5 offset.toNat last data))

/-- SEAL_INSTALL (R413): Fills a polder's seal slot from an ML-KEM ciphertext and a credential.
(DESIGN CHOICE: log entry 73) -/
def execSealInstall (h : Hdr) (polder : BitVec 4) (offset : BitVec 31) (last : Bool) (data : List Byte) (s : State) : Host.Outcome State Fault Refusal :=
  .next (s.request h (.segWrite (0x9040 + polder.toNat) 0 offset.toNat last data))

/-- SEAL_CLEAR (R413): Erases the seal slot written. -/
def execSealClear (h : Hdr) (polder : BitVec 4) (slot : Byte) (s : State) : Host.Outcome State Fault Refusal :=
  .next (s.request h (.write (0x9050 + polder.toNat) 2 ([slot])))

/-- ATTEST_NONCE (R416): Starts a signed attestation report over the nonce. -/
def execAttestNonce (h : Hdr) (nonce : BitVec 256) (s : State) : Host.Outcome State Fault Refusal :=
  .next (s.request h (.write (0x9060) 1 (toBytes 32 nonce.toNat)))

/-- ATTEST_SIGNED (R416): The attestation report is signed, and ATTESTATION's generation advances. -/
def execAttestSigned (s : State) : Host.Outcome State Fault Refusal :=
  .next s.attestSigned

end Sys2Proof.Machine
end

