-- ==== Sys2Proof/Machine/SequenceCommands.lean ====
section
/-! DEFINITION. Sequences and key-value rows (11_kv_sequences.md). -/

namespace Sys2Proof.Machine

/-- SEQ_OPEN (R236): Opens a sequence with an empty page table. -/
def execSeqOpen (h : SlotAt) (f : XFields) (s : State) : Host.Outcome State Fault Refusal :=
  .next (s.stage h (.seq 0 f))

/-- SEQ_FORK (R236): Opens a sequence that shares the source sequence's pages. -/
def execSeqFork (h : SlotAt) (f : XFields) (s : State) : Host.Outcome State Fault Refusal :=
  .next (s.stage h (.seq 1 f))

/-- SEQ_CLOSE (R236): Invalidates a sequence's entries and closes it. -/
def execSeqClose (h : SlotAt) (f : XFields) (s : State) : Host.Outcome State Fault Refusal :=
  .next (s.stage h (.seq 2 f))

/-- SEQ_SETLEN (R236): Sets a sequence's committed length. -/
def execSeqSetlen (h : SlotAt) (f : XFields) (s : State) : Host.Outcome State Fault Refusal :=
  .next (s.stage h (.seq 3 f))

/-- SEQ_QUERY (R236): Returns a sequence's length without changing it. -/
def execSeqQuery (h : SlotAt) (f : XFields) (s : State) : Host.Outcome State Fault Refusal :=
  .next (s.stage h (.seq 4 f))

/-- SEQ_SERVED (R234): The cache home serves a sequence operation, including one held under R242, and frees its tag. -/
def execSeqServed (polder : BitVec 4) (s : State) : Host.Outcome State Fault Refusal :=
  .next (s.serveHome polder.toNat)

/-- A_KVLOAD (R239): Takes a snapshot, pins pages and gathers cache rows into the working store. -/
def execAKvload (h : SlotAt) (f : KFields) (s : State) : Host.Outcome State Fault Refusal :=
  .next (s.stage h (.kvload f))

/-- KV_PIN_RELEASE (R239): The home releases a load's pins after its last read, and the load frees its tag. -/
def execKvPinRelease (core : Byte) (tag : BitVec 4) (s : State) : Host.Outcome State Fault Refusal :=
  .next (s.endKvload core.toNat tag.toNat)

/-- A_KVAPPEND (R240): Resolves page entries, allocating or copying as needed, and writes token rows. -/
def execAKvappend (h : SlotAt) (f : KFields) (s : State) : Host.Outcome State Fault Refusal :=
  .next (s.stage h (.kvappend f))

/-- COW_SWITCH (R241): When a page copy completes, the page-table entry switches to the new page. -/
def execCowSwitch (core : Byte) (tag : BitVec 4) (s : State) : Host.Outcome State Fault Refusal :=
  .next (s.switchCow core.toNat tag.toNat)

/-- KVAPPEND_DONE (R240): An append's last write completes and it frees its tag. -/
def execKvappendDone (core : Byte) (tag : BitVec 4) (s : State) : Host.Outcome State Fault Refusal :=
  .next (s.endKvappend core.toNat tag.toNat)

end Sys2Proof.Machine
end

