-- ==== Sys2Proof/Machine/SluiceCommands.lean ====
section
/-! DEFINITION. The Sluice and random-number slots (12_sluice.md, 13_random_sampling.md). -/

namespace Sys2Proof.Machine

/-- SLUICE_CLEAR (R249): Resets the comparator's tile state. -/
def execSluiceClear (h : SlotAt) (f : LFields) (s : State) : Host.Outcome State Fault Refusal :=
  .next (s.stage h (.sluice 0 f))

/-- SLUICE_ACCUM (R250): Accumulates the change and magnitude maxima over a pair of registers. -/
def execSluiceAccum (h : SlotAt) (f : LFields) (s : State) : Host.Outcome State Fault Refusal :=
  .next (s.stage h (.sluice 1 f))

/-- SLUICE_DECIDE (R251): Decides a tile's gate, writes the predicate and posts a closed gate. -/
def execSluiceDecide (h : SlotAt) (f : LFields) (s : State) : Host.Outcome State Fault Refusal :=
  .next (s.stage h (.sluice 2 f))

/-- SLUICE_SETUP (R249): Loads the job state from 17 lines and clears the tile state. -/
def execSluiceSetup (h : SlotAt) (f : LFields) (s : State) : Host.Outcome State Fault Refusal :=
  .next (s.stage h (.sluice 3 f))

/-- SLUICE_POST_SERVED (R254): The sluice home sets a gate-map bit by read-modify-write. -/
def execSluicePostServed (polder : BitVec 4) (s : State) : Host.Outcome State Fault Refusal :=
  .next (s.servePost polder.toNat)

/-- LOADSTATE (R263): Loads SEED and STEP of the generator state from one line. -/
def execRngLoadstate (h : SlotAt) (f : RFields) (s : State) : Host.Outcome State Fault Refusal :=
  .next (s.stage h (.rng 0 f))

/-- BITS (R267): Writes raw counter-stream words. -/
def execRngBits (h : SlotAt) (f : RFields) (s : State) : Host.Outcome State Fault Refusal :=
  .next (s.stage h (.rng 1 f))

/-- UNIFORM (R263): Writes uniform FP32 samples drawn from counter-stream words. -/
def execRngUniform (h : SlotAt) (f : RFields) (s : State) : Host.Outcome State Fault Refusal :=
  .next (s.stage h (.rng 2 f))

/-- NORMAL (R269): Writes normal samples drawn from counter-stream words. -/
def execRngNormal (h : SlotAt) (f : RFields) (s : State) : Host.Outcome State Fault Refusal :=
  .next (s.stage h (.rng 3 f))

/-- DROP (R266): Applies a data-hash dropout mask to VA. -/
def execRngDrop (h : SlotAt) (f : RFields) (s : State) : Host.Outcome State Fault Refusal :=
  .next (s.stage h (.rng 4 f))

/-- XSET (R263): Sets the coordinate base of the issuing pipe. -/
def execRngXset (h : SlotAt) (f : RFields) (s : State) : Host.Outcome State Fault Refusal :=
  .next (s.stage h (.rng 5 f))

/-- DSET (R263): Sets the coordinate base and row pitch used by drains. -/
def execRngDset (h : SlotAt) (f : RFields) (s : State) : Host.Outcome State Fault Refusal :=
  .next (s.stage h (.rng 6 f))

end Sys2Proof.Machine
end

