-- ==== Sys2Proof/Machine/VectorCommands.lean ====
section
/-! DEFINITION. The vector slots (08_vector_functions.md) and sliding windows (07_convolution_resampling.md). -/

namespace Sys2Proof.Machine

/-- V_FMA (R171): Vector fused multiply-add. -/
def execVFma (h : SlotAt) (f : VFields) (s : State) : Host.Outcome State Fault Refusal :=
  .next (s.stage h (.vFma f))

/-- V_ADD (R171): Vector add. -/
def execVAdd (h : SlotAt) (f : VFields) (s : State) : Host.Outcome State Fault Refusal :=
  .next (s.stage h (.vAdd f))

/-- V_MUL (R171): Vector multiply. -/
def execVMul (h : SlotAt) (f : VFields) (s : State) : Host.Outcome State Fault Refusal :=
  .next (s.stage h (.vMul f))

/-- V_MAX (R172): Vector maximum. -/
def execVMax (h : SlotAt) (f : VFields) (s : State) : Host.Outcome State Fault Refusal :=
  .next (s.stage h (.vMax f))

/-- V_MIN (R172): Vector minimum. -/
def execVMin (h : SlotAt) (f : VFields) (s : State) : Host.Outcome State Fault Refusal :=
  .next (s.stage h (.vMin f))

/-- V_EXP2 (R178): Vector base-2 exponential. -/
def execVExp2 (h : SlotAt) (f : VFields) (s : State) : Host.Outcome State Fault Refusal :=
  .next (s.stage h (.vExp2 f))

/-- V_LOG2 (R179): Vector base-2 logarithm. -/
def execVLog2 (h : SlotAt) (f : VFields) (s : State) : Host.Outcome State Fault Refusal :=
  .next (s.stage h (.vLog2 f))

/-- V_CVT (R173): Vector format conversion between parts. -/
def execVCvt (h : SlotAt) (f : VFields) (s : State) : Host.Outcome State Fault Refusal :=
  .next (s.stage h (.vCvt f))

/-- V_LD (R168): Loads eight working-store lines into a vector register. -/
def execVLd (h : SlotAt) (f : VFields) (s : State) : Host.Outcome State Fault Refusal :=
  .next (s.stage h (.vLd f))

/-- V_ST (R168): Stores a vector register to eight working-store lines. -/
def execVSt (h : SlotAt) (f : VFields) (s : State) : Host.Outcome State Fault Refusal :=
  .next (s.stage h (.vSt f))

/-- V_SEL (R172): Selects elements from VA or VB by the mask in VC. -/
def execVSel (h : SlotAt) (f : VFields) (s : State) : Host.Outcome State Fault Refusal :=
  .next (s.stage h (.vSel f))

/-- V_CMP (R172): Compares elements under FN and writes all-ones or all-zeros masks. -/
def execVCmp (h : SlotAt) (f : VFields) (s : State) : Host.Outcome State Fault Refusal :=
  .next (s.stage h (.vCmp f))

/-- V_RSUM_SUM (R183): Sums lanes by the Meridian tree. -/
def execVRsumSum (h : SlotAt) (f : VFields) (s : State) : Host.Outcome State Fault Refusal :=
  .next (s.stage h (.vRsum 0 f))

/-- V_RSUM_MAX (R183): Takes the largest lane. -/
def execVRsumMax (h : SlotAt) (f : VFields) (s : State) : Host.Outcome State Fault Refusal :=
  .next (s.stage h (.vRsum 1 f))

/-- V_RSUM_STAT (R183): Forms a statistics node shifted by lane 0. -/
def execVRsumStat (h : SlotAt) (f : VFields) (s : State) : Host.Outcome State Fault Refusal :=
  .next (s.stage h (.vRsum 2 f))

/-- V_RSUM_STAT0 (R183): Forms a statistics node with shift +0. -/
def execVRsumStat0 (h : SlotAt) (f : VFields) (s : State) : Host.Outcome State Fault Refusal :=
  .next (s.stage h (.vRsum 3 f))

/-- V_RSUM_COMBINE (R184): Combines a left statistics node with a right node. -/
def execVRsumCombine (h : SlotAt) (f : VFields) (s : State) : Host.Outcome State Fault Refusal :=
  .next (s.stage h (.vRsum 4 f))

/-- V_RSUM_FINISH (R185): Computes the mean and variance from a statistics node. -/
def execVRsumFinish (h : SlotAt) (f : VFields) (s : State) : Host.Outcome State Fault Refusal :=
  .next (s.stage h (.vRsum 5 f))

/-- V_WIN_MAC (R154): Sliding-window multiply-accumulate for one output pixel. -/
def execVWinMac (h : SlotAt) (f : WFields) (s : State) : Host.Outcome State Fault Refusal :=
  .next (s.stage h (.vWin 0 f))

/-- V_WIN_MAX (R154): Sliding-window maximum for one output pixel. -/
def execVWinMax (h : SlotAt) (f : WFields) (s : State) : Host.Outcome State Fault Refusal :=
  .next (s.stage h (.vWin 1 f))

/-- V_WIN_SUM (R154): Sliding-window sum for one output pixel. -/
def execVWinSum (h : SlotAt) (f : WFields) (s : State) : Host.Outcome State Fault Refusal :=
  .next (s.stage h (.vWin 2 f))

/-- V_WIN_DONE (R155): A V.WIN completes after KH·KW + 12 fast cycles, freeing its pipe and its read footprint under R65. -/
def execVWinDone (core : Byte) (pipe : Bool) (s : State) : Host.Outcome State Fault Refusal :=
  .next (s.endWin core.toNat pipe)

end Sys2Proof.Machine
end

