-- ==== Sys2Proof/Machine/Dispatch.lean ====
section
/-! DEFINITION. The dispatch: one arm a command, each a call of that command's own meaning. -/

namespace Sys2Proof.Machine

def exec (i : Instr) (s : State) : Host.Outcome State Fault Refusal :=
  match i with
  | .discover path => Sys2Proof.Machine.execDiscover path s
  | .tsusenOpen path session seq msg => Sys2Proof.Machine.execTsusenOpen path session seq msg s
  | .openFinish path session seq frag => Sys2Proof.Machine.execOpenFinish path session seq frag s
  | .read h index sub => Sys2Proof.Machine.execRead h index sub s
  | .write h index sub data => Sys2Proof.Machine.execWrite h index sub data s
  | .segRead h index sub offset length gen => Sys2Proof.Machine.execSegRead h index sub offset length gen s
  | .segWrite h index sub offset last data => Sys2Proof.Machine.execSegWrite h index sub offset last data s
  | .subscribe h index on => Sys2Proof.Machine.execSubscribe h index on s
  | .recordRead h index => Sys2Proof.Machine.execRecordRead h index s
  | .batchWrite h payload => Sys2Proof.Machine.execBatchWrite h payload s
  | .tsusenClose h => Sys2Proof.Machine.execTsusenClose h s
  | .sessionIdleExpiry session => Sys2Proof.Machine.execSessionIdleExpiry session s
  | .segWriteGapExpiry session => Sys2Proof.Machine.execSegWriteGapExpiry session s
  | .eventPost => Sys2Proof.Machine.execEventPost s
  | .flagsClear h record mask => Sys2Proof.Machine.execFlagsClear h record mask s
  | .sAdd h f => Sys2Proof.Machine.execSAdd h f s
  | .sSub h f => Sys2Proof.Machine.execSSub h f s
  | .sMul h f => Sys2Proof.Machine.execSMul h f s
  | .sAnd h f => Sys2Proof.Machine.execSAnd h f s
  | .sOr h f => Sys2Proof.Machine.execSOr h f s
  | .sXor h f => Sys2Proof.Machine.execSXor h f s
  | .sShl h f => Sys2Proof.Machine.execSShl h f s
  | .sShr h f => Sys2Proof.Machine.execSShr h f s
  | .sSar h f => Sys2Proof.Machine.execSSar h f s
  | .sMin h f => Sys2Proof.Machine.execSMin h f s
  | .sMax h f => Sys2Proof.Machine.execSMax h f s
  | .sCmpEq h f => Sys2Proof.Machine.execSCmpEq h f s
  | .sCmpNe h f => Sys2Proof.Machine.execSCmpNe h f s
  | .sCmpLt h f => Sys2Proof.Machine.execSCmpLt h f s
  | .sCmpLtu h f => Sys2Proof.Machine.execSCmpLtu h f s
  | .sCmpLe h f => Sys2Proof.Machine.execSCmpLe h f s
  | .sCmpLeu h f => Sys2Proof.Machine.execSCmpLeu h f s
  | .sLd h f => Sys2Proof.Machine.execSLd h f s
  | .sSt h f => Sys2Proof.Machine.execSSt h f s
  | .sSys h f => Sys2Proof.Machine.execSSys h f s
  | .aLoop h f => Sys2Proof.Machine.execALoop h f s
  | .aLoad h f => Sys2Proof.Machine.execALoad h f s
  | .aLoadDone core tag => Sys2Proof.Machine.execALoadDone core tag s
  | .aStore h f => Sys2Proof.Machine.execAStore h f s
  | .aStoreDone core tag => Sys2Proof.Machine.execAStoreDone core tag s
  | .aWait h f => Sys2Proof.Machine.execAWait h f s
  | .mStream h f => Sys2Proof.Machine.execMStream h f s
  | .mStreamAttn h f => Sys2Proof.Machine.execMStreamAttn h f s
  | .mStreamDone core tag => Sys2Proof.Machine.execMStreamDone core tag s
  | .mDrain h f => Sys2Proof.Machine.execMDrain h f s
  | .mDrainAttn h f => Sys2Proof.Machine.execMDrainAttn h f s
  | .mDrainDone core tag => Sys2Proof.Machine.execMDrainDone core tag s
  | .mWait h f => Sys2Proof.Machine.execMWait h f s
  | .mGstream h f => Sys2Proof.Machine.execMGstream h f s
  | .vFma h f => Sys2Proof.Machine.execVFma h f s
  | .vAdd h f => Sys2Proof.Machine.execVAdd h f s
  | .vMul h f => Sys2Proof.Machine.execVMul h f s
  | .vMax h f => Sys2Proof.Machine.execVMax h f s
  | .vMin h f => Sys2Proof.Machine.execVMin h f s
  | .vExp2 h f => Sys2Proof.Machine.execVExp2 h f s
  | .vLog2 h f => Sys2Proof.Machine.execVLog2 h f s
  | .vCvt h f => Sys2Proof.Machine.execVCvt h f s
  | .vLd h f => Sys2Proof.Machine.execVLd h f s
  | .vSt h f => Sys2Proof.Machine.execVSt h f s
  | .vSel h f => Sys2Proof.Machine.execVSel h f s
  | .vCmp h f => Sys2Proof.Machine.execVCmp h f s
  | .vRsumSum h f => Sys2Proof.Machine.execVRsumSum h f s
  | .vRsumMax h f => Sys2Proof.Machine.execVRsumMax h f s
  | .vRsumStat h f => Sys2Proof.Machine.execVRsumStat h f s
  | .vRsumStat0 h f => Sys2Proof.Machine.execVRsumStat0 h f s
  | .vRsumCombine h f => Sys2Proof.Machine.execVRsumCombine h f s
  | .vRsumFinish h f => Sys2Proof.Machine.execVRsumFinish h f s
  | .vWinMac h f => Sys2Proof.Machine.execVWinMac h f s
  | .vWinMax h f => Sys2Proof.Machine.execVWinMax h f s
  | .vWinSum h f => Sys2Proof.Machine.execVWinSum h f s
  | .sluiceClear h f => Sys2Proof.Machine.execSluiceClear h f s
  | .sluiceAccum h f => Sys2Proof.Machine.execSluiceAccum h f s
  | .sluiceDecide h f => Sys2Proof.Machine.execSluiceDecide h f s
  | .sluiceSetup h f => Sys2Proof.Machine.execSluiceSetup h f s
  | .sluicePostServed polder => Sys2Proof.Machine.execSluicePostServed polder s
  | .rngLoadstate h f => Sys2Proof.Machine.execRngLoadstate h f s
  | .rngBits h f => Sys2Proof.Machine.execRngBits h f s
  | .rngUniform h f => Sys2Proof.Machine.execRngUniform h f s
  | .rngNormal h f => Sys2Proof.Machine.execRngNormal h f s
  | .rngDrop h f => Sys2Proof.Machine.execRngDrop h f s
  | .rngXset h f => Sys2Proof.Machine.execRngXset h f s
  | .rngDset h f => Sys2Proof.Machine.execRngDset h f s
  | .xJmp h f => Sys2Proof.Machine.execXJmp h f s
  | .xBr h f => Sys2Proof.Machine.execXBr h f s
  | .xCall h f => Sys2Proof.Machine.execXCall h f s
  | .xRet h f => Sys2Proof.Machine.execXRet h f s
  | .xBar h f => Sys2Proof.Machine.execXBar h f s
  | .barrierRelease ctx scope site => Sys2Proof.Machine.execBarrierRelease ctx scope site s
  | .xFetchadd h f => Sys2Proof.Machine.execXFetchadd h f s
  | .xCset h f => Sys2Proof.Machine.execXCset h f s
  | .counterServed site channel => Sys2Proof.Machine.execCounterServed site channel s
  | .xPut h f => Sys2Proof.Machine.execXPut h f s
  | .xRecv h f => Sys2Proof.Machine.execXRecv h f s
  | .exchangeDone core tag => Sys2Proof.Machine.execExchangeDone core tag s
  | .xFence h f => Sys2Proof.Machine.execXFence h f s
  | .xIload h f => Sys2Proof.Machine.execXIload h f s
  | .iloadDone core tag => Sys2Proof.Machine.execIloadDone core tag s
  | .xWait h f => Sys2Proof.Machine.execXWait h f s
  | .xHalt h f => Sys2Proof.Machine.execXHalt h f s
  | .seqOpen h f => Sys2Proof.Machine.execSeqOpen h f s
  | .seqFork h f => Sys2Proof.Machine.execSeqFork h f s
  | .seqClose h f => Sys2Proof.Machine.execSeqClose h f s
  | .seqSetlen h f => Sys2Proof.Machine.execSeqSetlen h f s
  | .seqQuery h f => Sys2Proof.Machine.execSeqQuery h f s
  | .seqServed polder => Sys2Proof.Machine.execSeqServed polder s
  | .aKvload h f => Sys2Proof.Machine.execAKvload h f s
  | .kvPinRelease core tag => Sys2Proof.Machine.execKvPinRelease core tag s
  | .aKvappend h f => Sys2Proof.Machine.execAKvappend h f s
  | .cowSwitch core tag => Sys2Proof.Machine.execCowSwitch core tag s
  | .kvappendDone core tag => Sys2Proof.Machine.execKvappendDone core tag s
  | .aSample h f => Sys2Proof.Machine.execASample h f s
  | .sampleDone core tag => Sys2Proof.Machine.execSampleDone core tag s
  | .updateNorm h f => Sys2Proof.Machine.execUpdateNorm h f s
  | .updateApply h f => Sys2Proof.Machine.execUpdateApply h f s
  | .updateScale h f => Sys2Proof.Machine.execUpdateScale h f s
  | .updateDone core tag => Sys2Proof.Machine.execUpdateDone core tag s
  | .fabricPut h f => Sys2Proof.Machine.execFabricPut h f s
  | .fabricAllreduce h f => Sys2Proof.Machine.execFabricAllreduce h f s
  | .fabricReduce h f => Sys2Proof.Machine.execFabricReduce h f s
  | .fabricBroadcast h f => Sys2Proof.Machine.execFabricBroadcast h f s
  | .fabricDone op => Sys2Proof.Machine.execFabricDone op s
  | .mediaOpen h f => Sys2Proof.Machine.execMediaOpen h f s
  | .mediaFrame h f => Sys2Proof.Machine.execMediaFrame h f s
  | .mediaClose h f => Sys2Proof.Machine.execMediaClose h f s
  | .mediaJobStart engine => Sys2Proof.Machine.execMediaJobStart engine s
  | .mediaJobDone engine => Sys2Proof.Machine.execMediaJobDone engine s
  | .faultTaken core => Sys2Proof.Machine.execFaultTaken core s
  | .packageStart ctx => Sys2Proof.Machine.execPackageStart ctx s
  | .packageEnd ctx => Sys2Proof.Machine.execPackageEnd ctx s
  | .sliceExpiry ctx => Sys2Proof.Machine.execSliceExpiry ctx s
  | .saveDone ctx => Sys2Proof.Machine.execSaveDone ctx s
  | .restoreDone ctx => Sys2Proof.Machine.execRestoreDone ctx s
  | .contextPreempt h polder context => Sys2Proof.Machine.execContextPreempt h polder context s
  | .contextClose h polder context => Sys2Proof.Machine.execContextClose h polder context s
  | .contextMove h polder context mask => Sys2Proof.Machine.execContextMove h polder context mask s
  | .polderReset h polder value => Sys2Proof.Machine.execPolderReset h polder value s
  | .polderSites h polder mask => Sys2Proof.Machine.execPolderSites h polder mask s
  | .siteZeroed site => Sys2Proof.Machine.execSiteZeroed site s
  | .snapshot h polder value => Sys2Proof.Machine.execSnapshot h polder value s
  | .histClear h core value => Sys2Proof.Machine.execHistClear h core value s
  | .cacheInit h polder value => Sys2Proof.Machine.execCacheInit h polder value s
  | .resultHoldExpiry ctx => Sys2Proof.Machine.execResultHoldExpiry ctx s
  | .assoc h msg => Sys2Proof.Machine.execAssoc h msg s
  | .assocFinish h frag => Sys2Proof.Machine.execAssocFinish h frag s
  | .assocClose h => Sys2Proof.Machine.execAssocClose h s
  | .assocIdleExpiry assoc => Sys2Proof.Machine.execAssocIdleExpiry assoc s
  | .ctxOpen h payload => Sys2Proof.Machine.execCtxOpen h payload s
  | .ctxClose h => Sys2Proof.Machine.execCtxClose h s
  | .submit h payload arrived => Sys2Proof.Machine.execSubmit h payload arrived s
  | .pkgAssemblyExpiry ctx ordinal => Sys2Proof.Machine.execPkgAssemblyExpiry ctx ordinal s
  | .get h => Sys2Proof.Machine.execGet h s
  | .release h => Sys2Proof.Machine.execRelease h s
  | .fabricJoin h payload => Sys2Proof.Machine.execFabricJoin h payload s
  | .frameReceive port frame => Sys2Proof.Machine.execFrameReceive port frame s
  | .linkUp port peerModes => Sys2Proof.Machine.execLinkUp port peerModes s
  | .linkLost port => Sys2Proof.Machine.execLinkLost port s
  | .anRetryExpiry port => Sys2Proof.Machine.execAnRetryExpiry port s
  | .rekey port channel => Sys2Proof.Machine.execRekey port channel s
  | .hsH1 path hsId frag => Sys2Proof.Machine.execHsH1 path hsId frag s
  | .hsH3 path hsId frag => Sys2Proof.Machine.execHsH3 path hsId frag s
  | .hsH2Request path hsId offset => Sys2Proof.Machine.execHsH2Request path hsId offset s
  | .h2Signed => Sys2Proof.Machine.execH2Signed s
  | .handshakeIdleExpiry path hsId => Sys2Proof.Machine.execHandshakeIdleExpiry path hsId s
  | .fabricPacketRx p => Sys2Proof.Machine.execFabricPacketRx p s
  | .fabricAbortRx group collId => Sys2Proof.Machine.execFabricAbortRx group collId s
  | .fabricRtoExpiry packet => Sys2Proof.Machine.execFabricRtoExpiry packet s
  | .escapeWaitExpiry packet => Sys2Proof.Machine.execEscapeWaitExpiry packet s
  | .refresh site channel => Sys2Proof.Machine.execRefresh site channel s
  | .tempReading site die0 die1 die2 die3 => Sys2Proof.Machine.execTempReading site die0 die1 die2 die3 s
  | .powerEvaluation reading => Sys2Proof.Machine.execPowerEvaluation reading s
  | .wakeWindow => Sys2Proof.Machine.execWakeWindow s
  | .siteStart => Sys2Proof.Machine.execSiteStart s
  | .siteSettled site => Sys2Proof.Machine.execSiteSettled site s
  | .wakeTimeout ctx => Sys2Proof.Machine.execWakeTimeout ctx s
  | .napEntry core => Sys2Proof.Machine.execNapEntry core s
  | .sleepEntry site => Sys2Proof.Machine.execSleepEntry site s
  | .pwrok => Sys2Proof.Machine.execPwrok s
  | .inputLoss vaonOff => Sys2Proof.Machine.execInputLoss vaonOff s
  | .inputLow => Sys2Proof.Machine.execInputLow s
  | .resetN => Sys2Proof.Machine.execResetN s
  | .boot => Sys2Proof.Machine.execBoot s
  | .nvBatch reading => Sys2Proof.Machine.execNvBatch reading s
  | .nvBatchDone => Sys2Proof.Machine.execNvBatchDone s
  | .fwImage h offset last data => Sys2Proof.Machine.execFwImage h offset last data s
  | .fwActivate h value => Sys2Proof.Machine.execFwActivate h value s
  | .fwCommit h value => Sys2Proof.Machine.execFwCommit h value s
  | .ownerKey h key => Sys2Proof.Machine.execOwnerKey h key s
  | .ownerRelease h value => Sys2Proof.Machine.execOwnerRelease h value s
  | .credentialEpoch h epoch => Sys2Proof.Machine.execCredentialEpoch h epoch s
  | .fabricCredential h offset last data => Sys2Proof.Machine.execFabricCredential h offset last data s
  | .sealInstall h polder offset last data => Sys2Proof.Machine.execSealInstall h polder offset last data s
  | .sealClear h polder slot => Sys2Proof.Machine.execSealClear h polder slot s
  | .attestNonce h nonce => Sys2Proof.Machine.execAttestNonce h nonce s
  | .attestSigned => Sys2Proof.Machine.execAttestSigned s
  | .alertNRelease => Sys2Proof.Machine.execAlertNRelease s
  | .mgmtLinkChange up => Sys2Proof.Machine.execMgmtLinkChange up s
  | .plcaBeacon => Sys2Proof.Machine.execPlcaBeacon s
  | .negotiationFailed port => Sys2Proof.Machine.execNegotiationFailed port s
  | .napWakeDone core => Sys2Proof.Machine.execNapWakeDone core s
  | .vWinDone core pipe => Sys2Proof.Machine.execVWinDone core pipe s
  | .vaonUp => Sys2Proof.Machine.execVaonUp s

end Sys2Proof.Machine
end

