-- ==== Sys2Proof/Machine/Step.lean ====
section
/-! DEFINITION. The step: the command at the front of the queue takes effect on a state whose queue is the rest. On an
empty queue the Ikiroth idles (log entry 10). -/

namespace Sys2Proof.Machine

/-- The step: the front command on the rest of the queue; an empty queue changes nothing.
(DESIGN CHOICE: log entry 10) -/
def step (s : State) : Host.Outcome State Fault Refusal :=
  match s.pending with
  | [] => .next s
  | c :: rest => exec c { s with pending := rest }

/-- `s` with the command that a table word spells at the front of its queue; no word spells one.
(DESIGN CHOICE: log entry 12) -/
def State.withFetchWord (s : State) (nbits w : Nat) : State :=
  match Sys2Proof.decodeTableWord nbits w with
  | none => s
  | some c => { s with pending := c :: s.pending }

end Sys2Proof.Machine
end

