-- ==== Sys2Proof/Safety.lean ====
section
/-! DEFINITION. The terms in which statements are made: what it is for a bundle to issue alone and without a wait, for a
request to be accepted, for a core to have nothing waiting; and the invariants. -/

namespace Sys2Proof.Machine

/-! ### Bundles of one slot -/

/-- The slot that a head and an operation make. -/
def slotOf (h : SlotAt) (op : SlotOp) : Slot := { num := h.slot.toNat, pred := h.pred, pneg := h.pneg, op := op }

/-- The number of the core that a slot's head names. -/
def coreOf (h : SlotAt) : Nat := h.core.toNat

/-- A bundle made of this slot alone issues when it arrives: its core is enabled and runs a package, stages nothing and
has no bundle waiting, and neither the instruction store nor the slot makes it wait (R53 to R55, R64, R65). -/
structure State.Ready (s : State) (h : SlotAt) (op : SlotOp) : Prop where
  enabled : s.coreEnabled (coreOf h) = true
  issuing : s.issuing (coreOf h) = true
  staged : (s.core (coreOf h)).staged = []
  queue : (s.core (coreOf h)).issueQ = []
  inStore : (s.core (coreOf h)).pc < 2047
  slot : op.slotOk h.slot.toNat = true
  last : h.last = true
  free : s.bundleWaits (coreOf h) [slotOf h op] = false

/-- The bundle issues, its slot acts (R54), and its issue checks find nothing (R55). -/
structure State.Acts (s : State) (h : SlotAt) (op : SlotOp) : Prop extends State.Ready s h op where
  guard : (s.core (coreOf h)).guard h.pred h.pneg = true
  legal : s.slotFault (coreOf h) (slotOf h op) true = none

/-- The core as a bundle leaves it that does nothing: one bundle further. -/
def CoreState.next (k : CoreState) : CoreState := { k with pc := k.pc + 1 }

/-- The state in which the slots of an issued bundle act: its core one bundle further, `BUNDLES` counted (R77). -/
def State.passed (s : State) (n : Nat) : State := (s.onCore n CoreState.next).coreBump n 4 2 1

/-- What a bundle leaves that changes its own core alone, beside `BUNDLES` and what `more` adds: the core is `k`, every
other core is unchanged, and so is every other field of the state. -/
structure State.Issued (s t : State) (n : Nat) (k : CoreState) (more : State → State) : Prop where
  core : t.core n = k
  others : ∀ m, m ≠ n → t.core m = s.core m
  rest : t = more ({ s with cores := t.cores }.coreBump n 4 2 1)

/-- The command answers a state in which its bundle has changed its own core to `k`, and nothing else but counters. -/
def Gives (i : Instr) (s : State) (h : SlotAt) (k : CoreState) (more : State → State := id) : Prop :=
  ∃ t, exec i s = .next t ∧ s.Issued t (coreOf h) k more

/-- The operation that a slot begins, as the state in which it acts sees it: its number, its place, its footprints. -/
def State.begun (s : State) (h : SlotAt) (o : SlotOp) (tag : Option Nat) (op : Op) : AsyncOp :=
  let n := coreOf h
  let k := s.core n
  let c := (s.passed n).cacheCfg ((s.passed n).polderOn n)
  { stamp := s.nextId, slot := h.slot.toNat, bundle := k.pc, tag := tag, op := op, reads := o.reads k c,
    writes := o.writes k c, before := [] }

/-- The core with an operation more that is unfinished, its generators at the start of their walks (R51). -/
def CoreState.holding (k : CoreState) (a : AsyncOp) : CoreState := { k.atPos a.op.agens 0 with ops := k.ops ++ [a] }

/-- One number of the model's own is used up. -/
def State.numbered (s : State) : State := { s with nextId := s.nextId + 1 }

/-- The cycle counters that an operation of a core drives are marked (R144, R225, R279), beside the number it uses up. -/
def State.starts (n : Nat) (op : Op) (s : State) : State :=
  (op.drives.foldl (fun s e => s.mark (coreIndex n e.1) e.2) s).numbered

/-- What a vector result adds beside its register (R125, R189, R279). -/
def State.vecCounts (s : State) (n p : Nat) (r : VResult) : State :=
  ((s.tally p r.tally).coreBump n 10 2 1).coreBump n 14 2 r.rounded

/-- A core has no bundle waiting to issue, and its bundle address lies in the store. -/
def CoreState.quiet (k : CoreState) : Bool := k.issueQ.isEmpty && decide (k.pc < 2048)

/-- No core has a bundle waiting to issue, and none waits for a place in a media engine's queue. -/
def State.calm (s : State) : Bool :=
  s.cores.all (fun c => c.2.issueQ.isEmpty) && s.engines.all (fun e => e.2.waiters.isEmpty)

/-- The slot that a command brings, for the commands that are slots of bundles. -/
def slotCommand (i : Instr) : Option (SlotAt × SlotOp) :=
  match i with
  | .discover _ => none
  | .tsusenOpen _ _ _ _ => none
  | .openFinish _ _ _ _ => none
  | .read _ _ _ => none
  | .write _ _ _ _ => none
  | .segRead _ _ _ _ _ _ => none
  | .segWrite _ _ _ _ _ _ => none
  | .subscribe _ _ _ => none
  | .recordRead _ _ => none
  | .batchWrite _ _ => none
  | .tsusenClose _ => none
  | .sessionIdleExpiry _ => none
  | .segWriteGapExpiry _ => none
  | .eventPost => none
  | .flagsClear _ _ _ => none
  | .sAdd h f => some (h, .add f)
  | .sSub h f => some (h, .sub f)
  | .sMul h f => some (h, .mul f)
  | .sAnd h f => some (h, .and f)
  | .sOr h f => some (h, .or f)
  | .sXor h f => some (h, .xor f)
  | .sShl h f => some (h, .shl f)
  | .sShr h f => some (h, .shr f)
  | .sSar h f => some (h, .sar f)
  | .sMin h f => some (h, .min f)
  | .sMax h f => some (h, .max f)
  | .sCmpEq h f => some (h, .cmpEq f)
  | .sCmpNe h f => some (h, .cmpNe f)
  | .sCmpLt h f => some (h, .cmpLt f)
  | .sCmpLtu h f => some (h, .cmpLtu f)
  | .sCmpLe h f => some (h, .cmpLe f)
  | .sCmpLeu h f => some (h, .cmpLeu f)
  | .sLd h f => some (h, .ld f)
  | .sSt h f => some (h, .st f)
  | .sSys h f => some (h, .sys f)
  | .aLoop h f => some (h, .aLoop f)
  | .aLoad h f => some (h, .aLoad f)
  | .aLoadDone _ _ => none
  | .aStore h f => some (h, .aStore f)
  | .aStoreDone _ _ => none
  | .aWait h f => some (h, .aWait f)
  | .mStream h f => some (h, .stream false f)
  | .mStreamAttn h f => some (h, .stream true f)
  | .mStreamDone _ _ => none
  | .mDrain h f => some (h, .drain false f)
  | .mDrainAttn h f => some (h, .drain true f)
  | .mDrainDone _ _ => none
  | .mWait h f => some (h, .mWait f)
  | .mGstream h f => some (h, .gstream f)
  | .vFma h f => some (h, .vFma f)
  | .vAdd h f => some (h, .vAdd f)
  | .vMul h f => some (h, .vMul f)
  | .vMax h f => some (h, .vMax f)
  | .vMin h f => some (h, .vMin f)
  | .vExp2 h f => some (h, .vExp2 f)
  | .vLog2 h f => some (h, .vLog2 f)
  | .vCvt h f => some (h, .vCvt f)
  | .vLd h f => some (h, .vLd f)
  | .vSt h f => some (h, .vSt f)
  | .vSel h f => some (h, .vSel f)
  | .vCmp h f => some (h, .vCmp f)
  | .vRsumSum h f => some (h, .vRsum 0 f)
  | .vRsumMax h f => some (h, .vRsum 1 f)
  | .vRsumStat h f => some (h, .vRsum 2 f)
  | .vRsumStat0 h f => some (h, .vRsum 3 f)
  | .vRsumCombine h f => some (h, .vRsum 4 f)
  | .vRsumFinish h f => some (h, .vRsum 5 f)
  | .vWinMac h f => some (h, .vWin 0 f)
  | .vWinMax h f => some (h, .vWin 1 f)
  | .vWinSum h f => some (h, .vWin 2 f)
  | .sluiceClear h f => some (h, .sluice 0 f)
  | .sluiceAccum h f => some (h, .sluice 1 f)
  | .sluiceDecide h f => some (h, .sluice 2 f)
  | .sluiceSetup h f => some (h, .sluice 3 f)
  | .sluicePostServed _ => none
  | .rngLoadstate h f => some (h, .rng 0 f)
  | .rngBits h f => some (h, .rng 1 f)
  | .rngUniform h f => some (h, .rng 2 f)
  | .rngNormal h f => some (h, .rng 3 f)
  | .rngDrop h f => some (h, .rng 4 f)
  | .rngXset h f => some (h, .rng 5 f)
  | .rngDset h f => some (h, .rng 6 f)
  | .xJmp h f => some (h, .jmp f)
  | .xBr h f => some (h, .br f)
  | .xCall h f => some (h, .call f)
  | .xRet h f => some (h, .ret f)
  | .xBar h f => some (h, .bar f)
  | .barrierRelease _ _ _ => none
  | .xFetchadd h f => some (h, .fetchadd f)
  | .xCset h f => some (h, .cset f)
  | .counterServed _ _ => none
  | .xPut h f => some (h, .put f)
  | .xRecv h f => some (h, .recv f)
  | .exchangeDone _ _ => none
  | .xFence h f => some (h, .fence f)
  | .xIload h f => some (h, .iload f)
  | .iloadDone _ _ => none
  | .xWait h f => some (h, .xWait f)
  | .xHalt h f => some (h, .halt f)
  | .seqOpen h f => some (h, .seq 0 f)
  | .seqFork h f => some (h, .seq 1 f)
  | .seqClose h f => some (h, .seq 2 f)
  | .seqSetlen h f => some (h, .seq 3 f)
  | .seqQuery h f => some (h, .seq 4 f)
  | .seqServed _ => none
  | .aKvload h f => some (h, .kvload f)
  | .kvPinRelease _ _ => none
  | .aKvappend h f => some (h, .kvappend f)
  | .cowSwitch _ _ => none
  | .kvappendDone _ _ => none
  | .aSample h f => some (h, .sample f)
  | .sampleDone _ _ => none
  | .updateNorm h f => some (h, .update 1 f)
  | .updateApply h f => some (h, .update 2 f)
  | .updateScale h f => some (h, .update 3 f)
  | .updateDone _ _ => none
  | .fabricPut h f => some (h, .fabric f)
  | .fabricAllreduce h f => some (h, .fabric f)
  | .fabricReduce h f => some (h, .fabric f)
  | .fabricBroadcast h f => some (h, .fabric f)
  | .fabricDone _ => none
  | .mediaOpen h f => some (h, .media f)
  | .mediaFrame h f => some (h, .media f)
  | .mediaClose h f => some (h, .media f)
  | .mediaJobStart _ => none
  | .mediaJobDone _ => none
  | .faultTaken _ => none
  | .packageStart _ => none
  | .packageEnd _ => none
  | .sliceExpiry _ => none
  | .saveDone _ => none
  | .restoreDone _ => none
  | .contextPreempt _ _ _ => none
  | .contextClose _ _ _ => none
  | .contextMove _ _ _ _ => none
  | .polderReset _ _ _ => none
  | .polderSites _ _ _ => none
  | .siteZeroed _ => none
  | .snapshot _ _ _ => none
  | .histClear _ _ _ => none
  | .cacheInit _ _ _ => none
  | .resultHoldExpiry _ => none
  | .assoc _ _ => none
  | .assocFinish _ _ => none
  | .assocClose _ => none
  | .assocIdleExpiry _ => none
  | .ctxOpen _ _ => none
  | .ctxClose _ => none
  | .submit _ _ _ => none
  | .pkgAssemblyExpiry _ _ => none
  | .get _ => none
  | .release _ => none
  | .fabricJoin _ _ => none
  | .frameReceive _ _ => none
  | .linkUp _ _ => none
  | .linkLost _ => none
  | .anRetryExpiry _ => none
  | .rekey _ _ => none
  | .hsH1 _ _ _ => none
  | .hsH3 _ _ _ => none
  | .hsH2Request _ _ _ => none
  | .h2Signed => none
  | .handshakeIdleExpiry _ _ => none
  | .fabricPacketRx _ => none
  | .fabricAbortRx _ _ => none
  | .fabricRtoExpiry _ => none
  | .escapeWaitExpiry _ => none
  | .refresh _ _ => none
  | .tempReading _ _ _ _ _ => none
  | .powerEvaluation _ => none
  | .wakeWindow => none
  | .siteStart => none
  | .siteSettled _ => none
  | .wakeTimeout _ => none
  | .napEntry _ => none
  | .sleepEntry _ => none
  | .pwrok => none
  | .inputLoss _ => none
  | .inputLow => none
  | .resetN => none
  | .boot => none
  | .nvBatch _ => none
  | .nvBatchDone => none
  | .fwImage _ _ _ _ => none
  | .fwActivate _ _ => none
  | .fwCommit _ _ => none
  | .ownerKey _ _ => none
  | .ownerRelease _ _ => none
  | .credentialEpoch _ _ => none
  | .fabricCredential _ _ _ _ => none
  | .sealInstall _ _ _ _ _ => none
  | .sealClear _ _ _ => none
  | .attestNonce _ _ => none
  | .attestSigned => none
  | .alertNRelease => none
  | .mgmtLinkChange _ => none
  | .plcaBeacon => none
  | .negotiationFailed _ => none
  | .napWakeDone _ => none
  | .vWinDone _ _ => none
  | .vaonUp => none

/-- A request of a session is served at once (R43 to R46): the controller serves requests, the path is open, the message
is authentic, new and of its row's `TYPE`, and no write waits for the store. -/
structure State.Takes (s : State) (h : Hdr) (x : Session) : Prop where
  alive : s.alive = true
  reached : h.path = .inband → s.inbandShut = false
  mode : s.mode ≠ 3
  session : s.session h.session.toNat = some x
  authentic : h.tagOk = true
  type : h.otherType = none
  fresh : x.responses.find? (fun r => r.1 == h.seq) = none
  window : ∀ n, x.newest = some n → newer n h.seq = true ∨ behind n h.seq ≤ 16
  stored : s.nvRun = none
  queued : s.nvQ = []
  waiting : s.mgmtQ = []

/-- What has come of a `SEG_WRITE` sequence before a segment at an offset, or none where the segment does not follow on
what came before it (R36). -/
def Session.before (x : Session) (key offset : Nat) : Option (List Byte) :=
  if offset = 0 then some []
  else x.seg.bind (fun g => if g.key = key ∧ g.data.length = offset then some g.data else none)

/-- A message without a session is served at once (R28, R41, R43): the controller serves requests, the path is open, and no
write waits for the store. -/
structure State.Hears (s : State) (path : MgmtPath) : Prop where
  alive : s.alive = true
  reached : path = .inband → s.inbandShut = false
  stored : s.nvRun = none
  queued : s.nvQ = []

/-- A host request with `n` bytes of payload that names a context is served (R350, R351): host transport runs, the
association is open under the edition of the header, the payload is as long as the header says and the edition allows, T1
comes over IPv4, and the association's scope reaches the context's polder. -/
structure State.Serves (s : State) (h : HostHdr) (a : Association) (ctx n : Nat) : Prop where
  hosting : s.hosting = true
  assoc : s.assocs.find? (fun b => b.num == h.assoc) = some a
  version : a.edition = 1 → h.ipv6 = false
  edition : h.edition.toNat = a.edition
  length : h.length.toNat = n
  limit : n ≤ hostLimit a.edition
  known : ctx < 4096
  scope : a.scope.getLsbD (polderOf ctx) = true

/-- Whether the numbers of a table rise, so that it lists each at most once. -/
def rising {α : Type} : List (Nat × α) → Bool
  | [] => true
  | [_] => true
  | (a, _) :: (b, y) :: r => decide (a < b) && rising ((b, y) :: r)

/-! ### Invariants -/

/-- Memory, its check storage and the work counters are held in their canonical form, and no core or context is listed
twice. -/
def State.canonical (s : State) : Bool :=
  Memory.wf s.mem && Store.wf s.check && Store.wf s.counters && rising s.cores && rising s.ctxs

end Sys2Proof.Machine
end

