-- ==== Sys2Proof/Certificates/Slice0/Obligations.lean ====
section
/-! DEFINITION. The statements for the provers. -/

open Sys2Proof Sys2Proof.Machine

/-! ### The queue -/

/-- The command at the front of the queue takes effect on the state whose queue is the rest. -/
def Obligations.StepRunsTheFront : Prop :=
  ∀ (s : State) (c : Instr) (rest : List Instr), s.pending = c :: rest → step s = exec c { s with pending := rest }

/-! ### Scalar slots (R51, R54, R55, R57 to R62) -/

/-- The eleven results of R58 write their register, and its six compares write their predicate; of the rest of the core only
the bundle address changes. -/
def Obligations.ScalarResults : Prop :=
  (∀ (s : State) (h : SlotAt) (f : SFields),
     let k := s.core (coreOf h)
     let a := k.getG f.srcA
     let b := k.getG f.srcB + f.imm
     let n := b.toNat % 64
     (s.Acts h (.add f) → Gives (.sAdd h f) s h (k.next.setG f.dst (a + b)))
     ∧ (s.Acts h (.sub f) → Gives (.sSub h f) s h (k.next.setG f.dst (a - b)))
     ∧ (s.Acts h (.mul f) → Gives (.sMul h f) s h (k.next.setG f.dst (a * b)))
     ∧ (s.Acts h (.and f) → Gives (.sAnd h f) s h (k.next.setG f.dst (a &&& b)))
     ∧ (s.Acts h (.or f) → Gives (.sOr h f) s h (k.next.setG f.dst (a ||| b)))
     ∧ (s.Acts h (.xor f) → Gives (.sXor h f) s h (k.next.setG f.dst (a ^^^ b)))
     ∧ (s.Acts h (.shl f) → Gives (.sShl h f) s h (k.next.setG f.dst (a <<< n)))
     ∧ (s.Acts h (.shr f) → Gives (.sShr h f) s h (k.next.setG f.dst (a >>> n)))
     ∧ (s.Acts h (.sar f) → Gives (.sSar h f) s h (k.next.setG f.dst (a.sshiftRight n)))
     ∧ (s.Acts h (.min f) → Gives (.sMin h f) s h (k.next.setG f.dst (if a.toInt ≤ b.toInt then a else b)))
     ∧ (s.Acts h (.max f) → Gives (.sMax h f) s h (k.next.setG f.dst (if a.toInt ≤ b.toInt then b else a))))
  ∧ (∀ (s : State) (h : SlotAt) (f : SFields),
       let k := s.core (coreOf h)
       let a := k.getG f.srcA
       let b := k.getG f.srcB + f.imm
       (s.Acts h (.cmpEq f) → Gives (.sCmpEq h f) s h (k.next.setP f.pdst (decide (a = b))))
       ∧ (s.Acts h (.cmpNe f) → Gives (.sCmpNe h f) s h (k.next.setP f.pdst (decide (a ≠ b))))
       ∧ (s.Acts h (.cmpLt f) → Gives (.sCmpLt h f) s h (k.next.setP f.pdst (decide (a.toInt < b.toInt))))
       ∧ (s.Acts h (.cmpLtu f) → Gives (.sCmpLtu h f) s h (k.next.setP f.pdst (decide (a.toNat < b.toNat))))
       ∧ (s.Acts h (.cmpLe f) → Gives (.sCmpLe h f) s h (k.next.setP f.pdst (decide (a.toInt ≤ b.toInt))))
       ∧ (s.Acts h (.cmpLeu f) → Gives (.sCmpLeu h f) s h (k.next.setP f.pdst (decide (a.toNat ≤ b.toNat)))))

/-- R62: S.LD and S.ST at a byte address that is a multiple of 8 and below 65,536 move one 64-bit word; any other address
takes `ILLEGAL_BUNDLE` with detail 4 and none of the slot's effect. -/
def Obligations.ScalarMemory : Prop :=
  (∀ (s : State) (h : SlotAt) (f : SFields),
     let k := s.core (coreOf h)
     let a := (k.getG f.srcA + f.imm).toNat
     a % 8 = 0 → a < 65536 → k.guard h.pred h.pneg = true →
     (s.Ready h (.ld f) → Gives (.sLd h f) s h (k.next.setG f.dst (cell k.sstore (a / 8))))
     ∧ (s.Ready h (.st f) →
         Gives (.sSt h f) s h { k.next with sstore := putCell k.sstore (a / 8) (k.getG f.srcB) }))
  ∧ (∀ (s : State) (h : SlotAt) (f : SFields),
       let n := coreOf h
       let k := s.core n
       let a := (k.getG f.srcA + f.imm).toNat
       let taken := (s.setCore n k).faultAtIssue n
         { code := faultIllegal, detail := 4, slot := h.slot.toNat, bundle := k.pc, more := 0 }
       ¬ (a % 8 = 0 ∧ a < 65536) → k.guard h.pred h.pneg = true → (taken.core n).quiet = true →
       (s.Ready h (.ld f) → exec (.sLd h f) s = .next taken) ∧ (s.Ready h (.st f) → exec (.sSt h f) s = .next taken))

/-- The system values of S.SYS (R59); the cycles of selector 7 are a free value. -/
def Obligations.ScalarSystemValues : Prop :=
  ∀ (s : State) (h : SlotAt) (f : SFields) (c : W12),
    let n := coreOf h
    let k := s.core n
    k.ctx = some c → s.Acts h (.sys f) →
    (f.imm = 0 → Gives (.sSys h f) s h (k.next.setG f.dst (BitVec.ofNat 64 n)))
    ∧ (f.imm = 1 → Gives (.sSys h f) s h (k.next.setG f.dst (BitVec.ofNat 64 k.rank)))
    ∧ (f.imm = 2 → Gives (.sSys h f) s h (k.next.setG f.dst (BitVec.ofNat 64 (s.ctx c.toNat).cores.length)))
    ∧ (f.imm = 3 → Gives (.sSys h f) s h (k.next.setG f.dst (c.setWidth 64)))
    ∧ (f.imm = 4 → Gives (.sSys h f) s h (k.next.setG f.dst ((c.extractLsb' 8 4).setWidth 64)))
    ∧ (f.imm = 5 → Gives (.sSys h f) s h (k.next.setG f.dst (BitVec.ofNat 64 (n / 9))))
    ∧ (f.imm = 6 → Gives (.sSys h f) s h (k.next.setG f.dst (BitVec.ofNat 64 (s.ctx c.toNat).mEd)))
    ∧ (f.imm = 7 → Gives (.sSys h f) s h (k.next.setG f.dst (Config.freeBits 64 s.free)) State.usedFree)

/-- g0 reads 0 and p0 reads 1, and a write of either is discarded; any other register reads back what was written and
leaves the others alone (R51). -/
def Obligations.RegisterZero : Prop :=
  ∀ (k : CoreState) (r q : BitVec 6) (v : W64) (i j : BitVec 4) (b : Bool),
    k.getG 0 = 0 ∧ k.setG 0 v = k ∧ k.getP 0 = true ∧ k.setP 0 b = k
    ∧ (r ≠ 0 → (k.setG r v).getG r = v) ∧ (q ≠ r → (k.setG r v).getG q = k.getG q)
    ∧ (i ≠ 0 → (k.setP i b).getP i = b) ∧ (j ≠ i → (k.setP i b).getP j = k.getP j)

/-- A slot that is not the last of its bundle is kept for it in slot order and has no other effect (log entry 20: the model
takes a bundle slot by slot); a bundle of one slot whose guard does not hold takes its place in the program and does
nothing else (R54). -/
def Obligations.BundlesGather : Prop :=
  (∀ (i : Instr) (s : State) (h : SlotAt) (op : SlotOp),
     slotCommand i = some (h, op) → h.last = false → s.coreEnabled (coreOf h) = true →
     (s.core (coreOf h)).ctx.isSome = true → op.slotOk h.slot.toNat = true →
     exec i s = .next (s.setCore (coreOf h)
       { s.core (coreOf h) with staged := putSlot (slotOf h op) (s.core (coreOf h)).staged }))
  ∧ (∀ (i : Instr) (s : State) (h : SlotAt) (op : SlotOp),
       slotCommand i = some (h, op) → s.Ready h op → (s.core (coreOf h)).guard h.pred h.pneg = false →
       s.slotFault (coreOf h) (slotOf h op) false = none → Gives i s h (s.core (coreOf h)).next)

/-! ### Address generators, transfers and waits (R65, R83, R88, R126, R150, R215, R218, R271, R281) -/

/-- A.LOOP binds the walk of its descriptor table to its generator, at its start. The operations of the A, M and X slots that
take more than one cycle and concern their own core alone begin under their tag, with what they copy at issue and the
footprints of R65; they change nothing else yet. -/
def Obligations.OperationsBegin : Prop :=
  (∀ (s : State) (h : SlotAt) (f : AFields) (w : Walk),
     let k := s.core (coreOf h)
     s.Acts h (.aLoop f) → walkOf (cells k.sstore f.desc.toNat 35) (f.imm.toNat % 4) = some w →
     Gives (.aLoop h f) s h { k.next.atPos [f.ag.toNat] 0 with ag := tblPut k.ag f.ag.toNat w })
  ∧ (∀ (s : State) (h : SlotAt),
       let k := s.core (coreOf h)
       let begins (i : Instr) (o : SlotOp) (tag : BitVec 4) (op : Op) : Prop :=
         s.Acts h o →
           Gives i s h (k.next.holding (s.begun h o (some tag.toNat) op)) (State.starts (coreOf h) op)
       let update (f : UFields) (func : Nat) : Op :=
         .update func (k.wsLine f.wsLine f.gOff) (k.wsBytes (64 * k.wsLine f.wsLine f.gOff) 128)
       (∀ f : AFields,
         begins (.aLoad h f) (.aLoad f) f.tag
           (.load f.ag.toNat (k.walkD f.ag.toNat) (k.getG f.gBase + f.imm) f.wsLine.toNat)
         ∧ begins (.aStore h f) (.aStore f) f.tag
             (.store f.ag.toNat (k.walkD f.ag.toNat) (k.getG f.gBase + f.imm) f.wsLine.toNat)
         ∧ begins (.aSample h f) (.sample f) f.tag (.sample (k.getG f.gBase) k.rng f.wsLine.toNat))
       ∧ (∀ f : MFields,
         begins (.mStream h f) (.stream false f) f.tag (.stream (k.streamJob false none f))
         ∧ begins (.mStreamAttn h f) (.stream true f) f.tag (.stream (k.streamJob true none f))
         ∧ begins (.mDrain h f) (.drain false f) f.tag (.drain (k.drainJob false f))
         ∧ begins (.mDrainAttn h f) (.drain true f) f.tag (.drain (k.drainJob true f)))
       ∧ (∀ f : GFields, begins (.mGstream h f) (.gstream f) f.m.tag
           (.stream (k.streamJob false (some (f.colFirst.toNat, f.colCount.toNat)) f.m)))
       ∧ (∀ f : UFields,
         begins (.updateNorm h f) (.update 1 f) f.tag (update f 1)
         ∧ begins (.updateApply h f) (.update 2 f) f.tag (update f 2)
         ∧ begins (.updateScale h f) (.update 3 f) f.tag (update f 3))
       ∧ (∀ f : XFields,
         begins (.xPut h f) (.put f) f.tag
           (.put (k.getG f.gA).toNat (putLine f) (putLines f) (bits f.imm 3 0))
         ∧ begins (.xRecv h f) (.recv f) f.tag (.recv (putLine f) (putLines f))
         ∧ begins (.xIload h f) (.iload f) f.tag (.iload (k.getG f.gA) f.imm.toNat f.target.toNat)))

/-- A wait passes once its tag is free, and a fence once no tag is held; a bundle whose slot names a tag that is held stands
at the head of its core's queue, and nothing else changes (R65). -/
def Obligations.WaitsPassOrHold : Prop :=
  (∀ (s : State) (h : SlotAt) (a : AFields) (m : MFields) (x : XFields),
     let k := s.core (coreOf h)
     (s.Acts h (.aWait a) → k.tagHeld a.tag = false ∧ Gives (.aWait h a) s h k.next)
     ∧ (s.Acts h (.mWait m) → k.tagHeld m.tag = false ∧ Gives (.mWait h m) s h k.next)
     ∧ (s.Acts h (.xWait x) → k.tagHeld x.tag = false ∧ Gives (.xWait h x) s h k.next)
     ∧ (s.Acts h (.fence x) → (∀ o ∈ k.ops, o.tag = none) ∧ Gives (.xFence h x) s h k.next))
  ∧ (∀ (i : Instr) (s : State) (h : SlotAt) (op : SlotOp) (t : BitVec 4),
       let n := coreOf h
       let k := s.core n
       slotCommand i = some (h, op) → s.coreEnabled n = true → s.issuing n = true → k.staged = [] → k.issueQ = [] →
       k.pc < 2048 → op.slotOk h.slot.toNat = true → h.last = true → k.guard h.pred h.pneg = true →
       op.tag = some t → k.tagHeld t = true →
       exec i s = .next (s.setCore n { k with issueQ := [[slotOf h op]] }))

/-- An unfinished operation of a core's own unit does what remains of it, its generators stand past their walks, and its tag
is free; or its fault waits for the core's next bundle boundary, it holds no tag any more, and its generators stand at the
element that faulted. A sample or an update that another of its core goes before waits for it (R271, R283). -/
def Obligations.OperationsEnd : Prop :=
  ∀ (s : State) (core : Byte) (tag : BitVec 4) (a : AsyncOp),
    let n := core.toNat
    let r := s.seeing n a (fun u => u.runOp n a.op)
    let t := r.1.onCore n (fun k => k.walked a.op r.2)
    let done (i : Instr) : Prop :=
      (r.2 = none → (t.core n).quiet = true → exec i s = .next (t.onCore n (fun k => k.without a)))
      ∧ (∀ f : WalkFault, r.2 = some f →
          exec i s = .next (t.onCore n (fun k => (k.without a).noteFault
            { code := f.code, detail := f.detail, slot := a.slot, bundle := a.bundle, more := 0 })))
    let ends (i : Instr) (kind : Op → Bool) : Prop := (s.core n).opUnder tag.toNat kind = some a → done i
    let endsFirst (i : Instr) (kind : Op → Bool) : Prop :=
      (s.core n).ops.find? (fun b => kind b.op) = some a →
        (a.tag = some tag.toNat → done i) ∧ (a.tag ≠ some tag.toNat → exec i s = .next s)
    ends (.aLoadDone core tag) Op.isLoad ∧ ends (.aStoreDone core tag) Op.isStore
    ∧ ends (.mStreamDone core tag) Op.isStream ∧ ends (.mDrainDone core tag) Op.isDrain
    ∧ ends (.iloadDone core tag) Op.isIload ∧ endsFirst (.sampleDone core tag) Op.isSample
    ∧ endsFirst (.updateDone core tag) Op.isUpdate

/-! ### Vector slots (R154, R168, R171 to R185, R189, R279) -/

/-- The vector operations write their register and count themselves and their numeric events. -/
def Obligations.VectorResults : Prop :=
  ∀ (s : State) (h : SlotAt) (f : VFields),
    let n := coreOf h
    let p := s.polderOn n
    let k := s.core n
    let j := h.slot.toNat
    let sat := !(s.coreCtx n).e4nan
    let out (i : Instr) (r : VResult) (more : State → State) : Prop :=
      Gives i s h (k.next.setV f.vd r.value) (fun u => more (u.vecCounts n p r))
    let sfu (u : State) : State := u.coreBump n 10 3 (4096 / laneW f.ty.toNat)
    let red (u : State) : State := u.coreBump n 10 5 1
    (s.Acts h (.vFma f) → out (.vFma h f) (vFmaOf k j f) id)
    ∧ (s.Acts h (.vAdd f) → out (.vAdd h f) (vAddOf k j f) id)
    ∧ (s.Acts h (.vMul f) → out (.vMul h f) (vMulOf k j f) id)
    ∧ (s.Acts h (.vMax f) → out (.vMax h f) (vMaxOf k f) id)
    ∧ (s.Acts h (.vMin f) → out (.vMin h f) (vMinOf k f) id)
    ∧ (s.Acts h (.vSel f) → out (.vSel h f) (vSelOf k f) id)
    ∧ (s.Acts h (.vCmp f) → out (.vCmp h f) (vCmpOf k f) id)
    ∧ (s.Acts h (.vCvt f) → out (.vCvt h f) (vCvtOf k j sat f) id)
    ∧ (s.Acts h (.vExp2 f) → out (.vExp2 h f) (vExp2Of k sat f) sfu)
    ∧ (s.Acts h (.vLog2 f) → out (.vLog2 h f) (vLog2Of k sat f) sfu)
    ∧ (s.Acts h (.vRsum 0 f) → out (.vRsumSum h f) (vRsumSumOf k f) red)
    ∧ (s.Acts h (.vRsum 1 f) → out (.vRsumMax h f) (vRsumMaxOf k f) red)
    ∧ (s.Acts h (.vRsum 2 f) → out (.vRsumStat h f) (vRsumStatOf k f) red)
    ∧ (s.Acts h (.vRsum 3 f) → out (.vRsumStat0 h f) (vRsumStat0Of k f) red)
    ∧ (s.Acts h (.vRsum 4 f) → out (.vRsumCombine h f) (vRsumCombineOf k f) red)
    ∧ (s.Acts h (.vRsum 5 f) → out (.vRsumFinish h f) (vRsumFinishOf k f) red)

/-- Every element of a register sum, product or fused product is that of the elements at its place: wrapped for 32-bit
integers, and for the floating types the exact value rounded once. -/
def Obligations.VectorElements : Prop :=
  ∀ (k : CoreState) (slot : Nat) (f : VFields) (e : Nat),
    f.immSel = false → e < 4096 / laneW f.ty.toNat →
    let w := laneW f.ty.toNat
    let fmt := laneFmt f.ty.toNat
    let a := (elem w (k.getV f.va) e)
    let b := (elem w (k.getV f.vb) e)
    let c := (elem w (k.getV f.vc) e)
    let r := elemRnd k.rng slot f.rnd.toNat e (patternOf f.ty.toNat a.toNat)
    let x := fmt.decode a.toNat
    let y := fmt.decode b.toNat
    let z := fmt.decode c.toNat
    (f.ty = 3 →
      elem w (vFmaOf k slot f).value e = a * b + c ∧ elem w (vAddOf k slot f).value e = a + b
      ∧ elem w (vMulOf k slot f).value e = a * b)
    ∧ (f.ty ≠ 3 →
      elem w (vFmaOf k slot f).value e = BitVec.ofNat w (fmt.write r true ((x.mul y).add z)).1
      ∧ elem w (vAddOf k slot f).value e = BitVec.ofNat w (fmt.write r true (x.add y)).1
      ∧ elem w (vMulOf k slot f).value e = BitVec.ofNat w (fmt.write r true (x.mul y)).1)

/-- V.LD and V.ST move the 512 bytes of eight lines, in order. -/
def Obligations.VectorMemory : Prop :=
  ∀ (s : State) (h : SlotAt) (f : VFields),
    let n := coreOf h
    let k := s.core n
    let a := 64 * (f.wsLine.toNat + (k.getG f.gOff).toNat)
    (s.Acts h (.vLd f) → ∃ v, (∀ i, i < 512 → elem 8 v i = cell k.ws (a + i))
      ∧ Gives (.vLd h f) s h (k.next.setV f.vd v) (fun u => u.coreBump n 10 2 1))
    ∧ (s.Acts h (.vSt f) → ∃ ws,
        (∀ i, i < 512 → cell ws (a + i) = elem 8 (k.getV f.va) i)
        ∧ (∀ b, b < a ∨ a + 512 ≤ b → cell ws b = cell k.ws b)
        ∧ Gives (.vSt h f) s h { k.next with ws := ws } (fun u => u.coreBump n 10 2 1))

/-- V.WIN takes its pipe with the value it will write; V_WIN_DONE writes that register and the counters and frees the pipe. -/
def Obligations.WindowRuns : Prop :=
  (∀ (s : State) (h : SlotAt) (f : WFields),
     let n := coreOf h
     let k := s.core n
     let began (i : Instr) (op : Nat) : Prop :=
       let r := winOf k (s.coreCtx n).mEd op f
       Gives i s h (k.next.holding (s.begun h (.vWin op f) none
         (.win (h.slot == 6) f.vd r.1 (f.kh.toNat * f.kw.toNat))))
         (fun u => (u.numbered.tally (s.polderOn n) r.2).coreBump n 10 2 1)
     (s.Acts h (.vWin 0 f) → began (.vWinMac h f) 0) ∧ (s.Acts h (.vWin 1 f) → began (.vWinMax h f) 1)
     ∧ (s.Acts h (.vWin 2 f) → began (.vWinSum h f) 2))
  ∧ (∀ (s : State) (core : Byte) (pipe : Bool) (a : AsyncOp) (vd : BitVec 6) (v : BitVec 4096) (taps : Nat),
       let n := core.toNat
       let k := s.core n
       k.ops.find? (fun o => match o.op with
         | .win b _ _ _ => b == pipe
         | _ => false) = some a →
       a.op = .win pipe vd v taps → k.quiet = true →
       ∃ t : State, exec (.vWinDone core pipe) s = .next t ∧ t.core n = (k.setV vd v).without a
         ∧ (∀ m, m ≠ n → t.core m = s.core m)
         ∧ t = ({ s with cores := t.cores }.coreBump n 9 3 1).coreBump n 9 4 taps)

/-- CLEAR, ACCUM and SETUP change the comparator's state alone; a DECIDE that leaves its gate open writes the predicate
0, clears the tile state and counts its outcome. -/
def Obligations.Comparator : Prop :=
  ∀ (s : State) (h : SlotAt) (f : LFields) (j : SluiceJob),
    let n := coreOf h
    let p := s.polderOn n
    let k := s.core n
    let one (u : State) : State := u.coreBump n 10 2 1
    (s.Acts h (.sluice 0 f) →
      Gives (.sluiceClear h f) s h { k.next with sluice := { k.sluice with d := 0, y := 0, u := false } } one)
    ∧ (s.Acts h (.sluice 1 f) →
      Gives (.sluiceAccum h f) s h { k.next with sluice := sluiceAccumOf k f } (fun u => (one u).coreBump n 13 1 1))
    ∧ (s.Acts h (.sluice 3 f) →
      Gives (.sluiceSetup h f) s h
        { k.next with sluice := { job := some (sluiceJobOf (k.wsBytes (64 * k.wsLine f.wsLine f.gOff) 1088)), d := 0,
                                  y := 0, u := false } } one)
    ∧ (k.sluice.job = some j → decideOf j k.sluice f.block.toNat ≠ 0 → s.Acts h (.sluice 2 f) →
      Gives (.sluiceDecide h f) s h
        { k.next.setP f.pdst false with sluice := { k.sluice with d := 0, y := 0, u := false } }
        (fun u =>
          let unfit := if k.sluice.u then 1 else 0
          ((((one u).coreBump n 13 2 1).coreBump n 13 4 unfit).bump (0x7120 + p) 1 1 |>.bump (0x7120 + p)
            (decideEntry (decideOf j k.sluice f.block.toNat)) 1).event (0x7130 + p) 0 unfit))

/-- V.RNG: the seven functions. -/
def Obligations.Generators : Prop :=
  ∀ (s : State) (h : SlotAt) (f : RFields),
    let n := coreOf h
    let p := s.polderOn n
    let k := s.core n
    let a := 64 * (f.wsLine.toNat + (k.getG f.gOff).toNat)
    let one (u : State) : State := u.coreBump n 10 2 1
    let blocks (w : Nat) (u : State) : State := (one u).coreBump n 14 1 (blocksOf (k.getG f.gIdx) w)
    (s.Acts h (.rng 0 f) →
      Gives (.rngLoadstate h f) s h
        { k.next with rng := { k.rng with seed := BitVec.ofNat 256 (ofBytes (cells k.ws a 32)),
                                          step := BitVec.ofNat 32 (ofBytes (cells k.ws (a + 32) 4)) } } one)
    ∧ (s.Acts h (.rng 1 f) → Gives (.rngBits h f) s h (k.next.setV f.vd (rngBitsOf k f)) (blocks 128))
    ∧ (s.Acts h (.rng 2 f) → Gives (.rngUniform h f) s h (k.next.setV f.vd (rngUniformOf k f)) (blocks 128))
    ∧ (s.Acts h (.rng 3 f) → Gives (.rngNormal h f) s h (k.next.setV f.vd (rngNormalOf k f).1)
        (fun u => (blocks (4096 / laneW f.ty.toNat) u).tally p (rngNormalOf k f).2))
    ∧ (s.Acts h (.rng 4 f) → Gives (.rngDrop h f) s h (k.next.setV f.vd (rngDropOf k f).1)
        (fun u => (one u).coreBump n 14 3 (rngDropOf k f).2))
    ∧ (s.Acts h (.rng 5 f) →
      Gives (.rngXset h f) s h { k.next with rng :=
        if h.slot = 5 then { k.rng with xbase0 := k.getG f.gIdx } else { k.rng with xbase1 := k.getG f.gIdx } } one)
    ∧ (s.Acts h (.rng 6 f) →
      Gives (.rngDset h f) s h { k.next with rng := { k.rng with dxbase := k.getG f.gIdx, dxrow := f.imm32 } } one)

/-! ### Control, work counters and exchanges (R57, R68 to R72) -/

/-- Jumps, calls and returns take effect after their bundle, and the next bundle issued is the target. -/
def Obligations.Jumps : Prop :=
  ∀ (s : State) (h : SlotAt) (f : XFields),
    let k := s.core (coreOf h)
    (s.Acts h (.jmp f) → Gives (.xJmp h f) s h { k with pc := f.target.toNat })
    ∧ (s.Acts h (.br f) → Gives (.xBr h f) s h { k with pc := f.target.toNat })
    ∧ (s.Acts h (.call f) → k.calls.length < 16
        ∧ Gives (.xCall h f) s h { k with pc := f.target.toNat, calls := BitVec.ofNat 11 (k.pc + 1) :: k.calls })
    ∧ (∀ (r : BitVec 11) (rest : List (BitVec 11)), k.calls = r :: rest → s.Acts h (.ret f) →
        Gives (.xRet h f) s h { k with pc := r.toNat, calls := rest })

/-- A core that executes X.BAR or X.HALT issues nothing more: it waits at the barrier of its scope, or has halted, which its
status record notes. Once every core of a barrier's scope has arrived, all of them are let go together and nothing else
changes; before, nothing changes at all. -/
def Obligations.BarriersAndHalt : Prop :=
  (∀ (s : State) (h : SlotAt) (f : XFields),
     let n := coreOf h
     let k := s.core n
     (s.Acts h (.bar f) → Gives (.xBar h f) s h { k.next with hold := .barrier f.scope })
     ∧ (s.Acts h (.halt f) → Gives (.xHalt h f) s h { k.next with hold := .halted } (fun u => u.event (coreIndex n 2) 3 1)))
  ∧ (∀ (s : State) (ctx : W12) (scope : Bool) (site : BitVec 4),
       let cs := s.joined ctx.toNat scope site.toNat
       ((s.ctx ctx.toNat).state = 3 → cs ≠ [] → (∀ n ∈ cs, s.arrived' n scope = true ∧ (s.core n).quiet = true) →
         ∃ t : State, exec (.barrierRelease ctx scope site) s = .next t
           ∧ (∀ n ∈ cs, t.core n = { s.core n with hold := .none }) ∧ (∀ n, n ∉ cs → t.core n = s.core n)
           ∧ t = { s with cores := t.cores })
       ∧ ((∃ n ∈ cs, s.arrived' n scope = false) → exec (.barrierRelease ctx scope site) s = .next s))

/-- X.FETCHADD and X.CSET hold their tag and send their request to the controller of the counter. A controller serves its
requests one at a time: the counter takes the sum or the operand, the core that asked gets the old value and its tag
back, and no other counter and no other core changes. -/
def Obligations.CountersServe : Prop :=
  (∀ (s : State) (h : SlotAt) (f : XFields) (c : W12),
     let n := coreOf h
     let k := s.core n
     let q := counterSite (k.getG f.gA) * 16 + bits (k.getG f.gA) 7 4
     let req (set : Bool) : CtrReq :=
       { core := n, ctx := c, opened := (s.ctx c.toNat).openAt, tag := f.tag.toNat, dst := f.gDst,
          counter := bits (k.getG f.gA) 3 0, isSet := set,
         operand := k.getG f.gB + f.imm }
     let asked (set : Bool) (u : State) : State :=
       { u.numbered with ctrQ := tblPut s.ctrQ q ((tblFind s.ctrQ q).getD [] ++ [req set]) }.coreBump n 4 7 1
     k.ctx = some c →
     (s.Acts h (.fetchadd f) →
       Gives (.xFetchadd h f) s h (k.next.holding (s.begun h (.fetchadd f) (some f.tag.toNat) (.counter f.gDst)))
         (asked false))
     ∧ (s.Acts h (.cset f) →
       Gives (.xCset h f) s h (k.next.holding (s.begun h (.cset f) (some f.tag.toNat) (.counter f.gDst))) (asked true)))
  ∧ (∀ (s : State) (site channel : BitVec 4) (r : CtrReq),
       let q := 16 * site.toNat + channel.toNat
       let a := 16 * q + r.counter
       let k := s.core r.core
       tblFind s.ctrQ q = some [r] → k.ctx = some r.ctx → (s.ctx r.ctx.toNat).openAt = r.opened → k.quiet = true →
       ∃ t : State, exec (.counterServed site channel) s = .next t
         ∧ cell t.counters a = (if r.isSet then r.operand else cell s.counters a + r.operand)
         ∧ (∀ b, b ≠ a → cell t.counters b = cell s.counters b)
         ∧ t.core r.core = (k.setG r.dst (cell s.counters a)).freeTag r.tag
         ∧ (∀ n, n ≠ r.core → t.core n = s.core n)
         ∧ tblFind t.ctrQ q = some [] ∧ (∀ q', q' ≠ q → tblFind t.ctrQ q' = tblFind s.ctrQ q')
         ∧ t = { s with counters := t.counters, ctrQ := t.ctrQ, cores := t.cores })

/-- The last line of a put reaches the receive that names its rank and tag: the receiver's lines are the sender's, as they
stood before the put's bundle (R56), both tags are free, and nothing else changes; lengths that differ are a fault of the
receiver, whose receive has had its one put (R67). -/
def Obligations.ExchangeCompletes : Prop :=
  ∀ (s : State) (core : Byte) (tag : BitVec 4) (c : W12) (src : Nat) (a b : AsyncOp) (line n to' m r t0 : Nat),
    let d := core.toNat
    (s.core d).ctx = some c → (s.core d).opUnder tag.toNat Op.isRecv = some b →
    earliest (s.putsTo c.toNat (s.core d).rank tag.toNat) = some (src, a) → src ≠ d →
    a.op = .put r line n t0 → b.op = .recv to' m →
    (n = m → (s.core src).quiet = true → (s.core d).quiet = true →
      ∃ t : State, exec (.exchangeDone core tag) s = .next t
        ∧ t.core d
          = ((s.core d).putWs (64 * to') (cells ((s.core src).seenBy a).ws (64 * line) (64 * n))).without b
        ∧ t.core src = (s.core src).without a ∧ (∀ q, q ≠ d → q ≠ src → t.core q = s.core q)
        ∧ t = { s with cores := t.cores })
    ∧ (n ≠ m → exec (.exchangeDone core tag) s = .next (s.onCore d (fun k => (k.without b).noteFault
        { code := faultIllegal, detail := 7, slot := b.slot, bundle := b.bundle, more := 0 })))

/-! ### The key-value cache and the Sluice (R234 to R241, R254) -/

/-- An X.SEQ holds its tag and joins the queue of the polder's cache home. The home serves the first request it does not hold:
one it accepts takes effect, and the core that asked gets the length the sequence had, 0 for OPEN and FORK, and its tag
back; one it refuses changes nothing of the cache, and its fault waits for the core's next bundle boundary. -/
def Obligations.SequencesServe : Prop :=
  (∀ (s : State) (h : SlotAt) (f : XFields) (c : W12),
     let n := coreOf h
     let p := s.polderOn n
     let k := s.core n
     let asked (fn : Nat) (u : State) : State :=
       (u.numbered.onPolder p (fun q => { q with homeQ := q.homeQ ++
         [.seq { ctx := c, rank := k.rank, tag := f.tag.toNat, dst := f.gDst, fn := fn, a := k.getG f.gA, b := k.getG f.gB,
                 src := bits f.imm 31 16, slot := h.slot.toNat, bundle := k.pc }] })).mark (0x7020 + p) 7
     let asks (i : Instr) (fn : Nat) : Prop :=
       s.Acts h (.seq fn f) →
       Gives i s h (k.next.holding (s.begun h (.seq fn f) (some f.tag.toNat) (.seq f.gDst))) (asked fn)
     k.ctx = some c → (∀ r, s.servable p = some r → ∃ x, r = .seq x) →
     asks (.seqOpen h f) 0 ∧ asks (.seqFork h f) 1 ∧ asks (.seqClose h f) 2 ∧ asks (.seqSetlen h f) 3
     ∧ asks (.seqQuery h f) 4)
  ∧ (∀ (s : State) (polder : BitVec 4) (r : SeqReq),
       let p := polder.toNat
       let home := (s.granted p (.seq r)).seqHome p r
       let v : W64 := if r.fn = 0 ∨ r.fn = 1 then 0 else BitVec.ofNat 64 (home.seqEntry (seqNum r.a)).length
       let faults (u : State) (code : Nat) (detail : W64) : State := u.atRank r.ctx.toNat r.rank (fun k =>
         k.noteFault { code := code, detail := detail, slot := r.slot, bundle := r.bundle, more := 0 })
       s.servable p = some (.seq r) → s.calm = true → (∀ q ∈ (s.polder p).homeQ, ∃ x, q = .seq x) →
       (home.poison = none → home.seqCheck r = none → (home.seqDo r).poison = none →
         exec (.seqServed polder) s
           = .next ((home.seqDo r).close.atRank r.ctx.toNat r.rank (fun k => (k.setG r.dst v).freeTag r.tag)))
       ∧ (∀ f, home.poison = none → home.seqCheck r = some f →
           exec (.seqServed polder) s
             = .next (faults (home.state.kvFault p f).1 f.code (home.state.kvDetail f)))
       ∧ (∀ a, home.poison = some a →
           exec (.seqServed polder) s = .next (faults home.state faultUncorrectable a)))

/-- A.KVLOAD and A.KVAPPEND that their home accepts hold their tag: the load with the pages it has pinned and its image
gathered, the append with its entries resolved and its copies on write to be switched. A load's pins are released as it
ends; a copy on write moves its page-table entry to the new page and leaves the append one copy fewer to wait for; an
append that waits for none writes its rows as it ends. -/
def Obligations.CacheTransfers : Prop :=
  (∀ (s : State) (h : SlotAt) (f : KFields) (c : W12),
     let n := coreOf h
     let p := s.polderOn n
     let k := s.core n
     let j := k.kvJob f
     let x : KvReq := { ctx := c, rank := k.rank, tag := f.tag.toNat, slot := h.slot.toNat, bundle := k.pc }
     let asked (o : SlotOp) (op : Op) (q : List HomeReq) : State :=
       (((s.passed n).begin n (slotOf h o) k.pc (some f.tag) op (o.reads k (s.cacheCfg p)) (o.writes k (s.cacheCfg p))).onPolder
         p (fun y => { y with homeQ := q })).mark (0x7020 + p) 7
     let translated (i : Instr) (t : Translated) : Prop :=
       (t.state.core n).quiet = true →
       (t.fault = none → exec i s = .next (t.state.onCore n (fun q => q.setJob s.nextId t.job)))
       ∧ (∀ e, t.fault = some e →
           exec i s = .next (t.state.onCore n (fun q => (q.setJob s.nextId t.job).noteFault
             { code := e.1, detail := e.2, slot := h.slot.toNat, bundle := k.pc, more := 0 })))
     k.ctx = some c → (s.ctx c.toNat).images = [] → (s.ctx c.toNat).cores[k.rank]? = some n →
     ((s.polder p).homeQ = [] →
       (s.Acts h (.kvload f) →
         translated (.aKvload h f) ((asked (.kvload f) (.kvload j) []).kvLoad n p x j))
       ∧ (s.Acts h (.kvappend f) →
         translated (.aKvappend h f) ((asked (.kvappend f) (.kvappend j) []).kvAppend p j)))
     ∧ (∀ q, s.servable p = some (.seq q) →
       (s.Acts h (.kvload f) →
         exec (.aKvload h f) s = .next (asked (.kvload f) (.kvload j) ((s.polder p).homeQ ++ [.translate x])))
       ∧ (s.Acts h (.kvappend f) →
         exec (.aKvappend h f) s = .next (asked (.kvappend f) (.kvappend j) ((s.polder p).homeQ ++ [.translate x])))))
  ∧ (∀ (s : State) (core : Byte) (tag : BitVec 4) (c : W12) (a : AsyncOp) (j : KvJob) (e : W64) (old new : Nat)
       (rest : List (W64 × Nat × Nat)),
       let n := core.toNat
       let p := s.polderOn n
       let k := s.core n
       let asked := ((s.onCore n (fun q => q.setJob a.stamp { j with stage := .releasing })).onPolder p
         (fun q => { q with homeQ := [] })).mark (0x7020 + p) 7
       let home := j.pins.foldl Home.unpin (asked.home p)
       (k.kvUnder tag.toNat = some (a, j, false) → j.stage = .translated → k.ctx = some c →
           (s.ctx c.toNat).images = [] → (s.ctx c.toNat).cores[k.rank]? = some n → (s.polder p).homeQ = [] →
           home.poison = none → s.calm = true →
         exec (.kvPinRelease core tag) s = .next (home.close.onCore n (fun q => q.freeTag tag.toNat)))
       ∧ (k.opUnder tag.toNat Op.isAppend = some a → a.op = .kvappend j → j.cows = (e, old, new) :: rest →
           (s.cowSwitch p e old new).2 = none →
         exec (.cowSwitch core tag) s
           = .next ((s.cowSwitch p e old new).1.onCore n (fun q => q.setJob a.stamp { j with cows := rest })))
       ∧ (k.opUnder tag.toNat Op.isAppend = some a → a.op = .kvappend j → j.stage = .translated → j.cows = [] →
           s.calm = true → k.quiet = true →
         exec (.kvappendDone core tag) s
           = .next ((s.seeing n a (fun u => (u.kvWrite n p j, ()))).1.onCore n (fun q => q.without a))))

/-- The sluice home sets the bit of the first post that waits in the gate map, rewriting its code word; it counts every
post. A poisoned word is left as it is, and raises `UNCORRECTABLE` at the core that posted (R254, R260, R310). -/
def Obligations.PostServed : Prop :=
  ∀ (s : State) (polder : BitVec 4) (x : Post) (rest : List Post),
    let p := polder.toNat
    let own := polderOf x.ctx.toNat
    let u := (s.onPolder p (fun q => { q with posts := rest })).bump (0x7120 + own) 6 1
    let home : Requester := { polder := own, site := some (s.entry (0x7110 + own) 0 / 16) }
    let o := x.addr.toNat % 64
    let word := x.addr - BitVec.ofNat 64 o
    let r := u.readView home word 64
    (s.polder p).posts = x :: rest →
    (r.poison = none →
      exec (.sluicePostServed polder) s
        = .next (r.state.writeView home word (r.data.set o (r.data.getD o 0 ||| (1 : Byte) <<< x.bit))))
    ∧ (r.poison ≠ none →
      exec (.sluicePostServed polder) s
        = .next (r.state.atRank x.ctx.toNat x.rank (fun k => k.noteFault
            { code := faultUncorrectable, detail := x.addr, slot := x.slot, bundle := x.bundle, more := 0 })))

/-! ### Fabric transport and media engines (R368 to R374, R379, R383, R384) -/

/-- The four functions of X.FABRIC hold their tag and give their descriptor to the collective engine. An operation that is
ready to complete writes its status into the last byte of its descriptor and frees its tag. -/
def Obligations.FabricRuns : Prop :=
  (∀ (s : State) (h : SlotAt) (f : XFields) (c : W12) (ws : List W64),
     let n := coreOf h
     let k := s.core n
     let o : FabricOp :=
       { id := s.nextId, ctx := c, rank := k.rank, tag := f.tag.toNat, descAt := (k.getG f.gA).toNat,
         func := bits (ws.getD 0 0) 63 60, words := ws, nodes := [], sums := [], parts := [], results := [],
         closing := false, events := [], state := 0, fstatus := 0, slot := h.slot.toNat, bundle := k.pc }
     let t := ((s.passed n).begin n (slotOf h (.fabric f)) k.pc (some f.tag) (.fabric s.nextId) (fabricReads ws)
       (fabricWrites ws)).startFabric o
     k.ctx = some c → k.fabricWords f = some ws → (t.core n).quiet = true → s.Acts h (.fabric f) →
     exec (.fabricPut h f) s = .next t ∧ exec (.fabricAllreduce h f) s = .next t
     ∧ exec (.fabricReduce h f) s = .next t ∧ exec (.fabricBroadcast h f) s = .next t)
  ∧ (∀ (s : State) (o : FabricOp) (n : Nat),
       let k := s.core n
       let a := o.descAt + 56
       let u := { s with fabricOps := s.fabricOps.filter (fun x => x.id != o.id) }
       let v := if o.func = 2 ∨ o.func = 3 ∨ o.func = 4 then
           u.onCtx o.ctx.toNat (fun c => { c with group := c.group.map (fun g => { g with ended := g.ended ++ [o.collId] }) })
         else u
       let w := if o.fstatus = 2 then v.bump (0x6200 + polderOf o.ctx.toNat) 9 1 else v
       s.fabricOp o.id = some o → o.state = 1 → (s.ctx o.ctx.toNat).images = [] →
       (s.ctx o.ctx.toNat).cores[o.rank]? = some n → k.ctx = some o.ctx → s.calm = true →
       ∃ t : State, exec (.fabricDone o.id) s = .next t
         ∧ t.core n = (k.setScalar a ((k.scalar a >>> 8) <<< 8 ||| BitVec.ofNat 64 (o.fstatus % 256))).freeTag o.tag
         ∧ (∀ m, m ≠ n → t.core m = s.core m)
         ∧ t = { w with cores := t.cores })

/-- A peer's write that names a joined member, lies in its polder off every protected region, and in the scope of the peer's
credential, is written and acknowledged; another is refused and counted (R374). An abort ends the operation in progress
with status 2, and is counted (R373). A packet that is not acknowledged in time is sent again on the escape path, until
its retries are used up; one that has waited for a credit takes the escape path (R372). -/
def Obligations.FabricPackets : Prop :=
  (∀ (s : State) (src : W16) (group coll addr : W64) (member : W32) (packet n : Nat) (data arrived : List Byte) (c : Ctx)
     (g : Group) (l : FabricLink) (o : FabricOp),
     let p := polderOf n
     let put := Instr.fabricPacketRx (.put src group member packet addr data arrived)
     s.memberCtx group = some (n, c) → c.group = some g → s.link src = some l →
     (l.taken.contains packet = false → segmentsOk data arrived = true → g.mine = member.toNat →
         s.fabricWritable n l.scope addr data.length = true →
       exec put s
         = .next (((s.writeView (ioFor p) addr arrived).putLink { l with taken := l.taken ++ [packet] }).send
             (.fabricAck src packet)))
     ∧ (l.taken.contains packet = false → segmentsOk data arrived = true →
         (g.mine ≠ member.toNat ∨ s.fabricWritable n l.scope addr data.length = false) →
       exec put s = .next ((s.send (.fabricRefusal src packet)).bump (0x6200 + p) 8 1))
     ∧ (l.taken.contains packet = true → exec put s = .next (s.send (.fabricAck src packet)))
     ∧ (l.taken.contains packet = false → segmentsOk data arrived = false →
       exec put s = .next { s with arrived := s.arrived ++ [(0x6010, 0, 1)] })
     ∧ (coll ∉ g.ended →
         (∀ x ∈ s.fabricOps, x.ctx.toNat = n → x.collId = coll → x.collective = true → x.state ≠ 1) →
         s.fabricOps.find? (fun x => x.ctx.toNat == n && x.collId == coll && x.collective && x.state == 0) = some o →
       exec (.fabricAbortRx group coll) s = .next (s.finishFabric o 2)))
  ∧ (∀ (s : State) (k : FabricPkt) (l : FabricLink) (fails : Nat),
       let limit := s.entry 0x6000 6
       let p := polderOf k.ctx.toNat
       let u := s.event 0x6010 1 (min fails (limit + 1))
       let again : FabricPkt := { k with retries := k.retries + 1, path := some (s.escapePort k.peer, 16) }
       let escaped : FabricPkt := { k with waiting := false, credit := false, path := some (s.escapePort k.peer, 16) }
       let leaves (v : State) : State := v.send (.fabric k.peer (s.escapePort k.peer) 16 k.id k.msg)
       (s.fabricPkts.find? (fun x => x.id == k.id && !x.waiting) = some k →
         (k.retries + 1 < limit →
           exec (.fabricRtoExpiry ⟨k.id, fails⟩) s = .next (leaves ((u.putPkt again).bump (0x6200 + p) 7 1)))
         ∧ (limit ≤ k.retries + 1 →
           exec (.fabricRtoExpiry ⟨k.id, fails⟩) s
             = .next ({ u with links := s.links.filter (fun x => x.peer != k.peer) }.failPeer k.peer)))
       ∧ (s.fabricPkts.find? (fun x => x.id == k.id && x.waiting) = some k →
         (s.link k.peer = some l →
           exec (.escapeWaitExpiry k.id) s = .next (leaves ((s.putPkt escaped).bump (0x6200 + p) 6 k.msg.bytes)))
         ∧ (s.link k.peer = none → exec (.escapeWaitExpiry k.id) s = .next s)))

/-- X.MEDIA sends its descriptor as a job to the engine that its first word names. A free engine takes the job at the head of
its queue. A job that ends is counted; unless its context has been torn down, its descriptor is rewritten with its status
and the words it gives, and its tag is free. -/
def Obligations.MediaRuns : Prop :=
  (∀ (s : State) (h : SlotAt) (f : XFields) (c : W12),
     let n := coreOf h
     let p := s.polderOn n
     let k := s.core n
     let a := k.getG f.gA
     let r := (s.passed n).readView (coreFor p n) a 64
     let ws := (pieces 8 8 r.data).map (fun b => BitVec.ofNat 64 (ofBytes b))
     let e := bits (ws.getD 0 0) 59 58
     let j : MediaJob :=
       { id := r.state.nextId, core := n, ctx := c, rank := k.rank, tag := f.tag.toNat, polder := p, descAddr := a,
         words := ws, dropped := false }
     let b := r.state.begin n (slotOf h (.media f)) k.pc (some f.tag) (.media e j.id) (memRange a 64) (memRange a 64)
     let t := b.setEngine e { b.engine e with queue := (b.engine e).queue ++ [j] }
     k.ctx = some c → s.Acts h (.media f) → r.poison = none → (t.core n).quiet = true →
     exec (.mediaOpen h f) s = .next t ∧ exec (.mediaFrame h f) s = .next t ∧ exec (.mediaClose h f) s = .next t)
  ∧ (∀ (s : State) (engine : BitVec 2) (j : MediaJob) (rest : List MediaJob) (n : Nat),
       let e := engine.toNat
       let g := s.engine e
       let takes (other : Bool) : State :=
         (s.setEngine e { g with queue := rest, running := some j, switching := other, lastStream := some j.stream }).mark
           (engineIndex e + 2) 4
       let idle := s.setEngine e { g with running := none }
       let r := idle.mediaEnds e j
       let u := r.state.bump (0x8010 + j.polder) 2 1
       let f := if r.status = 0 then (u, r.words)
         else u.freeWords j ((s.jobStream e j).any (fun x => !(openOf x.words).encode))
       let word (w : W64 × Nat) : W64 :=
         if w.2 = 0 then BitVec.ofNat 64 ((j.word 0).toNat / 256 * 256 + r.status)
         else ((f.2.find? (fun y => y.1 == w.2)).map Prod.snd).getD w.1
       s.calm = true →
       (g.running = none → g.queue = j :: rest → (g.lastStream = none ∨ g.lastStream = some j.stream) →
         exec (.mediaJobStart engine) s = .next (takes false))
       ∧ (g.running = none → g.queue = j :: rest → g.lastStream = some n → n ≠ j.stream →
         exec (.mediaJobStart engine) s
           = .next ((((takes true).switchOut e n).switchIn e j.stream).bump (engineIndex e + 2) 3 1))
       ∧ (g.running = some j → j.dropped = true → u.calm = true → exec (.mediaJobDone engine) s = .next u)
       ∧ (g.running = some j → j.dropped = false → u.calm = true →
         exec (.mediaJobDone engine) s
           = .next ((f.1.writeView (ioFor j.polder) j.descAddr
               (j.words.zipIdx.flatMap (fun w => toBytes 8 (word w).toNat))).atRank
                 j.ctx.toNat j.rank (fun k => k.freeTag j.tag))))

/-! ### Management (R22 to R46, R437 to R440) -/

/-- A repeated request whose response is still kept is answered with that response and not executed again (R45). -/
def Obligations.RepeatAnswered : Prop :=
  ∀ (s : State) (h : Hdr) (x : Session) (r : W16 × Resp) (index : W16) (sub on : Byte) (data : List Byte) (offset : W32)
    (length : W16) (gen : W32) (off : BitVec 31) (last : Bool),
    s.alive = true → (h.path = .inband → s.inbandShut = false) → s.mode ≠ 3 → s.session h.session.toNat = some x →
    h.tagOk = true → x.responses.find? (fun y => y.1 == h.seq) = some r →
    let again : Host.Outcome State Fault Refusal := .next (s.sayTo h r.2)
    exec (.read h index sub) s = again ∧ exec (.write h index sub data) s = again
    ∧ exec (.segRead h index sub offset length gen) s = again ∧ exec (.segWrite h index sub off last data) s = again
    ∧ exec (.subscribe h index on) s = again ∧ exec (.recordRead h index) s = again
    ∧ exec (.batchWrite h data) s = again ∧ exec (.tsusenClose h) s = again

/-- A read that passes its checks is answered with the entry's value; one that does not, with the status of the first
check it fails (R437). -/
def Obligations.ReadAnswers : Prop :=
  ∀ (s : State) (h : Hdr) (x : Session) (index : W16) (sub : Byte),
    let q : Req := ⟨h, .read index.toNat sub.toNat⟩
    s.Takes h x →
    (∀ r, s.reachEntry x index.toNat sub.toNat .read = .ok r →
      exec (.read h index sub) s
        = .next ((s.readEntry r index.toNat sub.toNat).1.reply q 0 (s.readEntry r index.toNat sub.toNat).2))
    ∧ (∀ e, s.reachEntry x index.toNat sub.toNat .read = .error e → exec (.read h index sub) s = .next (s.reply q e []))

/-- A write of a volatile entry that passes its checks takes effect and is answered `OK`; one of a kept entry, or of an
action that the nonvolatile store carries, waits for its batch and is not answered yet; one that fails a check changes
nothing but the response (R28, R437). -/
def Obligations.WriteAnswers : Prop :=
  ∀ (s : State) (h : Hdr) (x : Session) (index : W16) (sub : Byte) (data : List Byte) (v : Nat) (r : EntryRow),
    let i := index.toNat
    let j := sub.toNat
    let q : Req := ⟨h, .write i j data⟩
    let checked := s.checkItem x { index := i, sub := j, data := data }
    s.Takes h x → entryRow i j = some r →
    (checked = .ok v → r.needsNv = false →
        exec (.write h index sub data) s
          = .next ((if r.access = .wo then s.act i j v else s.store r i j v).reply q 0 []))
    ∧ (checked = .ok v → r.needsNv = true → ∃ n, 1 ≤ n ∧ n ≤ 65536 ∧
        exec (.write h index sub data) s
          = .next { s.usedFree with nvQ :=
              [{ place := s.itemsPlace [(entryKey i j, v)], bytes := n, work := .items q [(entryKey i j, v)] none }] })
    ∧ (∀ e, checked = .error e → exec (.write h index sub data) s = .next (s.reply q e []))

/-- A DOMAIN is read by segments of its generation (R35), and written by segments in order, of which the last replaces it
(R36); a segment that breaks the order, or that makes the content too long, drops the sequence and answers `SEGMENT`, and
so does a gap that time ends, unanswered. -/
def Obligations.Segments : Prop :=
  (∀ (s : State) (h : Hdr) (x : Session) (index : W16) (sub : Byte) (r : EntryRow) (offset : W32) (length : W16) (gen : W32),
    let i := index.toNat
    let j := sub.toNat
    let answers (status : Nat) (payload : List Byte) : Prop :=
      exec (.segRead h index sub offset length gen) s
        = .next (s.reply ⟨h, .segRead i j offset.toNat length.toNat gen⟩ status payload)
    s.Takes h x → s.reachEntry x i j .read = .ok r →
    (r.ty = .domain → length.toNat ≤ x.limit →
      (s.domainGen i j = gen → offset.toNat < s.sizeOf i j →
        answers 0 (s.sliceOf i j offset.toNat (min length.toNat (s.sizeOf i j - offset.toNat))))
      ∧ (s.domainGen i j = gen → s.sizeOf i j ≤ offset.toNat → answers 8 [])
      ∧ (s.domainGen i j ≠ gen → answers 9 []))
    ∧ (r.ty ≠ .domain ∨ x.limit < length.toNat → answers 5 []))
  ∧ (∀ (s : State) (h : Hdr) (x : Session) (index : W16) (sub : Byte) (r : EntryRow) (off : BitVec 31) (last : Bool)
      (data before : List Byte),
    let i := index.toNat
    let j := sub.toNat
    let key := entryKey i j
    let q : Req := ⟨h, .segWrite i j off.toNat last data⟩
    let writes : Host.Outcome State Fault Refusal := exec (.segWrite h index sub off last data) s
    let keeps (g : Option SegSeq) : State := s.setSession h.session.toNat { x with seg := g }
    let fits : Prop := (before ++ data).length ≤ (domainLimit i).1
      ∧ (last = true → (domainLimit i).2 = true → (before ++ data).length = (domainLimit i).1)
    s.Takes h x → s.reachEntry x i j .write = .ok r →
    (r.ty = .domain → data.length ≤ x.limit →
      (x.before key off.toNat = some before → fits → last = false →
        writes = .next ((keeps (some { key := key, data := before ++ data })).reply q 0 []))
      ∧ (x.before key off.toNat = some before → fits → last = true →
        writes = .next ((keeps none).takeDomain q i j (before ++ data)))
      ∧ (x.before key off.toNat = some before → ¬ fits → writes = .next ((keeps none).reply q 8 []))
      ∧ (x.before key off.toNat = none → writes = .next ((keeps none).reply q 8 [])))
    ∧ (r.ty ≠ .domain ∨ x.limit < data.length → writes = .next (s.reply q 5 [])))
  ∧ (∀ (s : State) (session : W16) (x : Session), s.session session.toNat = some x →
      exec (.segWriteGapExpiry session) s = .next (s.setSession session.toNat { x with seg := none }))

/-- DISCOVER is answered in plain text with the identity record, on a path that is open. Subscriptions are kept by the
session; a session that closes, or that time ends, loses them with everything else (R43, R46, R438). -/
def Obligations.SessionsServed : Prop :=
  (∀ (s : State) (path : MgmtPath),
     let v := s.recordBytes Session.plain 0
     s.alive = true → (path = .inband → s.inbandShut = false) →
     (s.nvRun = none → s.nvQ = [] →
       exec (.discover path) s = .next (v.1.sayOn path 0 0 { type := 0x80, status := 0, payload := v.2 })
         ∧ v.1 = { s with free := v.1.free })
     ∧ (s.nvRun.isSome = true ∨ s.nvQ ≠ [] →
       exec (.discover path) s = .next { s with mgmtQ := s.mgmtQ ++ [.discover path] }))
  ∧ (∀ (s : State) (h : Hdr) (x : Session) (index : W16) (on : Byte) (r : EntryRow),
       let n := h.session.toNat
       let others := x.subs.filter (fun y => y != index.toNat)
       let gone (u : State) : State :=
         let v := { u with
           sessions := tblDrop s.sessions n
           mgmtQ := u.mgmtQ.filter (fun m => match m with
             | .request q => q.h.session.toNat != n
             | _ => true) }
         if x.role = 3 then v.setEntry 0x1010 0 0 else v
       (s.Takes h x → s.reachEntry x index.toNat 0 .subscribe = .ok r → (statusOf index.toNat).isSome = true →
         exec (.subscribe h index on) s
           = .next ((s.setSession n { x with subs := if on = 0 then others else others ++ [index.toNat] }).reply
               ⟨h, .subscribe index.toNat (on != 0)⟩ 0 []))
       ∧ (s.Takes h x → exec (.tsusenClose h) s = .next (gone (s.reply ⟨h, .close⟩ 0 [])))
       ∧ (s.session n = some x → exec (.sessionIdleExpiry h.session) s = .next (gone s)))

/-- A RECORD is read whole; a batch is checked whole, each item against what those before it would leave, before any of it
takes effect, and waits for its nonvolatile batch where an item needs one; both need edition 2 (R439, R440). -/
def Obligations.RecordsAndBatches : Prop :=
  ∀ (s : State) (h : Hdr) (x : Session) (index : W16) (r : EntryRow) (payload : List Byte) (items : List Item)
    (vs : List (Nat × Nat)),
    let q : Req := ⟨h, .batch payload⟩
    s.Takes h x →
    (x.edition < 2 → exec (.recordRead h index) s = .next (s.reply ⟨h, .recordRead index.toNat⟩ 15 [])
      ∧ exec (.batchWrite h payload) s = .next (s.reply q 15 []))
    ∧ (2 ≤ x.edition →
      (s.reachEntry x index.toNat 0 .record = .ok r → isRecord index.toNat = true →
        exec (.recordRead h index) s
          = .next ((s.recordBytes x index.toNat).1.reply ⟨h, .recordRead index.toNat⟩ 0 (s.recordBytes x index.toNat).2))
      ∧ (batchItems 32 payload = some items → items ≠ [] →
        (s.checkItems x [] items = .ok vs → firstNv vs = none →
          exec (.batchWrite h payload) s = .next ((s.applyItems vs).reply q 0 []))
        ∧ (∀ m, s.checkItems x [] items = .ok vs → firstNv vs = some m → ∃ n, 1 ≤ n ∧ n ≤ 65536 ∧
          exec (.batchWrite h payload) s
            = .next { s.usedFree with nvQ := [{ place := s.itemsPlace vs, bytes := n, work := .items q vs (some m) }] })
        ∧ (∀ n e, s.checkItems x [] items = .error (n, e) →
          exec (.batchWrite h payload) s = .next (s.reply q e [BitVec.ofNat 8 n])))
      ∧ (batchItems 32 payload = none ∨ batchItems 32 payload = some [] →
        exec (.batchWrite h payload) s = .next (s.reply q 5 [])))

/-- Events that have arrived set their flags and advance their counters at a slow-cycle edge, in order (R30); ALERT_N
goes on an enabled one (R32). -/
def Obligations.EventsPosted : Prop :=
  ∀ (s : State) (index b n : Nat), s.arrived = [(index, b, n)] → b < 32 → s.sessions = [] →
    tblFind s.kept (entryKey index 1) = none →
    ∃ t : State, exec .eventPost s = .next t ∧ t.arrived = []
      ∧ t.entry index 1 = s.entry index 1 ||| 2 ^ b
      ∧ tblFind t.dict (entryKey index (3 + b)) = some (((tblFind s.dict (entryKey index (3 + b))).getD 0 + n) % 2 ^ 32)
      ∧ t.alertN = (s.alertN || (s.entry index 2).testBit b)
      ∧ (∀ k, k ≠ entryKey index 1 → k ≠ entryKey index (3 + b) → tblFind t.dict k = tblFind s.dict k)
      ∧ t = { s with arrived := [], dict := t.dict, alertN := t.alertN }

/-- R31: a write to FLAGS clears each bit written 1; when an event arrives in the same slow cycle, its flag stays 1 and its
counter has advanced; a clear changes no counter. -/
def Obligations.FlagsCleared : Prop :=
  ∀ (s : State) (h : Hdr) (x : Session) (record : W16) (mask : W32) (r : EntryRow),
    let i := record.toNat
    let t := s.clearFlags i mask.toNat
    s.Takes h x → s.checkItem x { index := i, sub := 1, data := toBytes 4 mask.toNat } = .ok mask.toNat →
    entryRow i 1 = some r → r.access = .rwc → r.needsNv = false → tblFind s.kept (entryKey i 1) = none →
    exec (.flagsClear h record mask) s = .next (t.reply ⟨h, .write i 1 (toBytes 4 mask.toNat)⟩ 0 [])
    ∧ (s.arrived = [] →
        (∀ b, b < 32 → (t.entry i 1).testBit b = ((s.entry i 1).testBit b && !mask.getLsbD b))
        ∧ ∀ k, k ≠ entryKey i 1 → tblFind t.dict k = tblFind s.dict k)
    ∧ (∀ b n, b < 32 → s.arrived = [(i, b, n)] → (t.entry i 1).testBit b = true
        ∧ tblFind t.dict (entryKey i (3 + b)) = some (((tblFind s.dict (entryKey i (3 + b))).getD 0 + n) % 2 ^ 32))

/-- The write-only entries that act at once: contexts, polders, tables, histograms, the cache, seal slots, the
attestation nonce (R144, R247, R327 to R332, R340, R413, R416). -/
def Obligations.ActionsTake : Prop :=
  ∀ (s : State) (h : Hdr) (x : Session) (polder : BitVec 4) (context core value : Byte) (mask : W16) (nonce : BitVec 256),
    let p := polder.toNat
    let b := 0x5102 + 16 * p
    let acts (i : Instr) (index sub : Nat) (data : List Byte) (v : Nat) (t : State) : Prop :=
      s.checkItem x { index := index, sub := sub, data := data } = .ok v →
      exec i s = .next (t.reply ⟨h, .write index sub data⟩ 0 [])
    s.Takes h x →
    acts (.polderReset h polder value) b 1 [value] value.toNat (s.resetPolder p 0)
    ∧ acts (.contextPreempt h polder context) b 2 [context] context.toNat (s.requestPreempt (256 * p + context.toNat))
    ∧ acts (.contextClose h polder context) b 3 [context] context.toNat
        ((s.teardown (256 * p + context.toNat) 0 0).schedule p)
    ∧ acts (.contextMove h polder context mask) b 4 (context :: toBytes 2 mask.toNat)
        (65536 * context.toNat + mask.toNat) (s.moveContext (256 * p + context.toNat) mask)
    ∧ acts (.snapshot h polder value) (b + 3) 0 [value] value.toNat (s.takeSnapshot p)
    ∧ acts (.histClear h core value) (0x4007 + 16 * core.toNat) 0 [value] value.toNat (s.clearHist core.toNat)
    ∧ acts (.cacheInit h polder value) (0x7010 + p) 14 [value] value.toNat (s.initCache p)
    ∧ acts (.sealClear h polder value) (0x9050 + p) 2 [value] value.toNat
        { s with sealKeys := tblDrop s.sealKeys (16 * p + value.toNat) }
    ∧ acts (.attestNonce h nonce) 0x9060 1 (toBytes 32 nonce.toNat) nonce.toNat { s with attest := some nonce }

/-- The writes that a nonvolatile batch carries (firmware, ownership, the epoch, a polder's sites) are answered when it
completes (R28, R320, R401, R405, R407). Of the DOMAINs written whole, an image or a fabric credential waits for its
batches, and a seal key enters its slot at once (R36, R405, R412, R413). -/
def Obligations.StoredWrites : Prop :=
  (∀ (s : State) (h : Hdr) (x : Session) (polder : BitVec 4) (value : Byte) (mask : W16) (epoch : W32) (key : BitVec 512),
     let waits (i : Instr) (index sub : Nat) (data : List Byte) (v : Nat) : Prop :=
       s.checkItem x { index := index, sub := sub, data := data } = .ok v → ∃ n, 1 ≤ n ∧ n ≤ 65536 ∧
         exec i s = .next { s.usedFree with nvQ :=
           [{ place := s.itemsPlace [(entryKey index sub, v)], bytes := n,
              work := .items ⟨h, .write index sub data⟩ [(entryKey index sub, v)] none }] }
     s.Takes h x →
     waits (.fwActivate h value) 0x9011 0 [value] value.toNat ∧ waits (.fwCommit h value) 0x9012 0 [value] value.toNat
     ∧ waits (.ownerKey h key) 0x9030 2 (toBytes 64 key.toNat) key.toNat
     ∧ waits (.ownerRelease h value) 0x9030 4 [value] value.toNat
     ∧ waits (.credentialEpoch h epoch) 0x9030 3 (toBytes 4 epoch.toNat) epoch.toNat
     ∧ waits (.polderSites h polder mask) (0x5100 + 16 * polder.toNat) 1 (toBytes 2 mask.toNat) mask.toNat)
  ∧ (∀ (s : State) (h : Hdr) (x : Session) (off : BitVec 31) (data before : List Byte) (polder : BitVec 4)
       (slot : Nat) (key : BitVec 256) (r : EntryRow),
       let all := before ++ data
       let u := s.setSession h.session.toNat { x with seg := none }
       let sealAt := 0x9040 + polder.toNat
       let q (index sub : Nat) : Req := ⟨h, .segWrite index sub off.toNat true data⟩
       let last (index sub : Nat) : Prop :=
         s.reachEntry x index sub .write = .ok r ∧ x.before (entryKey index sub) off.toNat = some before
         ∧ all.length ≤ (domainLimit index).1 ∧ ((domainLimit index).2 = true → all.length = (domainLimit index).1)
       s.Takes h x → r.ty = .domain → data.length ≤ x.limit →
       (last 0x9010 0 → exec (.fwImage h off true data) s
           = .next (u.queueNv (if s.inactiveSlot = 0 then 0x0100000 else 0x1100000) all.length (.image (q 0x9010 0) all)))
       ∧ (last 0x9030 5 →
         (s.fabricCredOk all = true → exec (.fabricCredential h off true data) s
           = .next (u.queueNv (NvRegion.kept.copyAt s.keptStandsA) all.length
               (.keptDomain (q 0x9030 5) (entryKey 0x9030 5) all)))
         ∧ (s.fabricCredOk all = false → exec (.fabricCredential h off true data) s
           = .next (u.reply (q 0x9030 5) 13 [])))
       ∧ (last sealAt 0 →
         (s.sealOf polder.toNat all = some (slot, key) → exec (.sealInstall h polder off true data) s
           = .next ({ u with sealKeys := tblPut s.sealKeys (16 * polder.toNat + slot) key }.reply (q sealAt 0) 0 []))
         ∧ (s.sealOf polder.toNat all = none → exec (.sealInstall h polder off true data) s
           = .next (u.reply (q sealAt 0) 13 []))))

/-! ### Packages and contexts (R64, R70, R73 to R77, R315, R320, R323 to R332, R353, R359) -/

/-- The next package of a context starts on all its cores: each loads the program, and stands at START with the destination
and the ordinal in g1 and g2; a poisoned word of the program is a fault of the first core that meets it (R64, R70, R310,
R353). -/
def Obligations.PackageStarts : Prop :=
  ∀ (s : State) (ctx : W12) (x : Pkg) (rest : List Pkg),
    let n := ctx.toNat
    let c := s.ctx n
    let loaded : State × Option (Nat × W64) := c.cores.zipIdx.foldl (fun a y =>
      let l := a.1.loadPkg n y.2 y.1 (!c.hasState) x
      (l.1, match a.2 with
        | none => l.2.map (fun b => (y.1, b))
        | some f => some f)) (s, none)
    let t := loaded.1.setCtx n { c with state := 3, queue := rest, running := some x, hasState := true }
    c.queue = x :: rest → c.granted = true → c.state = 2 → s.allRun c = true → c.running = none →
    (loaded.2 = none → exec (.packageStart ctx) s = .next t)
    ∧ (∀ core a, loaded.2 = some (core, a) → exec (.packageStart ctx) s
        = .next (t.takeFault core { code := faultUncorrectable, detail := a, slot := 7, bundle := x.start, more := 0 }))
    ∧ (s.memErr = [] → c.cores.Nodup → exec (.packageStart ctx) s = .next t
        ∧ (∀ m, m ≠ n → t.ctx m = s.ctx m)
        ∧ (∀ (i q : Nat), c.cores[i]? = some q →
            let program := (s.readView (coreFor (polderOf n) q) x.program (128 * x.bundles)).data
            t.core q = (s.core q).startPkg n i (!c.hasState) x
              ((pieces 128 x.bundles program).map (fun b => BitVec.ofNat 1024 (ofBytes b))))
        ∧ (∀ q, q ∉ c.cores → t.core q = s.core q)
        ∧ t = { s with cores := t.cores, ctxs := t.ctxs, dict := t.dict })

/-- The closing barrier completes once every core has arrived and the package's slot is FREE: the slot becomes READY
with status 0 and, where the package asks for it, the check of its result, its associations hear of it, the cores stop,
and the context waits for its next package (R70, R359, R367). -/
def Obligations.PackageEnds : Prop :=
  ∀ (s : State) (ctx : W12) (x : Pkg),
    let n := ctx.toNat
    let p := polderOf n
    let c := s.ctx n
    let slot := x.ordinal % 256
    let idle := c.queue.isEmpty
    let r := s.readView (ioFor p) x.resAddr (if x.e2e then x.resBytes else 0)
    let record := completionRecord 0 (if x.e2e then 2 else 0) x.resBytes x.ordinal
      (if x.e2e then (crc64 r.data).toNat else 0) []
    c.running = some x → c.state = 3 → c.slotFree slot = true → c.cores.all s.closed = true → x.sealed = false →
    r.poison = none →
    ∃ u : State, exec (.packageEnd ctx) s = .next (u.schedule p)
      ∧ u.ctx n = { c with
          state := if idle then 1 else 2, running := none, granted := false,
          readyAt := if idle then c.readyAt else s.readyCount,
          slots := tblPut c.slots slot
            { tag := resultTag x.ordinal, record := some record, released := false, resAddr := x.resAddr,
              resBytes := x.resBytes, sealed := none } }
      ∧ (∀ m, m ≠ n → u.ctx m = s.ctx m)
      ∧ (∀ q, q ∈ c.cores → u.core q = (s.core q).endPkg idle) ∧ (∀ q, q ∉ c.cores → u.core q = s.core q)
      ∧ u.tx = s.tx ++ (s.assocs.filter (fun a => a.scope.toNat.testBit p)).map
          (fun a => .ready a.num ctx slot (resultTag x.ordinal))
      ∧ u = { r.state with cores := u.cores, ctxs := u.ctxs, tx := u.tx, dict := u.dict,
                           readyCount := if idle then s.readyCount else s.readyCount + 1 }

/-- A context whose slice ends while another of its priority waits for one of its sites is pre-empted (R324, R327); one
without such a rival goes on. A closing barrier that has waited too long for its slot is reported (R336). -/
def Obligations.SlicesAndHolds : Prop :=
  ∀ (s : State) (ctx : W12) (x : Pkg),
    let n := ctx.toNat
    let c := s.ctx n
    let p := polderOf n
    let rival := (s.ctxsOf p).any (fun y => y.1 != n && y.2.waits && y.2.prio == c.prio && y.2.overlaps c)
    (c.state = 3 → c.preemptible = true → c.hasState = true → c.images = [] → s.entry (polderIndex p 0) 5 ≠ 0 →
      rival = true →
      exec (.sliceExpiry ctx) s = .next ((s.setCtx n { c with state := 4, granted := true }).schedule p))
    ∧ (rival = false → exec (.sliceExpiry ctx) s = .next s)
    ∧ (c.running = some x → c.state = 3 → c.slotFree (x.ordinal % 256) = false → c.cores.all s.closed = true →
      exec (.resultHoldExpiry ctx) s
        = .next { s with arrived := s.arrived ++ [(polderIndex p 1, 2, 1)] })

/-- A saved context holds its cores' states as images, its cores are free, and the save is counted (R75, R76, R327). A
restored context's cores hold their images again, and it goes on where it stood (R327). -/
def Obligations.SavesAndRestores : Prop :=
  (∀ (s : State) (ctx : W12),
     let n := ctx.toNat
     let c := s.ctx n
     let p := polderOf n
     let idle := c.queue.isEmpty && c.running.isNone
     c.state = 4 → c.cores.all s.savable = true → c.moveTo = none → c.cores.Nodup →
     ∃ (u : State) (pipes : List (BitVec 1048576)), exec (.saveDone ctx) s = .next (u.schedule p)
       ∧ pipes.length = c.cores.length
       ∧ u.ctx n = { c with
           state := 5, granted := false, preempted := (c.preempted + 1) % 2 ^ 32,
           readyAt := if idle then c.readyAt else s.readyCount
           images := (c.cores.zip pipes).map (fun y => { s.core y.1 with pipeline := y.2 }) }
       ∧ (∀ m, m ≠ n → u.ctx m = s.ctx m)
       ∧ (∀ q, q ∈ c.cores → u.core q = { CoreState.reset with
           power := if (s.core q).power = 0 then 1 else (s.core q).power, waking := (s.core q).waking })
       ∧ (∀ q, q ∉ c.cores → u.core q = s.core q)
       ∧ u.arrived = s.arrived ++ c.cores.map (fun q => (coreIndex q 2, 1, 1)))
  ∧ (∀ (s : State) (ctx : W12),
       let n := ctx.toNat
       let c := s.ctx n
       let idle := c.running.isNone && c.queue.isEmpty
       c.state = 6 → c.moveTo = none → s.memErr = [] → c.cores.Nodup → c.images.length = c.cores.length →
       (∀ k ∈ c.images, k.quiet = true) →
       ∃ t : State, exec (.restoreDone ctx) s = .next t
         ∧ t.ctx n = { c with state := if c.running.isSome then 3 else if idle then 1 else 2, images := [], granted := !idle }
         ∧ (∀ m, m ≠ n → t.ctx m = s.ctx m)
         ∧ (∀ (i q : Nat) (k : CoreState), c.cores[i]? = some q → c.images[i]? = some k →
             t.core q = { k with power := if idle then 1 else (s.core q).power, waking := (s.core q).waking })
         ∧ (∀ q, q ∉ c.cores → t.core q = s.core q)
         ∧ t.arrived = s.arrived ++ c.cores.map (fun q => (coreIndex q 2, 2, 1)))

/-- A core's fault is recorded in its own entries, and ends its context (R73, R77); where two cores of a context fault in one
cycle, each records its own, and the context ends with that of the lower core (R331; log entry 17: the model takes a
fault that another core has found to be of the same cycle). A fault other than a poisoned word closes its own context
alone, for good: it is CLOSED with the fault's code and scope 1, and no core runs it (R331). -/
def Obligations.FaultsEndContexts : Prop :=
  (∀ (s : State) (core : Byte) (f : PendingFault) (c : W12),
     let n := core.toNat
     let e := entryKey (coreIndex n 3)
     (s.core n).fault = some f → (s.core n).ctx = some c →
     (∀ m ∈ (s.ctx c.toNat).cores, m ≠ n → (s.core m).fault = none) →
     ∃ u : State, exec (.faultTaken core) s = .next (u.faultContext c.toNat f.code f.detail)
       ∧ tblFind u.dict (e 1) = some f.code ∧ tblFind u.dict (e 2) = some f.slot ∧ tblFind u.dict (e 3) = some f.bundle
       ∧ tblFind u.dict (e 4) = some f.detail.toNat ∧ tblFind u.dict (e 5) = some c.toNat
       ∧ tblFind u.dict (e 6) = some f.more
       ∧ (∀ k, (∀ j, 1 ≤ j → j ≤ 6 → k ≠ e j) → tblFind u.dict k = tblFind s.dict k)
       ∧ u = { s with dict := u.dict, arrived := s.arrived ++ [(coreIndex n 2, 0, 1)] })
  ∧ (∀ (s : State) (core : Byte) (lo hi : Nat) (f g : PendingFault) (c : W12),
       lo < hi → core.toNat = lo ∨ core.toNat = hi →
       (s.core lo).fault = some f → (s.core hi).fault = some g → (s.core lo).ctx = some c → (s.core hi).ctx = some c →
       lo ∈ (s.ctx c.toNat).cores → hi ∈ (s.ctx c.toNat).cores → (s.ctx c.toNat).cores.Nodup →
       (∀ m ∈ (s.ctx c.toNat).cores, m ≠ lo → m ≠ hi → (s.core m).fault = none) →
       f.code ≠ faultUncorrectable → g.code ≠ faultUncorrectable →
       exec (.faultTaken core) s
         = .next (((s.recordFault c.toNat (lo, f)).recordFault c.toNat (hi, g)).faultContext c.toNat f.code f.detail))
  ∧ (∀ (s : State) (ctx code : Nat) (detail : W64),
       rising s.ctxs = true → (s.ctx ctx).state ≠ 0 → code ≠ faultUncorrectable → ctx < 4096 →
       let t := (s.faultContext ctx code detail).ctx ctx
       t.state = 0 ∧ t.lastFault = code ∧ t.faultScope = 1 ∧ t.cores = [] ∧ t.images = [] ∧ t.queue = [] ∧ t.asm = []
       ∧ t.running = none ∧ t.granted = false ∧ t.group = none)

/-- A polder reset leaves no context of the polder open and every work counter of its sites at zero (R332). -/
def Obligations.PolderResetCloses : Prop :=
  ∀ (s : State) (p code : Nat),
    rising s.ctxs = true → p < 16 → s.entry (0x3010 + p) 0 ≤ 16 →
    (s.resetPolder p code).openCtxs p = []
    ∧ ∀ site i, site ∈ sitesOf (s.polderMask p) → i < 256 → cell (s.resetPolder p code).counters (256 * site + i) = 0

/-- A joining site that is filled reads zero, and the last one forms its polder (R315, R320). -/
def Obligations.SiteFilled : Prop :=
  ∀ (s : State) (site : BitVec 4) (p : Nat),
    let x := site.toNat
    s.polderOfSite x = some p → (s.polder p).joining.getLsbD x = true →
    ∃ t : State, exec (.siteZeroed site) s = .next t
      ∧ (∀ a, a / 2 ^ 34 = x → cell t.mem a = 0) ∧ (∀ a, a / 2 ^ 34 ≠ x → cell t.mem a = cell s.mem a)
      ∧ (∀ i, i < 256 → cell t.counters (256 * x + i) = 0)
      ∧ ((s.polder p).joining = (1 : W16) <<< x → (t.polder p).formed = true ∧ (t.polder p).joining = 0)
      ∧ ((s.polder p).joining ≠ (1 : W16) <<< x → (t.polder p).formed = (s.polder p).formed)
      ∧ t.cores = s.cores ∧ t.ctxs = s.ctxs

/-! ### Handshakes (R407 to R411, R48) -/

/-- A fragment of H1 opens a handshake under a free number, or goes to the one it names, and is answered as what it comes
to; on the paths of frames it is not answered, but a signed H2 is sent again. H1 waits for its other fragments; a whole
one that is accepted has its H2 made and waits for the signature, behind at most eight others; one that is refused drops
the handshake, without an answer and counted, or with `ROLE` (R407 to R411). -/
def Obligations.HandshakesOpen : Prop :=
  ∀ (s : State) (h : HostHdr) (f : Fragment) (x : Handshake) (seq session n16 : W16) (m : MgmtPath) (path : HsPath),
    let total := f.total.toNat
    let fresh := s.freeHandshake .tsusen 0x8000
    let freshHost := s.freeHandshake .host 0x80000000
    let open' (n : W32) (y : Handshake) : State :=
      let r := s.h1Fragment y f
      match r.2 with
      | .taken => r.1.sayOn m (n.setWidth 16) seq { type := 0x81, status := 0, payload := [] }
      | .busy => r.1.sayOn m (n.setWidth 16) seq { type := 0x81, status := 11, payload := [] }
      | .role => r.1.sayOn m (n.setWidth 16) seq { type := 0x81, status := 4, payload := [] }
      | .gone => r.1
    let join (n : W32) (y : Handshake) : State :=
      let r := s.h1Fragment y f
      match r.2 with
      | .taken => r.1.send (.host 0x81 { h with assoc := n } 0 [])
      | .busy => r.1.send (.host 0x81 { h with assoc := n } 3 [])
      | .role => r.1.send (.host 0x81 { h with assoc := n } 8 [])
      | .gone => r.1
    let repeated := s.handshakes.find? (fun y => y.path == .tsusen && y.mgmt == m && y.h1Total == total
      && y.h1.contains (fragPart f))
    let repeatedHost := s.handshakes.find? (fun y => y.path == .host && y.h1Total == total && y.h1.contains (fragPart f))
    (s.Hears m → s.mode ≠ 3 →
      (repeated = none → s.sessions.length < 16 →
        exec (.tsusenOpen m 0 seq (.h1 f)) s = .next (open' fresh (Handshake.begin .tsusen m fresh total)))
      ∧ (repeated = none → 16 ≤ s.sessions.length → exec (.tsusenOpen m 0 seq (.h1 f)) s
          = .next (s.sayOn m 0 seq { type := 0x81, status := 11, payload := [] }))
      ∧ (repeated = some x → exec (.tsusenOpen m 0 seq (.h1 f)) s
          = .next (s.sayOn m (x.id.setWidth 16) seq { type := 0x81, status := 0, payload := [] }))
      ∧ (session ≠ 0 → s.handshake .tsusen (session.setWidth 32) = some x →
          exec (.tsusenOpen m session seq (.h1 f)) s = .next (open' x.id x)))
    ∧ (s.hosting = true → h.length.toNat = 4 + f.bytes.length →
      (h.assoc = 0 → repeatedHost = none → s.assocs.length < 16 →
        exec (.assoc h (.h1 f)) s = .next (join freshHost (Handshake.begin .host .inband freshHost total)))
      ∧ (h.assoc = 0 → repeatedHost = none → 16 ≤ s.assocs.length →
        exec (.assoc h (.h1 f)) s = .next (s.send (.host 0x81 h 3 [])))
      ∧ (h.assoc = 0 → repeatedHost = some x →
        exec (.assoc h (.h1 f)) s = .next (s.send (.host 0x81 { h with assoc := x.id } 0 [])))
      ∧ (h.assoc ≠ 0 → s.handshake .host h.assoc = some x → exec (.assoc h (.h1 f)) s = .next (join x.id x)))
    ∧ (s.pathUp path = true →
      (s.handshake path (n16.setWidth 32) = none → exec (.hsH1 path n16 f) s
          = .next (s.h1Fragment (Handshake.begin path .inband (n16.setWidth 32) total) f).1)
      ∧ (s.handshake path (n16.setWidth 32) = some x → x.signed = false →
          exec (.hsH1 path n16 f) s = .next (s.h1Fragment x f).1)
      ∧ (s.handshake path (n16.setWidth 32) = some x → x.signed = true →
          exec (.hsH1 path n16 f) s = .next (s.sendHs x.path 2 x.id x.h2)))
    ∧ (let g : Handshake := { x with
          h1 := if x.h1.contains (fragPart f) then x.h1 else x.h1 ++ [fragPart f], cut := max x.cut f.bytes.length }
       let u := s.putHandshake g
       let nonce : BitVec 256 := u.freeVal 256
       let refused := (g.path = .tsusen ∧ g.mgmt = .inband ∧ u.credOk g.cred = false) ∨ (g.path = .host ∧ g.cred.role = 0)
       (x.queued = true → s.h1Fragment x f = (s, .taken))
       ∧ (x.queued = false → fragFits f x.h1Total = false → s.h1Fragment x f = (s, .gone))
       ∧ (x.queued = false → fragFits f x.h1Total = true →
         (wholeOf g.h1Total g.h1 = none → s.h1Fragment x f = (u, .taken))
         ∧ (∀ b, wholeOf g.h1Total g.h1 = some b →
           (u.h1Accepted g = false → s.h1Fragment x f = ((u.dropHandshake g.path g.id).bump32 0x1000 7, .gone))
           ∧ (u.h1Accepted g = true → refused → s.h1Fragment x f = (u.dropHandshake g.path g.id, .role))
           ∧ (u.h1Accepted g = true → ¬ refused → 9 ≤ s.signQ.length →
               s.h1Fragment x f = ((u.bump 0x9080 2 1).putHandshake x, .busy))
           ∧ (u.h1Accepted g = true → ¬ refused → s.signQ.length < 9 →
               s.h1Fragment x f = ({ u.putHandshake { g with
                   queued := true, fresh := s.free + 1, lo := fieldAt b 32 1, hi := fieldAt b 33 1
                   h2 := toBytes 32 nonce.toNat ++ padTo 1568 (Config.kemFresh (s.free + 1)) ++ s.part.cert } with
                 signQ := s.signQ ++ [(g.path, g.id)], free := s.free + 2 }, .taken)))))

/-- Handshakes go forward: H2 is read by offset once it is signed, and before that answers `BUSY`; the security block signs
the first that waits with the identity key, and on the paths of frames H2 then leaves unasked; one left idle is dropped
(R409 to R411). -/
def Obligations.HandshakesProceed : Prop :=
  ∀ (s : State) (h : HostHdr) (x : Handshake) (seq session n16 : W16) (off : W32) (m : MgmtPath) (path : HsPath) (hid : W32)
    (rest : List (HsPath × W32)),
    let piece := toBytes 4 x.h2.length ++ (x.h2.drop off.toNat).take (max 1 x.cut)
    (s.Hears m → s.mode ≠ 3 → s.handshake .tsusen (session.setWidth 32) = some x →
      (x.signed = true → exec (.tsusenOpen m session seq (.readH2 off)) s
        = .next (s.sayOn m (x.id.setWidth 16) seq { type := 0x81, offset := off.toNat, status := 0, payload := piece }))
      ∧ (x.signed = false → exec (.tsusenOpen m session seq (.readH2 off)) s
        = .next (s.sayOn m (x.id.setWidth 16) seq { type := 0x81, status := 11, payload := [] })))
    ∧ (s.hosting = true → h.length = 0 → s.handshake .host h.assoc = some x →
      (x.signed = true → exec (.assoc h (.readH2 off)) s = .next (s.send (.host 0x81 h 0 piece)))
      ∧ (x.signed = false → exec (.assoc h (.readH2 off)) s = .next (s.send (.host 0x81 h 3 []))))
    ∧ (s.handshake path (n16.setWidth 32) = some x →
      (x.signed = true → s.pathUp path = true → exec (.hsH2Request path n16 off) s
        = .next (s.send (.hs path 2 x.id x.h2.length off.toNat ((x.h2.drop off.toNat).take 1480))))
      ∧ (x.signed = false ∨ s.pathUp path = false → exec (.hsH2Request path n16 off) s = .next s))
    ∧ (s.signQ = (path, hid) :: rest → s.handshake path hid = some x →
      let y : Handshake := { x with
        h2 := x.h2 ++ s.identitySign (toBytes 32 (Config.sha256 (x.h1Bytes ++ x.h2)).toNat), signed := true }
      let u := ({ s with signQ := rest } : State).putHandshake y
      ((path = .tsusen ∨ path = .host) → exec .h2Signed s = .next u)
      ∧ (path ≠ .tsusen → path ≠ .host → exec .h2Signed s = .next (u.sendHs y.path 2 y.id y.h2)))
    ∧ (s.signQ = [] → exec .h2Signed s = .next s)
    ∧ exec (.handshakeIdleExpiry path hid) s = .next { s with
        handshakes := s.handshakes.filter (fun y => !(y.path == path && y.id == hid))
        signQ := s.signQ.filter (fun y => !(y.1 == path && y.2 == hid)) }

/-- A handshake whose H3 verifies opens what it was for, under the edition negotiated and the keys it gives: a session
under the lowest free number, an association likewise, a secure channel of the peer station on its port, a fabric link; an
H3 that does not verify drops it, without an answer and counted (R47, R48, R348, R351, R368, R409 to R411). -/
def Obligations.HandshakesComplete : Prop :=
  ∀ (s : State) (h : HostHdr) (f : Fragment) (x : Handshake) (session seq n16 : W16) (m : MgmtPath) (h3 : List Byte)
    (e n : Nat) (q : BitVec 3) (station : BitVec 48) (peer : W16),
    let total := if x.h3.isEmpty then f.total.toNat else x.h3Total
    let g : Handshake := { x with
      h3Total := total, h3 := if x.h3.contains (fragPart f) then x.h3 else x.h3 ++ [fragPart f] }
    let u := s.putHandshake g
    let c := x.cred
    let ack := [BitVec.ofNat 8 e, BitVec.ofNat 8 c.role]
    let fails : State := (u.dropHandshake x.path x.id).bump32 0x1000 7
    x.acked = none → x.signed = true → fragFits f total = true → wholeOf total g.h3 = some h3 →
    (s.Hears m → s.mode ≠ 3 → s.handshake .tsusen (session.setWidth 32) = some x →
      (u.h3Ok x h3 = false → exec (.openFinish m session seq f) s = .next fails)
      ∧ (u.h3Ok x h3 = true → negotiate x.lo x.hi (s.entry 0x1103 1) (s.entry 0x1103 2) = some e →
          (List.range 16).find? (fun i => (s.session i).isNone) = some n →
        exec (.openFinish m session seq f) s
          = .next ((((u.setSession n
              { role := c.role, edition := e, path := m, scope := BitVec.ofNat 16 c.scope,
                udpPort := s.entry 0x1000 4, served := 0, newest := none, responses := [], subs := [], seg := none,
                keys := x.keys h3
                enrolKey := if s.credOk c then none else some (BitVec.ofNat 512 (ofBytes c.subject)) }).bump
              0x9080 1 1).ackHandshake x (BitVec.ofNat 32 n) 0 ack).sayOn m ((BitVec.ofNat 32 n).setWidth 16) seq
                { type := 0x8B, status := 0, payload := ack })))
    ∧ (s.hosting = true → h.length.toNat = 4 + f.bytes.length → s.handshake .host h.assoc = some x →
      (u.h3Ok x h3 = false → exec (.assocFinish h f) s = .next fails)
      ∧ (u.h3Ok x h3 = true →
          negotiate x.lo x.hi (max (if h.ipv6 then 2 else 0) (s.entry 0x1101 1)) (s.entry 0x1101 2) = some e →
          ((List.range 16).map (· + 1)).find? (fun i => !s.assocs.any (fun a => a.num.toNat == i)) = some n →
        exec (.assocFinish h f) s
          = .next (((({ u with assocs := s.assocs ++
              [{ num := BitVec.ofNat 32 n, ipv6 := h.ipv6, keys := x.keys h3, role := c.role, edition := e,
                 scope := if 2 ≤ c.role then 0xFFFF else BitVec.ofNat 16 c.scope }] } : State).bump 0x9080 1 1).ackHandshake x
                (BitVec.ofNat 32 n) 0 ack).send (.host 0x8A { h with assoc := BitVec.ofNat 32 n } 0 ack))))
    ∧ (3 ≤ (s.port q.toNat).linkState → s.handshake (.port q station) (n16.setWidth 32) = some x →
      let y := s.port q.toNat
      let v := (u.ackHandshake x x.id 0 []).bump 0x9080 1 1
      (u.h3Ok x h3 = false → exec (.hsH3 (.port q station) n16 f) s = .next fails)
      ∧ (u.h3Ok x h3 = true → y.channels.find? (fun d => d.peer == station) = none →
          (List.range 256).find? (fun i => !y.channels.any (fun d => d.num == i)) = some n →
        exec (.hsH3 (.port q station) n16 f) s
          = .next (v.setPort q.toNat { y with
              linkState := 4
              channels := y.channels ++ [{ num := n, peer := station, keys := x.keys h3, highest := 0, seen := [],
                                           oldKey := false, rekeying := false }] }))
      ∧ (∀ d, u.h3Ok x h3 = true → y.channels.find? (fun d => d.peer == station) = some d →
        exec (.hsH3 (.port q station) n16 f) s
          = .next (v.setPort q.toNat { y with channels := y.channels.map (fun b =>
              if b.num = d.num then { b with keys := x.keys h3, rekeying := false, oldKey := true } else b) })))
    ∧ (s.pathUp (.fabric peer) = true → s.handshake (.fabric peer) (n16.setWidth 32) = some x →
      (u.h3Ok x h3 = false → exec (.hsH3 (.fabric peer) n16 f) s = .next fails)
      ∧ (u.h3Ok x h3 = true → exec (.hsH3 (.fabric peer) n16 f) s
          = .next (((u.ackHandshake x x.id 0 []).bump 0x9080 1 1).acceptLink peer x (x.keys h3))))

/-! ### Host transport (R322, R331, R336, R350 to R361, R369) -/

/-- An accepted CTX_OPEN makes the context IDLE on the enabled cores of its mask, under the editions negotiated; a refused
one answers the first reason of R354 and changes nothing. CTX_CLOSE tears the context down, and FABRIC_JOIN gives it
its group. An association that its host closes, or that time ends, is gone; the contexts stay (R351). -/
def Obligations.ContextsOpenAndClose : Prop :=
  (∀ (s : State) (h : HostHdr) (a : Association) (ctx : W12) (pl : List Byte) (cs me r : Nat),
     let n := ctx.toNat
     let same := (s.ctx n).state ≠ 0 ∧ (s.ctx n).openedBy = a.num ∧ (s.ctx n).openPayload = pl
     (s.Serves h a n 32 → pl.length = 32 → fieldAt pl 0 2 = n → fieldAt pl 4 1 ≤ 7 →
       (same → exec (.ctxOpen h pl) s = .next (s.send (.host 0x83 h 0 [])))
       ∧ (s.openReason n (fieldAt pl 2 2) (fieldAt pl 8 8) = none →
         negotiate (fieldAt pl 16 1) (fieldAt pl 17 1) (s.entry 0x1100 1) (s.entry 0x1100 2) = some cs →
         negotiate (fieldAt pl 18 1) (fieldAt pl 19 1) (s.entry 0x1104 1) (s.entry 0x1104 2) = some me →
         ∃ t : State, exec (.ctxOpen h pl) s = .next t
           ∧ (t.ctx n).state = 1 ∧ (t.ctx n).sites = BitVec.ofNat 16 (fieldAt pl 2 2)
           ∧ (t.ctx n).cores = s.coresOf (fieldAt pl 2 2) ∧ (t.ctx n).csEd = cs ∧ (t.ctx n).mEd = me
           ∧ (t.ctx n).queue = [] ∧ (t.ctx n).decls = [] ∧ (t.ctx n).slots = [] ∧ (t.ctx n).nextPost = 0
           ∧ (∀ m, m ≠ n → t.ctx m = s.ctx m)
           ∧ t = { s.send (.host 0x83 h 0 []) with ctxs := t.ctxs, nextId := s.nextId + 1 })
       ∧ (s.openReason n (fieldAt pl 2 2) (fieldAt pl 8 8) = some r → ¬ same →
         exec (.ctxOpen h pl) s = .next (s.send (.host 0x83 h 4 [BitVec.ofNat 8 r]))))
     ∧ (s.Serves h a n 0 → h.context.toNat = n →
         exec (.ctxClose h) s = .next ((if (s.ctx n).state = 0 then s else (s.teardown n 0 0).schedule (polderOf n)).send
           (.host 0x84 h 0 [])))
     ∧ (∀ (ident : W64) (members : List W16), s.Serves h a n (12 + 2 * members.length) → members.length < 65536 →
         s.deviceId ≠ 0xFFFF → s.deviceId ∈ members → (s.ctx n).state ≠ 0 →
         let group : Group := { ident := ident, members := members, mine := members.idxOf s.deviceId, ended := [] }
         exec (.fabricJoin h (toBytes 8 ident.toNat ++ toBytes 2 n ++ toBytes 2 members.length
             ++ members.flatMap (fun m => toBytes 2 m.toNat))) s
           = .next ((s.onCtx n (fun c => { c with group := some group })).send (.host 0x89 h 0 []))))
  ∧ (∀ (s : State) (h : HostHdr) (a : Association) (n : W32),
       let gone (m : W32) : State := { s with
         assocs := s.assocs.filter (fun b => b.num != m)
         ctxs := s.ctxs.map (fun x => (x.1, { x.2 with openedBy := if x.2.openedBy = m then 0 else x.2.openedBy })) }
       (s.hosting = true → s.assocs.find? (fun b => b.num == h.assoc) = some a → (a.edition = 1 → h.ipv6 = false) →
           h.edition.toNat = a.edition → h.length = 0 →
         exec (.assocClose h) s = .next ((gone h.assoc).send (.host 0x82 h 0 [])))
       ∧ exec (.assocIdleExpiry n) s = .next (gone n))

/-- A package that arrives whole in one segment, passes every check and is the next in order is written at its
destination, posted and answered `OK`; one behind the window answers `OK` and one ahead of it `BUSY`, both without effect; a
segment whose CRC fails is asked for again. An assembly left incomplete is discarded and counted (R352 to R358, R364). -/
def Obligations.PackagesArrive : Prop :=
  ∀ (s : State) (h : HostHdr) (a : Association) (ctx : W12) (bs got : List Byte) (o : Assembly) (ds : List Decl),
    let n := ctx.toNat
    let c := s.ctx n
    let p := polderOf n
    let x := pkgOf bs
    let stamped := c.state = 1 ∨ (c.state = 5 ∧ c.waits = false)
    (s.Serves h a n bs.length → h.context.toNat = n → c.state ≠ 0 → bs.length ≠ 0 → h.offset.toNat % 256 = 0 →
        (h.flags.getLsbD 0 = true ∨ bs.length % 256 = 0) →
      (h.offset = 0 → h.item.toNat = c.nextPost → c.asm = [] → c.queue.length < 64 →
          segmentsOk bs bs = true → s.pkgValid n c.nextPost x = true → x.length = bs.length →
          s.touchesGuarded p x.dest x.length = false → x.sealed = false → (x.e2e = true → crc64 (bs.drop 128) = x.crc) →
          declTable c.decls x bs = some ds →
        ∃ u : State, exec (.submit h bs bs) s = .next (u.schedule p)
          ∧ u.ctx n = { c with
              state := if c.state = 1 then 2 else c.state, queue := c.queue ++ [x], nextPost := c.nextPost + 1, decls := ds,
              readyAt := if stamped then s.readyCount else c.readyAt }
          ∧ (∀ m, m ≠ n → u.ctx m = s.ctx m) ∧ u.mem = (s.writeView (ioFor p) x.dest bs).mem
          ∧ u.cores = s.cores ∧ u.tx = s.tx ++ [.host 0x85 h 0 []])
      ∧ (h.item.toNat < c.nextPost → exec (.submit h bs got) s = .next (s.send (.host 0x85 h 0 [])))
      ∧ (c.nextPost + 4 ≤ h.item.toNat → exec (.submit h bs got) s = .next (s.send (.host 0x85 h 3 [])))
      ∧ (c.nextPost ≤ h.item.toNat → h.item.toNat < c.nextPost + 4 → segmentsOk bs got = false →
        exec (.submit h bs got) s
          = .next ((({ s with arrived := s.arrived ++ [(0x6010, 0, 1)] } : State).bump (0x6200 + p) 3 1).send
              (.host 0x85 h 5 []))))
    ∧ (c.assembly h.item.toNat = some o → o.ready = none →
      exec (.pkgAssemblyExpiry ctx h.item) s
        = .next (((s.onCtx n (fun d => { d with asm := d.asm.filter (fun y => y.ordinal != h.item.toNat) })).bump
            (0x6200 + p) 2 1).event 0x6010 4 1))

/-- A GET of a READY slot under its tag answers the bytes of the completion record and the result, in order; a poisoned
word answers `POISONED`, and so does a segment that fails its check on the way out more often than it is read again; one
with another tag answers `STALE`, or `NOT_READY` while its package is on its way. A RELEASE frees the slot for the next
record, and answers `OK` again when repeated (R359 to R365). -/
def Obligations.Results : Prop :=
  ∀ (s : State) (h : HostHdr) (a : Association) (ctx : W12) (r : ResultSlot) (rec0 : List Byte),
    let n := ctx.toNat
    let c := s.ctx n
    let p := polderOf n
    let tag := h.item.toNat % 2 ^ 32
    let slot := h.slot.toNat
    let off := h.offset.toNat
    let len := h.length.toNat
    let skip := max off 64 - 64
    let m := off + len - 64 - skip
    let v := s.readView (ioFor p) (r.resAddr + BitVec.ofNat 64 skip) m
    let u := if off + len ≤ 64 then s else v.state
    let bytes := (rec0.drop off).take len ++ (if off + len ≤ 64 then [] else match r.sealed with
      | none => v.data
      | some bs => (bs.drop skip).take m)
    let out := u.resendSegments p r off len h.crcFails
    h.context.toNat = n → slot < 256 →
    (s.Serves h a n len →
      (tblFind c.slots slot = some r → r.record = some rec0 → r.released = false → r.tag = tag → off + len ≤ 64 + r.resBytes →
        (off + len ≤ 64 ∨ v.poison = none →
          exec (.get h) s = .next (out.1.send (if out.2 then .host 0x86 h 6 [] else .host 0x86 h 0 bytes)))
        ∧ (64 < off + len → v.poison ≠ none →
          exec (.get h) s = .next (({ u with arrived := u.arrived ++ [(0x6010, 3, 1)] } : State).send (.host 0x86 h 6 []))))
      ∧ ((∀ y, tblFind c.slots slot = some y → y.ready = false ∨ y.tag ≠ tag) →
        exec (.get h) s = .next (if c.submitted slot tag then (s.bump (0x6200 + p) 4 1).send (.host 0x86 h 1 [])
          else (s.bump (0x6200 + p) 5 1).send (.host 0x86 h 2 []))))
    ∧ (s.Serves h a n 0 → tblFind c.slots slot = some r → r.record = some rec0 → r.tag = tag →
      (r.released = false →
        exec (.release h) s = .next (((s.setCtx n { c with slots := tblPut c.slots slot { r with released := true } }).placeWaiting
            n slot).send (.host 0x87 h 0 [])))
      ∧ (r.released = true → exec (.release h) s = .next (s.send (.host 0x87 h 0 []))))

/-! ### Ports (R344 to R349, R41, R42) -/

/-- A link comes up in the preferred common mode, drops, fails to negotiate and waits, each with its event; a channel
that must change its key runs its handshake again. The management link and its node ID follow their segment, and
`ALERT_N` is let go once no enabled flag is 1. -/
def Obligations.LinksChange : Prop :=
  ∀ (s : State) (port : BitVec 3) (modes channel : Byte) (up : Bool) (m : Nat) (rest : List Nat),
    let q := port.toNat
    let x := s.port q
    (q < 5 → x.linkState = 1 → modesOf (s.entry (portIndex q 0) 3 &&& modes.toNat) = m :: rest →
      ∃ t : State, exec (.linkUp port modes) s = .next t
        ∧ t.port q = { x with linkState := if x.channels.isEmpty then 3 else 4, mode := m,
                              kind := s.entry (portIndex q 0) 4 }
        ∧ (∀ j, j ≠ q → t.port j = s.port j)
        ∧ t.arrived = s.arrived ++ (if m = 1 then [] else [(portIndex q 1, 1, 1)])
        ∧ t = { s with ports := t.ports, arrived := t.arrived })
    ∧ (3 ≤ x.linkState →
      exec (.linkLost port) s
        = .next { s.setPort q { x with linkState := 1, mode := 0 } with
            arrived := s.arrived ++ [(portIndex q 1, 0, 1)] })
    ∧ (x.linkState = 1 ∨ x.linkState = 2 →
      exec (.negotiationFailed port) s = .next (s.setPort q { x with linkState := 0, retryWait := true }))
    ∧ (x.retryWait = true →
      exec (.anRetryExpiry port) s = .next (s.setPort q { x with linkState := 1, retryWait := false }))
    ∧ (x.channels.any (fun c => c.num == channel.toNat) = true →
      exec (.rekey port channel) s
        = .next { s.setPort q { x with channels := x.channels.map (fun c =>
              if c.num = channel.toNat then { c with rekeying := true } else c) } with
            arrived := s.arrived ++ [(portIndex q 1, 7, 1)] })
    ∧ (s.supply.vaon = true →
      exec (.mgmtLinkChange up) s = .next (s.setEntry 0x1001 3 up.toNat)
      ∧ exec .plcaBeacon s = .next { s with plcaNode := BitVec.ofNat 8 (s.entry 0x1001 1) })
    ∧ exec .alertNRelease s = .next { s with alertN := s.alertN && s.alerting }

/-- Corrected and bad FEC code words are counted; a frame with a bad FCS, one too long and one with a VLAN tag are dropped.
A protected frame whose check value holds and whose packet number is new to its channel is accepted and counted; one that
was seen, or lies behind the replay window, is not; an unprotected one is not either (R346 to R349). -/
def Obligations.FramesReceived : Prop :=
  ∀ (s : State) (port : BitVec 3) (f : Frame) (ch : Byte) (pn : W64) (icv newKey : Bool) (inner : FrameInner) (c : Channel),
    let q := port.toNat
    let x := s.port q
    let u := (s.bump (portIndex q 2) 5 f.fecCorrected).event (portIndex q 1) 2 f.fecBad
    let d : Channel := if c.oldKey = true ∧ newKey = true then { c with oldKey := false, highest := 0, seen := [] } else c
    let window := s.entry 0x6002 1
    let counted (v : State) : State := (v.bump (portIndex q 2) 2 1).bump (portIndex q 2) 4 f.length
    let dropped (v : State) : State := v.bump (portIndex q 2) 7 1
    let accepted (y : Channel) : State :=
      let v := u.setPort q { x with channels := x.channels.map (fun z => if z.num = ch.toNat then y else z) }
      if inner = .ipFragment then dropped v else counted (v.frameInner q inner)
    3 ≤ x.linkState →
    (f.fcsOk = false → exec (.frameReceive port f) s = .next ((dropped u).event (portIndex q 1) 3 1))
    ∧ (f.fcsOk = true → (9216 < f.length ∨ f.vlan = true) → exec (.frameReceive port f) s = .next (dropped u))
    ∧ (f.fcsOk = true → f.length ≤ 9216 → f.vlan = false →
      (f.kind = .unprotected → exec (.frameReceive port f) s = .next (u.event (portIndex q 1) 6 1))
      ∧ (f.kind = .handshake → exec (.frameReceive port f) s = .next (counted u))
      ∧ (f.kind = .macsec ch pn icv newKey inner →
        (x.channels.find? (fun y => y.num == ch.toNat) = none ∨ icv = false →
          exec (.frameReceive port f) s = .next (u.event (portIndex q 1) 4 1))
        ∧ (x.channels.find? (fun y => y.num == ch.toNat) = some c → icv = true →
          (d.highest < pn.toNat → exec (.frameReceive port f) s = .next (accepted { d with
              highest := pn.toNat, seen := d.seen.filter (fun i => pn.toNat ≤ i + window) ++ [pn.toNat] }))
          ∧ (pn.toNat ≤ d.highest → d.highest ≤ pn.toNat + window → pn.toNat ∉ d.seen →
            exec (.frameReceive port f) s = .next (accepted { d with seen := d.seen ++ [pn.toNat] }))
          ∧ (pn.toNat ≤ d.highest → (pn.toNat + window < d.highest ∨ pn.toNat ∈ d.seen) →
            exec (.frameReceive port f) s = .next (u.event (portIndex q 1) 5 1)))))

/-! ### Power, memory upkeep and boot (R26, R306, R312, R313, R400 to R406, R416, R420 to R430) -/

/-- R313: a site enters doubled refresh at 85 °C or above and leaves it below 83 °C; between them it stays. At 105 °C or
above the package trips (R428), which is no part of this statement. -/
def Obligations.DoubledRefresh : Prop :=
  ∀ (s : State) (site : BitVec 4) (t : W32),
    let x := site.toNat
    let mode (u : State) : Nat := u.entry (0x3300 + x) 4
    s.memPower x ≠ 0 → tblFind s.kept (entryKey (0x3300 + x) 4) = none → atLeast t 105 = false →
    ∃ u : State, exec (.tempReading site t t t t) s = .next u
      ∧ (atLeast t 85 = true → mode u = 1) ∧ (below t 83 = true → mode u = 0)
      ∧ (atLeast t 85 = false → below t 83 = false → mode u = mode s)
      ∧ u.mem = s.mem ∧ u.cores = s.cores ∧ u.ctxs = s.ctxs

/-- A refresh of a powered stack's channel is counted in memory cycles (R306). An evaluation of the power manager records
its readings; while power is above its limit and a site can step down, the device step rises by one, every junction floor
follows its site's reading, and each site that is on runs at the larger of the two (R420, R421). -/
def Obligations.Upkeep : Prop :=
  ∀ (s : State) (site channel : BitVec 4) (r : PowerReading),
    let step := min 16 (s.entry 0x2000 5 + 1)
    (s.memPower site.toNat ≠ 0 →
      exec (.refresh site channel) s = .next (s.bump (0x3100 + 16 * site.toNat + channel.toNat) 0xB 94))
    ∧ (s.alive = true → (∀ sub, 2 ≤ sub → sub ≤ 5 → tblFind s.kept (entryKey 0x2000 sub) = none) →
        (∀ i, i < 16 → tblFind s.kept (entryKey (siteIndex i) 1) = none ∧ tblFind s.kept (entryKey (siteIndex i) 2) = none) →
        (∀ x ∈ r.junction, atLeast x 115 = false) → (Fv.ofInt (s.entry 0x2000 1) 0).lt (fv32 r.power) = true →
        (∃ i, i < 16 ∧ s.siteOn i = true ∧ s.entry (siteIndex i) 1 < 16) →
      ∃ t : State, exec (.powerEvaluation r) s = .next t
        ∧ t.entry 0x2000 2 = r.power.toNat ∧ t.entry 0x2000 3 = r.voltage.toNat ∧ t.entry 0x2000 4 = r.current.toNat
        ∧ t.entry 0x2000 5 = step
        ∧ (∀ i x, i < 16 → r.junction[i]? = some x →
            t.entry (siteIndex i) 2 = nextFloor (s.entry (siteIndex i) 2) (s.entry 0x2000 6) x)
        ∧ (∀ i, i < 16 → s.siteOn i = true → t.entry (siteIndex i) 1 = max step (t.entry (siteIndex i) 2))
        ∧ t.mem = s.mem ∧ t.cores = s.cores ∧ t.ctxs = s.ctxs)

/-- Wake-ups: at most four a window, a core from IDLE runs at once and one from NAP when it is done; sites start in
order and their cores ask from IDLE; a core idle too long naps, and a site whose cores nap sleeps (R424 to R427). A core
that runs, and a site whose clock steps, from then on count the cycles of it. -/
def Obligations.WakeUps : Prop :=
  ∀ (s : State) (core : Byte) (site : BitVec 4) (ctx : W12) (x : Nat) (rest : List Nat),
    let n := core.toNat
    let k := s.core n
    let y := site.toNat
    let waiting := s.ctxs.any (fun c => c.2.granted && c.2.cores.contains n)
    let runs (u : State) : State :=
      let v := u.setCore n { k with power := if waiting then 0 else 1, waking := false }
      if waiting then v.mark (coreIndex n 4) 1 else v
    let step := max (s.entry 0x2000 5) (s.entry (siteIndex y) 2)
    let stepped := if step = 0 then s else s.mark (siteIndex y) 6
    let idle := ∀ c ∈ s.ctxs, c.2.state ≠ 5
    (s.wakeQ = [n] → s.wakeHeld = [] → k.power = 1 → rising s.ctxs = true → idle →
      exec .wakeWindow s = .next (runs (({ s with wakeQ := [] } : State).bump 0x2000 0xB 1)))
    ∧ (s.wakeQ = [n] → s.wakeHeld = [] → k.power = 2 →
      exec .wakeWindow s = .next ((({ s with wakeQ := [] } : State).bump 0x2000 0xB 1).setCore n { k with waking := true }))
    ∧ (k.waking = true → rising s.ctxs = true → idle → exec (.napWakeDone core) s = .next (runs s))
    ∧ (s.startQ = x :: rest → exec .siteStart s = .next (({ s with startQ := rest } : State).setEntry (siteIndex x) 5 1))
    ∧ (s.entry (siteIndex y) 5 = 1 → s.coresOf (2 ^ y) = [n] → s.wakeQ = [] → s.wakeHeld = [] →
      exec (.siteSettled site) s
        = .next { ((stepped.setEntry (siteIndex y) 5 0).setEntry (siteIndex y) 1 step).setCore n { k with power := 1 } with
            wakeQ := [n] })
    ∧ (k.power = 1 → s.coreEnabled n = true → n ∉ s.wakeQ → n ∉ s.wakeHeld →
      exec (.napEntry core) s = .next (s.setCore n { k with power := 2 }))
    ∧ (s.siteOn y = true → (∀ c ∈ s.coresOf (2 ^ y), (s.core c).power = 2 ∧ (s.core c).waking = false) →
        (∀ c ∈ s.ctxs, c.2.state = 0 ∨ c.2.sites.getLsbD y = false) →
      ∃ t : State, exec (.sleepEntry site) s = .next t
        ∧ (∀ c ∈ s.coresOf (2 ^ y), t.core c = { s.core c with power := 3 })
        ∧ (∀ c, c ∉ s.coresOf (2 ^ y) → t.core c = s.core c)
        ∧ t = { s.setEntry (siteIndex y) 5 2 with cores := t.cores })
    ∧ ((s.ctx ctx.toNat).granted = true → ((s.ctx ctx.toNat).state = 2 ∨ (s.ctx ctx.toNat).state = 5) →
        s.allRun (s.ctx ctx.toNat) = false →
      exec (.wakeTimeout ctx) s
        = .next (({ s with arrived := s.arrived ++ [(0x2001, 5, 1)] } : State).faultContext ctx.toNat faultWake 0))

/-- The supply: what comes up with VIN48 and with PWROK, what an input loss takes away and which nonvolatile writes it
stops, and what a reset keeps (R26, R401, R428 to R430). -/
def Obligations.SupplyAndReset : Prop :=
  ∀ (s : State),
    let kept (t : State) : Prop := t.kept = s.kept ∧ t.slotA = s.slotA ∧ t.slotB = s.slotB ∧ t.rollA = s.rollA
      ∧ t.rollB = s.rollB ∧ t.part = s.part
    let lost (t : State) : Prop := t.cores = [] ∧ t.ctxs = [] ∧ t.mem = [] ∧ t.polders = [] ∧ t.assocs = []
    (s.supply.vaon = true → s.supply.pwrok = false →
      exec .pwrok s = .next { s with supply :=
        { s.supply with pwrok := true, rails := !s.supply.tripped, inputLost := false } })
    ∧ (s.supply.vaon = true → (s.nvQ = [] ∨ s.nvRun.isSome = true ∨ s.mgmtQ = []) →
      ∃ t : State, exec (.inputLoss false) s = .next t
        ∧ t.supply = { s.supply with rails := false, pwrok := false, inputLost := true } ∧ lost t ∧ kept t
        ∧ t.nvQ = [] ∧ (s.nvQ = [] → t.nvRun = s.nvRun ∧ t.sessions = s.sessions)
        ∧ (s.nvQ ≠ [] → t.nvRun = s.nvRun.map (fun b => { b with work := .stopped }))
        ∧ t.arrived = s.arrived ++ [(0x2001, 4, 1)])
    ∧ (s.supply.vaon = true → s.nvQ = [] → s.nvRun = none →
      ∃ t : State, exec (.inputLoss true) s = .next t ∧ t.supply.vaon = false ∧ t.supply.pwrok = false
        ∧ t.supply.rails = false ∧ t.supply.inReset = true ∧ lost t ∧ kept t ∧ t.sessions = [])
    ∧ (s.supply.vaon = true → exec .inputLow s = .next { s with arrived := s.arrived ++ [(0x2001, 3, 1)] })
    ∧ (s.nvRun = none → ∃ t : State, exec .resetN s = .next t ∧ kept t ∧ lost t ∧ t.dict = [] ∧ t.sessions = []
        ∧ t.sealKeys = [] ∧ t.supply.inReset = true ∧ t.supply.booted = false ∧ t.supply.tripped = false
        ∧ t.thermTripN = false)
    ∧ (∀ b, s.nvRun = some b →
        exec .resetN s = .next { s with supply := { s.supply with resetAfterBatch := true } })
    ∧ (s.supply.vaon = false → ∃ t : State, exec .vaonUp s = .next t ∧ t.supply.vaon = true ∧ t.supply.pwrok = false
        ∧ t.supply.rails = false ∧ t.supply.inReset = true ∧ kept t ∧ t.sessions = [])

/-- A batch that passes the freeboard check starts; when the last of a write completes, the write takes effect, stands in
the copy that did not, and is answered; each one that completes is counted. One that fails the check is deferred with its
whole write, which changes nothing kept (R398 to R401). -/
def Obligations.BatchesRun : Prop :=
  ∀ (s : State) (x : HoldReading) (b : NvBatch) (rest : List NvBatch) (q : Req) (vs : List (Nat × Nat)),
    let done := ({ s with nvRun := none } : State).bump 0x9070 4 1
    let applied := done.applyItems vs
    let stored := if vs.any storesKept then applied.storeKept else applied
    (s.nvQ = b :: rest → s.nvRun = none → s.supply.vaon = true → s.supply.inputLost = false → readingOk x = true →
      (freeboardOk x b.bytes (s.entry 0x9070 3) = true →
        ∃ t : State, exec (.nvBatch x) s = .next t ∧ t.nvRun = some b ∧ t.nvQ = rest ∧ t.kept = s.kept
          ∧ t = { s with nvRun := some b, nvQ := rest, dict := t.dict, free := s.free + 2 })
      ∧ (freeboardOk x b.bytes (s.entry 0x9070 3) = false → b.work = .items q vs none → s.mgmtQ = [] →
        ∃ (t : State) (wire : List Byte), exec (.nvBatch x) s = .next t ∧ t.nvRun = none ∧ t.nvQ = [] ∧ t.kept = s.kept
          ∧ t.arrived = s.arrived ++ [(0x9001, 1, 1)]
          ∧ t.tx = s.tx ++ [.tsusen q.h.path q.h.session q.h.seq (q.body.response 7 []) wire]))
    ∧ (s.nvRun = some b → s.supply.vaon = true → s.supply.resetAfterBatch = false →
      (s.nvQ ≠ [] → exec .nvBatchDone s = .next done)
      ∧ (s.nvQ = [] → s.mgmtQ = [] → b.work = .items q vs none →
        exec .nvBatchDone s = .next ((if vs.any storesOwner then stored.storeOwner else stored).reply q 0 [])))

/-- At boot the ROM reads the factory record and the rollback record; without either the Ikiroth halts. It runs the first
image that the attempt rule gives and that is accepted, and otherwise offers recovery; nothing boots where the supply is
not up. A report is signed with the identity key over the nonce that asked for it (R403 to R406, R416). -/
def Obligations.BootRuns : Prop :=
  ∀ (s : State) (nonce : BitVec 256),
    let up := s.supply.vaon = true ∧ s.supply.pwrok = true ∧ s.supply.rails = true ∧ s.supply.booted = false
      ∧ s.supply.tripped = false
    let r := { s with supply := { s.supply with booted := true, inReset := false } }.readStore
    let u := { r with plcaNode := BitVec.ofNat 8 (r.entry 0x1001 1) }.setEntry 0x9000 6 r.rollback.counter
    let a := u.attempt
    let good (n : Nat) : Bool := imageOk a.1.rollback.counter (a.1.image n)
    (¬ up → exec .boot s = .next s)
    ∧ (up → tblFind r.kept (entryKey 0x9000 1) = none →
      (s.part.factoryOk = false → ∃ t : State, exec .boot s = .next t ∧ t.mode = 3 ∧ t.arrived = s.arrived)
      ∧ (s.part.factoryOk = true → r.rollA.ok = false → r.rollB.ok = false →
        ∃ t : State, exec .boot s = .next t ∧ t.mode = 3 ∧ t.arrived = s.arrived ++ [(0x9001, 5, 1)])
      ∧ (s.part.factoryOk = true → (r.rollA.ok = true ∨ r.rollB.ok = true) →
        (a.2.find? good = none →
          exec .boot s = .next ((a.1.event 0x9001 0 a.2.length).setMode 2))
        ∧ (∀ n, a.2.find? good = some n →
          exec .boot s = .next (((a.1.event 0x9001 0 (a.2.takeWhile (fun m => !good m)).length).runImage n).bringUp))
        ∧ (r.rollback.trial = 0xFF → imageOk r.rollback.counter (r.image r.rollback.active) = false →
          ∃ t : State, exec .boot s = .next t ∧ t.mode = 2 ∧ t.alive = true
            ∧ t.arrived = s.arrived ++ [(0x9001, 0, 1)] ∧ t.mem = s.mem ∧ t.kept = r.kept)
        ∧ (r.rollback.trial = 0xFF → imageOk r.rollback.counter (r.image r.rollback.active) = true →
            r.entry 0x9000 2 ≠ 1 →
          ∃ t : State, exec .boot s = .next t ∧ t.mode = 0 ∧ t.alive = true ∧ t.trims = s.part.trims
            ∧ t.kept = r.kept)))
    ∧ (s.attest = some nonce →
      exec .attestSigned s
        = .next (({ s with attest := none } : State).replaceDomain (entryKey 0x9060 2)
            (s.reportBody nonce ++ s.identitySign (s.reportBody nonce))))

/-! ### Reset, memory and invariants -/

/-- Reset as the spec gives it, and what the model takes where the spec gives nothing (log entries 10 and 11): every
dictionary entry at its default, no context, session or association, the queue empty, on which the Ikiroth idles. -/
def Obligations.ResetState : Prop :=
  (∀ index sub, State.reset.entry index sub = entryDefault index sub)
  ∧ State.reset.canonical = true ∧ State.reset.sessions = [] ∧ State.reset.assocs = [] ∧ State.reset.ctxs = []
  ∧ State.reset.pending = [] ∧ (∀ n, (State.reset.core n).power = 3 ∧ (State.reset.core n).ctx = none)
  ∧ ∀ s : State, s.pending = [] → step s = .next s

/-- A write of a code word leaves its 64 bytes and the check symbols of R307 for them, and no other; where the word's cells
have no hard fault it reads back, not poisoned (R307, R309, R311). -/
def Obligations.WordsKeep : Prop :=
  ∀ (s : State) (r : Requester) (cw : Nat) (data : List Byte),
    let t := s.writeWord r cw data
    data.length = 64 →
    (∀ i, i < 64 → cell t.mem (64 * cw + i) = data.getD i 0)
    ∧ (∀ i, i < 16 → cell t.check (16 * cw + i) = (checkBytes data).getD i 0)
    ∧ (∀ a, a / 64 ≠ cw → cell t.mem a = cell s.mem a) ∧ (∀ a, a / 16 ≠ cw → cell t.check a = cell s.check a)
    ∧ ((s.wordError cw).hard = [] → (t.readWord r cw).data = data ∧ (t.readWord r cw).poisoned = false)

/-- Every step keeps memory, its check storage and the work counters in their canonical form, and lists no core or context
twice. -/
def Obligations.StepKeepsCanonical : Prop :=
  ∀ (s t : State), s.canonical = true → step s = .next t → t.canonical = true

/-- No step changes what the factory record fixes: the disabled cores, the serial number, the addresses (R1, R2). -/
def Obligations.StepKeepsPart : Prop := ∀ (s t : State), step s = .next t → t.part = s.part
end

