-- ==== Sys2Proof/Laws/Table.lean ====
section
/-! SUPPORT. Laws of the tables and sparse stores of `Machine/Ops.lean`: reading after putting and dropping, and that
every write of a store keeps its canonical form. -/

namespace Sys2Proof.Machine

/-! ### Tables -/

@[simp] theorem tblFind_nil {α : Type} (k : Nat) : tblFind ([] : List (Nat × α)) k = none := rfl

theorem tblFind_tblPut {α : Type} (t : List (Nat × α)) (k j : Nat) (x : α) :
    tblFind (tblPut t k x) j = if k = j then some x else tblFind t j := by
  induction t with
  | nil => simp [tblPut, tblFind]
  | cons y r ih =>
    obtain ⟨a, v⟩ := y
    simp only [tblPut]
    split
    · simp only [tblFind]
    · split
      · subst a; simp only [tblFind]; split <;> rfl
      · simp only [tblFind, ih]
        by_cases hj : a = j
        · have : k ≠ j := by omega
          simp [hj, this]
        · simp [hj]

@[simp] theorem tblFind_tblPut_self {α : Type} (t : List (Nat × α)) (k : Nat) (x : α) :
    tblFind (tblPut t k x) k = some x := by simp [tblFind_tblPut]

theorem tblFind_tblPut_ne {α : Type} (t : List (Nat × α)) {k j : Nat} (x : α) (h : k ≠ j) :
    tblFind (tblPut t k x) j = tblFind t j := by simp [tblFind_tblPut, h]

theorem tblFind_tblDrop {α : Type} (t : List (Nat × α)) (k j : Nat) :
    tblFind (tblDrop t k) j = if k = j then none else tblFind t j := by
  induction t with
  | nil => simp [tblDrop]
  | cons y r ih =>
    obtain ⟨a, v⟩ := y
    have hd : tblDrop ((a, v) :: r) k = if a ≠ k then (a, v) :: tblDrop r k else tblDrop r k := by
      by_cases h : a = k <;> simp [tblDrop, h]
    rw [hd]
    by_cases h : a = k
    · simp only [h, ne_eq, not_true_eq_false, if_false, ih, tblFind]
      split <;> simp_all
    · simp only [h, ne_eq, not_false_eq_true, if_true, tblFind, ih]
      by_cases hj : a = j
      · have : k ≠ j := by omega
        simp [hj, this]
      · simp [hj]

/-- A lookup is unaffected by a filter that keeps every record under its number. -/
theorem tblFind_filter {α : Type} (p : Nat × α → Bool) (t : List (Nat × α)) (k : Nat)
    (h : ∀ x, (k, x) ∈ t → p (k, x) = true) : tblFind (t.filter p) k = tblFind t k := by
  induction t with
  | nil => rfl
  | cons y r ih =>
    obtain ⟨a, v⟩ := y
    have hr := ih (fun x hx => h x (List.mem_cons_of_mem _ hx))
    by_cases ha : a = k
    · subst ha
      have := h v List.mem_cons_self
      simp [List.filter, this, tblFind]
    · by_cases hp : p (a, v) = true
      · simp [List.filter, hp, tblFind, ha, hr]
      · simp only [Bool.not_eq_true] at hp
        simp [List.filter, hp, tblFind, ha, hr]

/-- A filter that drops every record under a number leaves none there. -/
theorem tblFind_filter_none {α : Type} (p : Nat × α → Bool) (t : List (Nat × α)) (k : Nat)
    (h : ∀ x, p (k, x) = false) : tblFind (t.filter p) k = none := by
  induction t with
  | nil => rfl
  | cons y r ih =>
    obtain ⟨a, v⟩ := y
    by_cases ha : a = k
    · subst ha; simp [List.filter, h, ih]
    · by_cases hp : p (a, v) = true
      · simp [List.filter, hp, tblFind, ha, ih]
      · simp only [Bool.not_eq_true] at hp
        simp [List.filter, hp, ih]

/-! ### Stores -/

theorem Store.wf_cons {w : Nat} (a : Nat) (v : BitVec w) (t : Store w) :
    Store.wf ((a, v) :: t) = true ↔ v ≠ 0 ∧ (∀ p ∈ t, a < p.1) ∧ Store.wf t = true := by
  induction t generalizing a v with
  | nil => simp [Store.wf]
  | cons y r ih =>
    obtain ⟨b, u⟩ := y
    have h1 : Store.wf ((a, v) :: (b, u) :: r) = (v != 0 && decide (a < b) && Store.wf ((b, u) :: r)) := rfl
    rw [h1]
    simp only [Bool.and_eq_true, bne_iff_ne, ne_eq, decide_eq_true_eq]
    constructor
    · rintro ⟨⟨hv, hab⟩, hr⟩
      refine ⟨hv, ?_, hr⟩
      intro p hp
      rcases List.mem_cons.1 hp with rfl | hp
      · exact hab
      · exact lt_trans hab (((ih b u).1 hr).2.1 p hp)
    · rintro ⟨hv, hall, hr⟩
      exact ⟨⟨hv, hall (b, u) List.mem_cons_self⟩, hr⟩

theorem Store.wf_filter {w : Nat} (p : Nat × BitVec w → Bool) (t : Store w) (h : Store.wf t = true) :
    Store.wf (t.filter p) = true := by
  induction t with
  | nil => rfl
  | cons y r ih =>
    obtain ⟨a, v⟩ := y
    obtain ⟨hv, hall, hr⟩ := (Store.wf_cons a v r).1 h
    by_cases hp : p (a, v) = true
    · rw [List.filter_cons_of_pos hp]
      exact (Store.wf_cons a v _).2 ⟨hv, fun q hq => hall q (List.mem_of_mem_filter hq), ih hr⟩
    · rw [List.filter_cons_of_neg hp]
      exact ih hr

theorem Store.wf_append {w : Nat} (t u : Store w) (ht : Store.wf t = true) (hu : Store.wf u = true)
    (h : ∀ p ∈ t, ∀ q ∈ u, p.1 < q.1) : Store.wf (t ++ u) = true := by
  induction t with
  | nil => exact hu
  | cons y r ih =>
    obtain ⟨a, v⟩ := y
    obtain ⟨hv, hall, hr⟩ := (Store.wf_cons a v r).1 ht
    refine (Store.wf_cons a v (r ++ u)).2 ⟨hv, ?_, ih hr (fun p hp => h p (List.mem_cons_of_mem _ hp))⟩
    intro p hp
    rcases List.mem_append.1 hp with hp | hp
    · exact hall p hp
    · exact h (a, v) List.mem_cons_self p hp

theorem listed_mem {w : Nat} (a : Nat) (vs : List (BitVec w)) :
    ∀ p ∈ listed a vs, a ≤ p.1 ∧ p.1 < a + vs.length := by
  induction vs generalizing a with
  | nil => simp [listed]
  | cons v r ih =>
    intro p hp
    simp only [listed] at hp
    split at hp
    · have := ih (a + 1) p hp; simp only [List.length_cons]; omega
    · rcases List.mem_cons.1 hp with rfl | hp
      · simp
      · have := ih (a + 1) p hp; simp only [List.length_cons]; omega

theorem Store.wf_listed {w : Nat} (a : Nat) (vs : List (BitVec w)) : Store.wf (listed a vs) = true := by
  induction vs generalizing a with
  | nil => rfl
  | cons v r ih =>
    simp only [listed]
    split
    · exact ih (a + 1)
    · rename_i hv
      exact (Store.wf_cons a v _).2 ⟨hv, fun p hp => by have := listed_mem (a + 1) r p hp; omega, ih (a + 1)⟩

/-- A write of consecutive cells keeps the canonical form. -/
theorem Store.wf_putCells {w : Nat} (t : Store w) (a : Nat) (vs : List (BitVec w)) (h : Store.wf t = true) :
    Store.wf (putCells t a vs) = true := by
  unfold putCells
  refine Store.wf_append _ _ (Store.wf_append _ _ (Store.wf_filter _ t h) (Store.wf_listed a vs) ?_)
    (Store.wf_filter _ t h) ?_
  · intro p hp q hq
    have := listed_mem a vs q hq
    have := (List.mem_filter.1 hp).2
    simp only [decide_eq_true_eq] at this
    omega
  · intro p hp q hq
    have h2 := (List.mem_filter.1 hq).2
    simp only [decide_eq_true_eq] at h2
    rcases List.mem_append.1 hp with hp | hp
    · have := (List.mem_filter.1 hp).2
      simp only [decide_eq_true_eq] at this
      omega
    · have := listed_mem a vs p hp
      omega

theorem Store.wf_putCell {w : Nat} (t : Store w) (a : Nat) (v : BitVec w) (h : Store.wf t = true) :
    Store.wf (putCell t a v) = true := Store.wf_putCells t a [v] h

/-- Zeroing cells keeps the canonical form. -/
theorem Store.wf_clearCells {w : Nat} (t : Store w) (a n : Nat) (h : Store.wf t = true) :
    Store.wf (clearCells t a n) = true := by
  unfold clearCells
  refine Store.wf_append _ _ (Store.wf_filter _ t h) (Store.wf_filter _ t h) ?_
  intro p hp q hq
  have h1 := (List.mem_filter.1 hp).2
  have h2 := (List.mem_filter.1 hq).2
  simp only [decide_eq_true_eq] at h1 h2
  omega

theorem tblFind_append {α : Type} (t u : List (Nat × α)) (k : Nat) :
    tblFind (t ++ u) k = (tblFind t k).orElse (fun _ => tblFind u k) := by
  induction t with
  | nil => simp [tblFind]
  | cons y r ih =>
    obtain ⟨a, v⟩ := y
    simp only [List.cons_append, tblFind, ih]
    split <;> simp

theorem tblFind_mem {α : Type} {t : List (Nat × α)} {k : Nat} {x : α} (h : tblFind t k = some x) : (k, x) ∈ t := by
  induction t with
  | nil => simp at h
  | cons y r ih =>
    obtain ⟨a, v⟩ := y
    simp only [tblFind] at h
    split at h
    · rename_i ha; subst ha; cases h; exact List.mem_cons_self
    · exact List.mem_cons_of_mem _ (ih h)

theorem tblFind_listed {w : Nat} (a : Nat) (vs : List (BitVec w)) (k : Nat) :
    (tblFind (listed a vs) k).getD 0 = if a ≤ k ∧ k < a + vs.length then vs.getD (k - a) 0 else 0 := by
  induction vs generalizing a with
  | nil => simp [listed]
  | cons v r ih =>
    simp only [listed]
    by_cases hk : a = k
    · subst hk
      have hn : tblFind (listed (a + 1) r) a = none := by
        by_contra hc
        obtain ⟨x, hx⟩ := Option.ne_none_iff_exists'.1 hc
        have := listed_mem (a + 1) r _ (tblFind_mem hx)
        simp at this
      split
      · rename_i hv; simp [hn, hv]
      · simp [tblFind]
    · split
      · rw [ih]
        by_cases h1 : a + 1 ≤ k ∧ k < a + 1 + r.length
        · have h2 : a ≤ k ∧ k < a + (v :: r).length := by simp only [List.length_cons]; omega
          rw [if_pos h1, if_pos h2]
          obtain ⟨d, rfl⟩ : ∃ d, k = a + 1 + d := ⟨k - (a + 1), by omega⟩
          have e1 : a + 1 + d - a = d + 1 := by omega
          have e2 : a + 1 + d - (a + 1) = d := by omega
          rw [e1, e2]; rfl
        · have h2 : ¬ (a ≤ k ∧ k < a + (v :: r).length) := by simp only [List.length_cons]; omega
          rw [if_neg h1, if_neg h2]
      · simp only [tblFind, hk, if_false]
        rw [ih]
        by_cases h1 : a + 1 ≤ k ∧ k < a + 1 + r.length
        · have h2 : a ≤ k ∧ k < a + (v :: r).length := by simp only [List.length_cons]; omega
          rw [if_pos h1, if_pos h2]
          obtain ⟨d, rfl⟩ : ∃ d, k = a + 1 + d := ⟨k - (a + 1), by omega⟩
          have e1 : a + 1 + d - a = d + 1 := by omega
          have e2 : a + 1 + d - (a + 1) = d := by omega
          rw [e1, e2]; rfl
        · have h2 : ¬ (a ≤ k ∧ k < a + (v :: r).length) := by simp only [List.length_cons]; omega
          rw [if_neg h1, if_neg h2]

/-- Every cell after a write of consecutive cells. -/
theorem cell_putCells {w : Nat} (t : Store w) (a : Nat) (vs : List (BitVec w)) (k : Nat) :
    cell (putCells t a vs) k = if a ≤ k ∧ k < a + vs.length then vs.getD (k - a) 0 else cell t k := by
  unfold putCells cell
  rw [tblFind_append, tblFind_append]
  by_cases h : a ≤ k ∧ k < a + vs.length
  · have h1 : tblFind (t.filter (fun p => p.1 < a)) k = none := by
      apply tblFind_filter_none; intro x; simp; omega
    have h2 : tblFind (t.filter (fun p => a + vs.length ≤ p.1)) k = none := by
      apply tblFind_filter_none; intro x; simp; omega
    have h3 := tblFind_listed a vs k
    rw [h1, h2, if_pos h]
    rw [if_pos h] at h3
    rw [← h3]
    cases tblFind (listed a vs) k <;> rfl
  · rw [if_neg h]
    have h3 : tblFind (listed a vs) k = none := by
      by_contra hc
      obtain ⟨x, hx⟩ := Option.ne_none_iff_exists'.1 hc
      have := listed_mem a vs _ (tblFind_mem hx)
      exact h this
    rw [h3]
    by_cases hk : k < a
    · have h1 : tblFind (t.filter (fun p => p.1 < a)) k = tblFind t k := by
        apply tblFind_filter; intro x _; simpa using hk
      have h2 : tblFind (t.filter (fun p => a + vs.length ≤ p.1)) k = none := by
        apply tblFind_filter_none; intro x; simp; omega
      rw [h1, h2]; cases tblFind t k <;> rfl
    · have h1 : tblFind (t.filter (fun p => p.1 < a)) k = none := by
        apply tblFind_filter_none; intro x; simpa using hk
      have h2 : tblFind (t.filter (fun p => a + vs.length ≤ p.1)) k = tblFind t k := by
        apply tblFind_filter; intro x _; simp; omega
      rw [h1, h2]; rfl

theorem cell_putCell {w : Nat} (t : Store w) (a : Nat) (v : BitVec w) (k : Nat) :
    cell (putCell t a v) k = if k = a then v else cell t k := by
  unfold putCell
  rw [cell_putCells]
  by_cases h : k = a
  · subst h; simp
  · have : ¬ (a ≤ k ∧ k < a + [v].length) := by simp; omega
    rw [if_neg this, if_neg h]

theorem cell_clearCells {w : Nat} (t : Store w) (a n k : Nat) :
    cell (clearCells t a n) k = if a ≤ k ∧ k < a + n then 0 else cell t k := by
  unfold clearCells cell
  rw [tblFind_append]
  by_cases h : a ≤ k ∧ k < a + n
  · have h1 : tblFind (t.filter (fun p => p.1 < a)) k = none := by
      apply tblFind_filter_none; intro x; simp; omega
    have h2 : tblFind (t.filter (fun p => a + n ≤ p.1)) k = none := by
      apply tblFind_filter_none; intro x; simp; omega
    rw [h1, h2, if_pos h]; rfl
  · rw [if_neg h]
    by_cases hk : k < a
    · have h1 : tblFind (t.filter (fun p => p.1 < a)) k = tblFind t k := by
        apply tblFind_filter; intro x _; simpa using hk
      have h2 : tblFind (t.filter (fun p => a + n ≤ p.1)) k = none := by
        apply tblFind_filter_none; intro x; simp; omega
      rw [h1, h2]; cases tblFind t k <;> rfl
    · have h1 : tblFind (t.filter (fun p => p.1 < a)) k = none := by
        apply tblFind_filter_none; intro x; simpa using hk
      have h2 : tblFind (t.filter (fun p => a + n ≤ p.1)) k = tblFind t k := by
        apply tblFind_filter; intro x _; simp; omega
      rw [h1, h2]; rfl

/-- Cells read back cell by cell. -/
theorem cells_eq {w : Nat} (t : Store w) (a n : Nat) :
    cells t a n = (List.range n).map (fun i => cell t (a + i)) := by
  unfold cells
  refine List.map_congr_left ?_
  intro i hi
  have hi := List.mem_range.1 hi
  unfold cell
  rw [tblFind_filter]
  intro x _
  simp; omega

end Sys2Proof.Machine
end

