-- ==== Sys2Proof/Laws/State.lean ====
section
/-! SUPPORT. What each update of `Machine/Ops.lean` leaves of every field of the state, so that no proof unfolds a record
update; and the parts of the state after an update of a part. -/

namespace Sys2Proof.Machine

variable (s : State)

/-! ### `setCore` -/

@[simp] theorem State.setCore_part (n : Nat) (c : CoreState) : (s.setCore n c).part = s.part := rfl
@[simp] theorem State.setCore_supply (n : Nat) (c : CoreState) : (s.setCore n c).supply = s.supply := rfl
@[simp] theorem State.setCore_ctxs (n : Nat) (c : CoreState) : (s.setCore n c).ctxs = s.ctxs := rfl
@[simp] theorem State.setCore_polders (n : Nat) (c : CoreState) : (s.setCore n c).polders = s.polders := rfl
@[simp] theorem State.setCore_mem (n : Nat) (c : CoreState) : (s.setCore n c).mem = s.mem := rfl
@[simp] theorem State.setCore_check (n : Nat) (c : CoreState) : (s.setCore n c).check = s.check := rfl
@[simp] theorem State.setCore_memErr (n : Nat) (c : CoreState) : (s.setCore n c).memErr = s.memErr := rfl
@[simp] theorem State.setCore_counters (n : Nat) (c : CoreState) : (s.setCore n c).counters = s.counters := rfl
@[simp] theorem State.setCore_ctrQ (n : Nat) (c : CoreState) : (s.setCore n c).ctrQ = s.ctrQ := rfl
@[simp] theorem State.setCore_fabricOps (n : Nat) (c : CoreState) : (s.setCore n c).fabricOps = s.fabricOps := rfl
@[simp] theorem State.setCore_fabricPkts (n : Nat) (c : CoreState) : (s.setCore n c).fabricPkts = s.fabricPkts := rfl
@[simp] theorem State.setCore_links (n : Nat) (c : CoreState) : (s.setCore n c).links = s.links := rfl
@[simp] theorem State.setCore_engines (n : Nat) (c : CoreState) : (s.setCore n c).engines = s.engines := rfl
@[simp] theorem State.setCore_dict (n : Nat) (c : CoreState) : (s.setCore n c).dict = s.dict := rfl
@[simp] theorem State.setCore_kept (n : Nat) (c : CoreState) : (s.setCore n c).kept = s.kept := rfl
@[simp] theorem State.setCore_domains (n : Nat) (c : CoreState) : (s.setCore n c).domains = s.domains := rfl
@[simp] theorem State.setCore_arrived (n : Nat) (c : CoreState) : (s.setCore n c).arrived = s.arrived := rfl
@[simp] theorem State.setCore_alertN (n : Nat) (c : CoreState) : (s.setCore n c).alertN = s.alertN := rfl
@[simp] theorem State.setCore_thermTripN (n : Nat) (c : CoreState) : (s.setCore n c).thermTripN = s.thermTripN := rfl
@[simp] theorem State.setCore_plcaNode (n : Nat) (c : CoreState) : (s.setCore n c).plcaNode = s.plcaNode := rfl
@[simp] theorem State.setCore_sessions (n : Nat) (c : CoreState) : (s.setCore n c).sessions = s.sessions := rfl
@[simp] theorem State.setCore_mgmtQ (n : Nat) (c : CoreState) : (s.setCore n c).mgmtQ = s.mgmtQ := rfl
@[simp] theorem State.setCore_handshakes (n : Nat) (c : CoreState) : (s.setCore n c).handshakes = s.handshakes := rfl
@[simp] theorem State.setCore_signQ (n : Nat) (c : CoreState) : (s.setCore n c).signQ = s.signQ := rfl
@[simp] theorem State.setCore_assocs (n : Nat) (c : CoreState) : (s.setCore n c).assocs = s.assocs := rfl
@[simp] theorem State.setCore_ports (n : Nat) (c : CoreState) : (s.setCore n c).ports = s.ports := rfl
@[simp] theorem State.setCore_sealKeys (n : Nat) (c : CoreState) : (s.setCore n c).sealKeys = s.sealKeys := rfl
@[simp] theorem State.setCore_attest (n : Nat) (c : CoreState) : (s.setCore n c).attest = s.attest := rfl
@[simp] theorem State.setCore_slotA (n : Nat) (c : CoreState) : (s.setCore n c).slotA = s.slotA := rfl
@[simp] theorem State.setCore_slotB (n : Nat) (c : CoreState) : (s.setCore n c).slotB = s.slotB := rfl
@[simp] theorem State.setCore_rollA (n : Nat) (c : CoreState) : (s.setCore n c).rollA = s.rollA := rfl
@[simp] theorem State.setCore_rollB (n : Nat) (c : CoreState) : (s.setCore n c).rollB = s.rollB := rfl
@[simp] theorem State.setCore_keptA (n : Nat) (c : CoreState) : (s.setCore n c).keptA = s.keptA := rfl
@[simp] theorem State.setCore_keptB (n : Nat) (c : CoreState) : (s.setCore n c).keptB = s.keptB := rfl
@[simp] theorem State.setCore_ownerA (n : Nat) (c : CoreState) : (s.setCore n c).ownerA = s.ownerA := rfl
@[simp] theorem State.setCore_ownerB (n : Nat) (c : CoreState) : (s.setCore n c).ownerB = s.ownerB := rfl
@[simp] theorem State.setCore_secret (n : Nat) (c : CoreState) : (s.setCore n c).secret = s.secret := rfl
@[simp] theorem State.setCore_trims (n : Nat) (c : CoreState) : (s.setCore n c).trims = s.trims := rfl
@[simp] theorem State.setCore_nvQ (n : Nat) (c : CoreState) : (s.setCore n c).nvQ = s.nvQ := rfl
@[simp] theorem State.setCore_nvRun (n : Nat) (c : CoreState) : (s.setCore n c).nvRun = s.nvRun := rfl
@[simp] theorem State.setCore_wakeQ (n : Nat) (c : CoreState) : (s.setCore n c).wakeQ = s.wakeQ := rfl
@[simp] theorem State.setCore_wakeHeld (n : Nat) (c : CoreState) : (s.setCore n c).wakeHeld = s.wakeHeld := rfl
@[simp] theorem State.setCore_startQ (n : Nat) (c : CoreState) : (s.setCore n c).startQ = s.startQ := rfl
@[simp] theorem State.setCore_evalsBelow (n : Nat) (c : CoreState) : (s.setCore n c).evalsBelow = s.evalsBelow := rfl
@[simp] theorem State.setCore_evalsAtMax (n : Nat) (c : CoreState) : (s.setCore n c).evalsAtMax = s.evalsAtMax := rfl
@[simp] theorem State.setCore_readyCount (n : Nat) (c : CoreState) : (s.setCore n c).readyCount = s.readyCount := rfl
@[simp] theorem State.setCore_nextId (n : Nat) (c : CoreState) : (s.setCore n c).nextId = s.nextId := rfl
@[simp] theorem State.setCore_pending (n : Nat) (c : CoreState) : (s.setCore n c).pending = s.pending := rfl
@[simp] theorem State.setCore_tx (n : Nat) (c : CoreState) : (s.setCore n c).tx = s.tx := rfl
@[simp] theorem State.setCore_free (n : Nat) (c : CoreState) : (s.setCore n c).free = s.free := rfl

/-! ### `onCore` -/

@[simp] theorem State.onCore_part (n : Nat) (f : CoreState → CoreState) : (s.onCore n f).part = s.part := rfl
@[simp] theorem State.onCore_supply (n : Nat) (f : CoreState → CoreState) : (s.onCore n f).supply = s.supply := rfl
@[simp] theorem State.onCore_ctxs (n : Nat) (f : CoreState → CoreState) : (s.onCore n f).ctxs = s.ctxs := rfl
@[simp] theorem State.onCore_polders (n : Nat) (f : CoreState → CoreState) : (s.onCore n f).polders = s.polders := rfl
@[simp] theorem State.onCore_mem (n : Nat) (f : CoreState → CoreState) : (s.onCore n f).mem = s.mem := rfl
@[simp] theorem State.onCore_check (n : Nat) (f : CoreState → CoreState) : (s.onCore n f).check = s.check := rfl
@[simp] theorem State.onCore_memErr (n : Nat) (f : CoreState → CoreState) : (s.onCore n f).memErr = s.memErr := rfl
@[simp] theorem State.onCore_counters (n : Nat) (f : CoreState → CoreState) : (s.onCore n f).counters = s.counters := rfl
@[simp] theorem State.onCore_ctrQ (n : Nat) (f : CoreState → CoreState) : (s.onCore n f).ctrQ = s.ctrQ := rfl
@[simp] theorem State.onCore_fabricOps (n : Nat) (f : CoreState → CoreState) : (s.onCore n f).fabricOps = s.fabricOps := rfl
@[simp] theorem State.onCore_fabricPkts (n : Nat) (f : CoreState → CoreState) : (s.onCore n f).fabricPkts = s.fabricPkts := rfl
@[simp] theorem State.onCore_links (n : Nat) (f : CoreState → CoreState) : (s.onCore n f).links = s.links := rfl
@[simp] theorem State.onCore_engines (n : Nat) (f : CoreState → CoreState) : (s.onCore n f).engines = s.engines := rfl
@[simp] theorem State.onCore_dict (n : Nat) (f : CoreState → CoreState) : (s.onCore n f).dict = s.dict := rfl
@[simp] theorem State.onCore_kept (n : Nat) (f : CoreState → CoreState) : (s.onCore n f).kept = s.kept := rfl
@[simp] theorem State.onCore_domains (n : Nat) (f : CoreState → CoreState) : (s.onCore n f).domains = s.domains := rfl
@[simp] theorem State.onCore_arrived (n : Nat) (f : CoreState → CoreState) : (s.onCore n f).arrived = s.arrived := rfl
@[simp] theorem State.onCore_alertN (n : Nat) (f : CoreState → CoreState) : (s.onCore n f).alertN = s.alertN := rfl
@[simp] theorem State.onCore_thermTripN (n : Nat) (f : CoreState → CoreState) : (s.onCore n f).thermTripN = s.thermTripN := rfl
@[simp] theorem State.onCore_plcaNode (n : Nat) (f : CoreState → CoreState) : (s.onCore n f).plcaNode = s.plcaNode := rfl
@[simp] theorem State.onCore_sessions (n : Nat) (f : CoreState → CoreState) : (s.onCore n f).sessions = s.sessions := rfl
@[simp] theorem State.onCore_mgmtQ (n : Nat) (f : CoreState → CoreState) : (s.onCore n f).mgmtQ = s.mgmtQ := rfl
@[simp] theorem State.onCore_handshakes (n : Nat) (f : CoreState → CoreState) : (s.onCore n f).handshakes = s.handshakes := rfl
@[simp] theorem State.onCore_signQ (n : Nat) (f : CoreState → CoreState) : (s.onCore n f).signQ = s.signQ := rfl
@[simp] theorem State.onCore_assocs (n : Nat) (f : CoreState → CoreState) : (s.onCore n f).assocs = s.assocs := rfl
@[simp] theorem State.onCore_ports (n : Nat) (f : CoreState → CoreState) : (s.onCore n f).ports = s.ports := rfl
@[simp] theorem State.onCore_sealKeys (n : Nat) (f : CoreState → CoreState) : (s.onCore n f).sealKeys = s.sealKeys := rfl
@[simp] theorem State.onCore_attest (n : Nat) (f : CoreState → CoreState) : (s.onCore n f).attest = s.attest := rfl
@[simp] theorem State.onCore_slotA (n : Nat) (f : CoreState → CoreState) : (s.onCore n f).slotA = s.slotA := rfl
@[simp] theorem State.onCore_slotB (n : Nat) (f : CoreState → CoreState) : (s.onCore n f).slotB = s.slotB := rfl
@[simp] theorem State.onCore_rollA (n : Nat) (f : CoreState → CoreState) : (s.onCore n f).rollA = s.rollA := rfl
@[simp] theorem State.onCore_rollB (n : Nat) (f : CoreState → CoreState) : (s.onCore n f).rollB = s.rollB := rfl
@[simp] theorem State.onCore_keptA (n : Nat) (f : CoreState → CoreState) : (s.onCore n f).keptA = s.keptA := rfl
@[simp] theorem State.onCore_keptB (n : Nat) (f : CoreState → CoreState) : (s.onCore n f).keptB = s.keptB := rfl
@[simp] theorem State.onCore_ownerA (n : Nat) (f : CoreState → CoreState) : (s.onCore n f).ownerA = s.ownerA := rfl
@[simp] theorem State.onCore_ownerB (n : Nat) (f : CoreState → CoreState) : (s.onCore n f).ownerB = s.ownerB := rfl
@[simp] theorem State.onCore_secret (n : Nat) (f : CoreState → CoreState) : (s.onCore n f).secret = s.secret := rfl
@[simp] theorem State.onCore_trims (n : Nat) (f : CoreState → CoreState) : (s.onCore n f).trims = s.trims := rfl
@[simp] theorem State.onCore_nvQ (n : Nat) (f : CoreState → CoreState) : (s.onCore n f).nvQ = s.nvQ := rfl
@[simp] theorem State.onCore_nvRun (n : Nat) (f : CoreState → CoreState) : (s.onCore n f).nvRun = s.nvRun := rfl
@[simp] theorem State.onCore_wakeQ (n : Nat) (f : CoreState → CoreState) : (s.onCore n f).wakeQ = s.wakeQ := rfl
@[simp] theorem State.onCore_wakeHeld (n : Nat) (f : CoreState → CoreState) : (s.onCore n f).wakeHeld = s.wakeHeld := rfl
@[simp] theorem State.onCore_startQ (n : Nat) (f : CoreState → CoreState) : (s.onCore n f).startQ = s.startQ := rfl
@[simp] theorem State.onCore_evalsBelow (n : Nat) (f : CoreState → CoreState) : (s.onCore n f).evalsBelow = s.evalsBelow := rfl
@[simp] theorem State.onCore_evalsAtMax (n : Nat) (f : CoreState → CoreState) : (s.onCore n f).evalsAtMax = s.evalsAtMax := rfl
@[simp] theorem State.onCore_readyCount (n : Nat) (f : CoreState → CoreState) : (s.onCore n f).readyCount = s.readyCount := rfl
@[simp] theorem State.onCore_nextId (n : Nat) (f : CoreState → CoreState) : (s.onCore n f).nextId = s.nextId := rfl
@[simp] theorem State.onCore_pending (n : Nat) (f : CoreState → CoreState) : (s.onCore n f).pending = s.pending := rfl
@[simp] theorem State.onCore_tx (n : Nat) (f : CoreState → CoreState) : (s.onCore n f).tx = s.tx := rfl
@[simp] theorem State.onCore_free (n : Nat) (f : CoreState → CoreState) : (s.onCore n f).free = s.free := rfl

/-! ### `setCtx` -/

@[simp] theorem State.setCtx_part (n : Nat) (c : Ctx) : (s.setCtx n c).part = s.part := rfl
@[simp] theorem State.setCtx_supply (n : Nat) (c : Ctx) : (s.setCtx n c).supply = s.supply := rfl
@[simp] theorem State.setCtx_cores (n : Nat) (c : Ctx) : (s.setCtx n c).cores = s.cores := rfl
@[simp] theorem State.setCtx_polders (n : Nat) (c : Ctx) : (s.setCtx n c).polders = s.polders := rfl
@[simp] theorem State.setCtx_mem (n : Nat) (c : Ctx) : (s.setCtx n c).mem = s.mem := rfl
@[simp] theorem State.setCtx_check (n : Nat) (c : Ctx) : (s.setCtx n c).check = s.check := rfl
@[simp] theorem State.setCtx_memErr (n : Nat) (c : Ctx) : (s.setCtx n c).memErr = s.memErr := rfl
@[simp] theorem State.setCtx_counters (n : Nat) (c : Ctx) : (s.setCtx n c).counters = s.counters := rfl
@[simp] theorem State.setCtx_ctrQ (n : Nat) (c : Ctx) : (s.setCtx n c).ctrQ = s.ctrQ := rfl
@[simp] theorem State.setCtx_fabricOps (n : Nat) (c : Ctx) : (s.setCtx n c).fabricOps = s.fabricOps := rfl
@[simp] theorem State.setCtx_fabricPkts (n : Nat) (c : Ctx) : (s.setCtx n c).fabricPkts = s.fabricPkts := rfl
@[simp] theorem State.setCtx_links (n : Nat) (c : Ctx) : (s.setCtx n c).links = s.links := rfl
@[simp] theorem State.setCtx_engines (n : Nat) (c : Ctx) : (s.setCtx n c).engines = s.engines := rfl
@[simp] theorem State.setCtx_dict (n : Nat) (c : Ctx) : (s.setCtx n c).dict = s.dict := rfl
@[simp] theorem State.setCtx_kept (n : Nat) (c : Ctx) : (s.setCtx n c).kept = s.kept := rfl
@[simp] theorem State.setCtx_domains (n : Nat) (c : Ctx) : (s.setCtx n c).domains = s.domains := rfl
@[simp] theorem State.setCtx_arrived (n : Nat) (c : Ctx) : (s.setCtx n c).arrived = s.arrived := rfl
@[simp] theorem State.setCtx_alertN (n : Nat) (c : Ctx) : (s.setCtx n c).alertN = s.alertN := rfl
@[simp] theorem State.setCtx_thermTripN (n : Nat) (c : Ctx) : (s.setCtx n c).thermTripN = s.thermTripN := rfl
@[simp] theorem State.setCtx_plcaNode (n : Nat) (c : Ctx) : (s.setCtx n c).plcaNode = s.plcaNode := rfl
@[simp] theorem State.setCtx_sessions (n : Nat) (c : Ctx) : (s.setCtx n c).sessions = s.sessions := rfl
@[simp] theorem State.setCtx_mgmtQ (n : Nat) (c : Ctx) : (s.setCtx n c).mgmtQ = s.mgmtQ := rfl
@[simp] theorem State.setCtx_handshakes (n : Nat) (c : Ctx) : (s.setCtx n c).handshakes = s.handshakes := rfl
@[simp] theorem State.setCtx_signQ (n : Nat) (c : Ctx) : (s.setCtx n c).signQ = s.signQ := rfl
@[simp] theorem State.setCtx_assocs (n : Nat) (c : Ctx) : (s.setCtx n c).assocs = s.assocs := rfl
@[simp] theorem State.setCtx_ports (n : Nat) (c : Ctx) : (s.setCtx n c).ports = s.ports := rfl
@[simp] theorem State.setCtx_sealKeys (n : Nat) (c : Ctx) : (s.setCtx n c).sealKeys = s.sealKeys := rfl
@[simp] theorem State.setCtx_attest (n : Nat) (c : Ctx) : (s.setCtx n c).attest = s.attest := rfl
@[simp] theorem State.setCtx_slotA (n : Nat) (c : Ctx) : (s.setCtx n c).slotA = s.slotA := rfl
@[simp] theorem State.setCtx_slotB (n : Nat) (c : Ctx) : (s.setCtx n c).slotB = s.slotB := rfl
@[simp] theorem State.setCtx_rollA (n : Nat) (c : Ctx) : (s.setCtx n c).rollA = s.rollA := rfl
@[simp] theorem State.setCtx_rollB (n : Nat) (c : Ctx) : (s.setCtx n c).rollB = s.rollB := rfl
@[simp] theorem State.setCtx_keptA (n : Nat) (c : Ctx) : (s.setCtx n c).keptA = s.keptA := rfl
@[simp] theorem State.setCtx_keptB (n : Nat) (c : Ctx) : (s.setCtx n c).keptB = s.keptB := rfl
@[simp] theorem State.setCtx_ownerA (n : Nat) (c : Ctx) : (s.setCtx n c).ownerA = s.ownerA := rfl
@[simp] theorem State.setCtx_ownerB (n : Nat) (c : Ctx) : (s.setCtx n c).ownerB = s.ownerB := rfl
@[simp] theorem State.setCtx_secret (n : Nat) (c : Ctx) : (s.setCtx n c).secret = s.secret := rfl
@[simp] theorem State.setCtx_trims (n : Nat) (c : Ctx) : (s.setCtx n c).trims = s.trims := rfl
@[simp] theorem State.setCtx_nvQ (n : Nat) (c : Ctx) : (s.setCtx n c).nvQ = s.nvQ := rfl
@[simp] theorem State.setCtx_nvRun (n : Nat) (c : Ctx) : (s.setCtx n c).nvRun = s.nvRun := rfl
@[simp] theorem State.setCtx_wakeQ (n : Nat) (c : Ctx) : (s.setCtx n c).wakeQ = s.wakeQ := rfl
@[simp] theorem State.setCtx_wakeHeld (n : Nat) (c : Ctx) : (s.setCtx n c).wakeHeld = s.wakeHeld := rfl
@[simp] theorem State.setCtx_startQ (n : Nat) (c : Ctx) : (s.setCtx n c).startQ = s.startQ := rfl
@[simp] theorem State.setCtx_evalsBelow (n : Nat) (c : Ctx) : (s.setCtx n c).evalsBelow = s.evalsBelow := rfl
@[simp] theorem State.setCtx_evalsAtMax (n : Nat) (c : Ctx) : (s.setCtx n c).evalsAtMax = s.evalsAtMax := rfl
@[simp] theorem State.setCtx_readyCount (n : Nat) (c : Ctx) : (s.setCtx n c).readyCount = s.readyCount := rfl
@[simp] theorem State.setCtx_nextId (n : Nat) (c : Ctx) : (s.setCtx n c).nextId = s.nextId := rfl
@[simp] theorem State.setCtx_pending (n : Nat) (c : Ctx) : (s.setCtx n c).pending = s.pending := rfl
@[simp] theorem State.setCtx_tx (n : Nat) (c : Ctx) : (s.setCtx n c).tx = s.tx := rfl
@[simp] theorem State.setCtx_free (n : Nat) (c : Ctx) : (s.setCtx n c).free = s.free := rfl

/-! ### `onCtx` -/

@[simp] theorem State.onCtx_part (n : Nat) (f : Ctx → Ctx) : (s.onCtx n f).part = s.part := rfl
@[simp] theorem State.onCtx_supply (n : Nat) (f : Ctx → Ctx) : (s.onCtx n f).supply = s.supply := rfl
@[simp] theorem State.onCtx_cores (n : Nat) (f : Ctx → Ctx) : (s.onCtx n f).cores = s.cores := rfl
@[simp] theorem State.onCtx_polders (n : Nat) (f : Ctx → Ctx) : (s.onCtx n f).polders = s.polders := rfl
@[simp] theorem State.onCtx_mem (n : Nat) (f : Ctx → Ctx) : (s.onCtx n f).mem = s.mem := rfl
@[simp] theorem State.onCtx_check (n : Nat) (f : Ctx → Ctx) : (s.onCtx n f).check = s.check := rfl
@[simp] theorem State.onCtx_memErr (n : Nat) (f : Ctx → Ctx) : (s.onCtx n f).memErr = s.memErr := rfl
@[simp] theorem State.onCtx_counters (n : Nat) (f : Ctx → Ctx) : (s.onCtx n f).counters = s.counters := rfl
@[simp] theorem State.onCtx_ctrQ (n : Nat) (f : Ctx → Ctx) : (s.onCtx n f).ctrQ = s.ctrQ := rfl
@[simp] theorem State.onCtx_fabricOps (n : Nat) (f : Ctx → Ctx) : (s.onCtx n f).fabricOps = s.fabricOps := rfl
@[simp] theorem State.onCtx_fabricPkts (n : Nat) (f : Ctx → Ctx) : (s.onCtx n f).fabricPkts = s.fabricPkts := rfl
@[simp] theorem State.onCtx_links (n : Nat) (f : Ctx → Ctx) : (s.onCtx n f).links = s.links := rfl
@[simp] theorem State.onCtx_engines (n : Nat) (f : Ctx → Ctx) : (s.onCtx n f).engines = s.engines := rfl
@[simp] theorem State.onCtx_dict (n : Nat) (f : Ctx → Ctx) : (s.onCtx n f).dict = s.dict := rfl
@[simp] theorem State.onCtx_kept (n : Nat) (f : Ctx → Ctx) : (s.onCtx n f).kept = s.kept := rfl
@[simp] theorem State.onCtx_domains (n : Nat) (f : Ctx → Ctx) : (s.onCtx n f).domains = s.domains := rfl
@[simp] theorem State.onCtx_arrived (n : Nat) (f : Ctx → Ctx) : (s.onCtx n f).arrived = s.arrived := rfl
@[simp] theorem State.onCtx_alertN (n : Nat) (f : Ctx → Ctx) : (s.onCtx n f).alertN = s.alertN := rfl
@[simp] theorem State.onCtx_thermTripN (n : Nat) (f : Ctx → Ctx) : (s.onCtx n f).thermTripN = s.thermTripN := rfl
@[simp] theorem State.onCtx_plcaNode (n : Nat) (f : Ctx → Ctx) : (s.onCtx n f).plcaNode = s.plcaNode := rfl
@[simp] theorem State.onCtx_sessions (n : Nat) (f : Ctx → Ctx) : (s.onCtx n f).sessions = s.sessions := rfl
@[simp] theorem State.onCtx_mgmtQ (n : Nat) (f : Ctx → Ctx) : (s.onCtx n f).mgmtQ = s.mgmtQ := rfl
@[simp] theorem State.onCtx_handshakes (n : Nat) (f : Ctx → Ctx) : (s.onCtx n f).handshakes = s.handshakes := rfl
@[simp] theorem State.onCtx_signQ (n : Nat) (f : Ctx → Ctx) : (s.onCtx n f).signQ = s.signQ := rfl
@[simp] theorem State.onCtx_assocs (n : Nat) (f : Ctx → Ctx) : (s.onCtx n f).assocs = s.assocs := rfl
@[simp] theorem State.onCtx_ports (n : Nat) (f : Ctx → Ctx) : (s.onCtx n f).ports = s.ports := rfl
@[simp] theorem State.onCtx_sealKeys (n : Nat) (f : Ctx → Ctx) : (s.onCtx n f).sealKeys = s.sealKeys := rfl
@[simp] theorem State.onCtx_attest (n : Nat) (f : Ctx → Ctx) : (s.onCtx n f).attest = s.attest := rfl
@[simp] theorem State.onCtx_slotA (n : Nat) (f : Ctx → Ctx) : (s.onCtx n f).slotA = s.slotA := rfl
@[simp] theorem State.onCtx_slotB (n : Nat) (f : Ctx → Ctx) : (s.onCtx n f).slotB = s.slotB := rfl
@[simp] theorem State.onCtx_rollA (n : Nat) (f : Ctx → Ctx) : (s.onCtx n f).rollA = s.rollA := rfl
@[simp] theorem State.onCtx_rollB (n : Nat) (f : Ctx → Ctx) : (s.onCtx n f).rollB = s.rollB := rfl
@[simp] theorem State.onCtx_keptA (n : Nat) (f : Ctx → Ctx) : (s.onCtx n f).keptA = s.keptA := rfl
@[simp] theorem State.onCtx_keptB (n : Nat) (f : Ctx → Ctx) : (s.onCtx n f).keptB = s.keptB := rfl
@[simp] theorem State.onCtx_ownerA (n : Nat) (f : Ctx → Ctx) : (s.onCtx n f).ownerA = s.ownerA := rfl
@[simp] theorem State.onCtx_ownerB (n : Nat) (f : Ctx → Ctx) : (s.onCtx n f).ownerB = s.ownerB := rfl
@[simp] theorem State.onCtx_secret (n : Nat) (f : Ctx → Ctx) : (s.onCtx n f).secret = s.secret := rfl
@[simp] theorem State.onCtx_trims (n : Nat) (f : Ctx → Ctx) : (s.onCtx n f).trims = s.trims := rfl
@[simp] theorem State.onCtx_nvQ (n : Nat) (f : Ctx → Ctx) : (s.onCtx n f).nvQ = s.nvQ := rfl
@[simp] theorem State.onCtx_nvRun (n : Nat) (f : Ctx → Ctx) : (s.onCtx n f).nvRun = s.nvRun := rfl
@[simp] theorem State.onCtx_wakeQ (n : Nat) (f : Ctx → Ctx) : (s.onCtx n f).wakeQ = s.wakeQ := rfl
@[simp] theorem State.onCtx_wakeHeld (n : Nat) (f : Ctx → Ctx) : (s.onCtx n f).wakeHeld = s.wakeHeld := rfl
@[simp] theorem State.onCtx_startQ (n : Nat) (f : Ctx → Ctx) : (s.onCtx n f).startQ = s.startQ := rfl
@[simp] theorem State.onCtx_evalsBelow (n : Nat) (f : Ctx → Ctx) : (s.onCtx n f).evalsBelow = s.evalsBelow := rfl
@[simp] theorem State.onCtx_evalsAtMax (n : Nat) (f : Ctx → Ctx) : (s.onCtx n f).evalsAtMax = s.evalsAtMax := rfl
@[simp] theorem State.onCtx_readyCount (n : Nat) (f : Ctx → Ctx) : (s.onCtx n f).readyCount = s.readyCount := rfl
@[simp] theorem State.onCtx_nextId (n : Nat) (f : Ctx → Ctx) : (s.onCtx n f).nextId = s.nextId := rfl
@[simp] theorem State.onCtx_pending (n : Nat) (f : Ctx → Ctx) : (s.onCtx n f).pending = s.pending := rfl
@[simp] theorem State.onCtx_tx (n : Nat) (f : Ctx → Ctx) : (s.onCtx n f).tx = s.tx := rfl
@[simp] theorem State.onCtx_free (n : Nat) (f : Ctx → Ctx) : (s.onCtx n f).free = s.free := rfl

/-! ### `setPolder` -/

@[simp] theorem State.setPolder_part (n : Nat) (p : Polder) : (s.setPolder n p).part = s.part := rfl
@[simp] theorem State.setPolder_supply (n : Nat) (p : Polder) : (s.setPolder n p).supply = s.supply := rfl
@[simp] theorem State.setPolder_cores (n : Nat) (p : Polder) : (s.setPolder n p).cores = s.cores := rfl
@[simp] theorem State.setPolder_ctxs (n : Nat) (p : Polder) : (s.setPolder n p).ctxs = s.ctxs := rfl
@[simp] theorem State.setPolder_mem (n : Nat) (p : Polder) : (s.setPolder n p).mem = s.mem := rfl
@[simp] theorem State.setPolder_check (n : Nat) (p : Polder) : (s.setPolder n p).check = s.check := rfl
@[simp] theorem State.setPolder_memErr (n : Nat) (p : Polder) : (s.setPolder n p).memErr = s.memErr := rfl
@[simp] theorem State.setPolder_counters (n : Nat) (p : Polder) : (s.setPolder n p).counters = s.counters := rfl
@[simp] theorem State.setPolder_ctrQ (n : Nat) (p : Polder) : (s.setPolder n p).ctrQ = s.ctrQ := rfl
@[simp] theorem State.setPolder_fabricOps (n : Nat) (p : Polder) : (s.setPolder n p).fabricOps = s.fabricOps := rfl
@[simp] theorem State.setPolder_fabricPkts (n : Nat) (p : Polder) : (s.setPolder n p).fabricPkts = s.fabricPkts := rfl
@[simp] theorem State.setPolder_links (n : Nat) (p : Polder) : (s.setPolder n p).links = s.links := rfl
@[simp] theorem State.setPolder_engines (n : Nat) (p : Polder) : (s.setPolder n p).engines = s.engines := rfl
@[simp] theorem State.setPolder_dict (n : Nat) (p : Polder) : (s.setPolder n p).dict = s.dict := rfl
@[simp] theorem State.setPolder_kept (n : Nat) (p : Polder) : (s.setPolder n p).kept = s.kept := rfl
@[simp] theorem State.setPolder_domains (n : Nat) (p : Polder) : (s.setPolder n p).domains = s.domains := rfl
@[simp] theorem State.setPolder_arrived (n : Nat) (p : Polder) : (s.setPolder n p).arrived = s.arrived := rfl
@[simp] theorem State.setPolder_alertN (n : Nat) (p : Polder) : (s.setPolder n p).alertN = s.alertN := rfl
@[simp] theorem State.setPolder_thermTripN (n : Nat) (p : Polder) : (s.setPolder n p).thermTripN = s.thermTripN := rfl
@[simp] theorem State.setPolder_plcaNode (n : Nat) (p : Polder) : (s.setPolder n p).plcaNode = s.plcaNode := rfl
@[simp] theorem State.setPolder_sessions (n : Nat) (p : Polder) : (s.setPolder n p).sessions = s.sessions := rfl
@[simp] theorem State.setPolder_mgmtQ (n : Nat) (p : Polder) : (s.setPolder n p).mgmtQ = s.mgmtQ := rfl
@[simp] theorem State.setPolder_handshakes (n : Nat) (p : Polder) : (s.setPolder n p).handshakes = s.handshakes := rfl
@[simp] theorem State.setPolder_signQ (n : Nat) (p : Polder) : (s.setPolder n p).signQ = s.signQ := rfl
@[simp] theorem State.setPolder_assocs (n : Nat) (p : Polder) : (s.setPolder n p).assocs = s.assocs := rfl
@[simp] theorem State.setPolder_ports (n : Nat) (p : Polder) : (s.setPolder n p).ports = s.ports := rfl
@[simp] theorem State.setPolder_sealKeys (n : Nat) (p : Polder) : (s.setPolder n p).sealKeys = s.sealKeys := rfl
@[simp] theorem State.setPolder_attest (n : Nat) (p : Polder) : (s.setPolder n p).attest = s.attest := rfl
@[simp] theorem State.setPolder_slotA (n : Nat) (p : Polder) : (s.setPolder n p).slotA = s.slotA := rfl
@[simp] theorem State.setPolder_slotB (n : Nat) (p : Polder) : (s.setPolder n p).slotB = s.slotB := rfl
@[simp] theorem State.setPolder_rollA (n : Nat) (p : Polder) : (s.setPolder n p).rollA = s.rollA := rfl
@[simp] theorem State.setPolder_rollB (n : Nat) (p : Polder) : (s.setPolder n p).rollB = s.rollB := rfl
@[simp] theorem State.setPolder_keptA (n : Nat) (p : Polder) : (s.setPolder n p).keptA = s.keptA := rfl
@[simp] theorem State.setPolder_keptB (n : Nat) (p : Polder) : (s.setPolder n p).keptB = s.keptB := rfl
@[simp] theorem State.setPolder_ownerA (n : Nat) (p : Polder) : (s.setPolder n p).ownerA = s.ownerA := rfl
@[simp] theorem State.setPolder_ownerB (n : Nat) (p : Polder) : (s.setPolder n p).ownerB = s.ownerB := rfl
@[simp] theorem State.setPolder_secret (n : Nat) (p : Polder) : (s.setPolder n p).secret = s.secret := rfl
@[simp] theorem State.setPolder_trims (n : Nat) (p : Polder) : (s.setPolder n p).trims = s.trims := rfl
@[simp] theorem State.setPolder_nvQ (n : Nat) (p : Polder) : (s.setPolder n p).nvQ = s.nvQ := rfl
@[simp] theorem State.setPolder_nvRun (n : Nat) (p : Polder) : (s.setPolder n p).nvRun = s.nvRun := rfl
@[simp] theorem State.setPolder_wakeQ (n : Nat) (p : Polder) : (s.setPolder n p).wakeQ = s.wakeQ := rfl
@[simp] theorem State.setPolder_wakeHeld (n : Nat) (p : Polder) : (s.setPolder n p).wakeHeld = s.wakeHeld := rfl
@[simp] theorem State.setPolder_startQ (n : Nat) (p : Polder) : (s.setPolder n p).startQ = s.startQ := rfl
@[simp] theorem State.setPolder_evalsBelow (n : Nat) (p : Polder) : (s.setPolder n p).evalsBelow = s.evalsBelow := rfl
@[simp] theorem State.setPolder_evalsAtMax (n : Nat) (p : Polder) : (s.setPolder n p).evalsAtMax = s.evalsAtMax := rfl
@[simp] theorem State.setPolder_readyCount (n : Nat) (p : Polder) : (s.setPolder n p).readyCount = s.readyCount := rfl
@[simp] theorem State.setPolder_nextId (n : Nat) (p : Polder) : (s.setPolder n p).nextId = s.nextId := rfl
@[simp] theorem State.setPolder_pending (n : Nat) (p : Polder) : (s.setPolder n p).pending = s.pending := rfl
@[simp] theorem State.setPolder_tx (n : Nat) (p : Polder) : (s.setPolder n p).tx = s.tx := rfl
@[simp] theorem State.setPolder_free (n : Nat) (p : Polder) : (s.setPolder n p).free = s.free := rfl

/-! ### `onPolder` -/

@[simp] theorem State.onPolder_part (n : Nat) (f : Polder → Polder) : (s.onPolder n f).part = s.part := rfl
@[simp] theorem State.onPolder_supply (n : Nat) (f : Polder → Polder) : (s.onPolder n f).supply = s.supply := rfl
@[simp] theorem State.onPolder_cores (n : Nat) (f : Polder → Polder) : (s.onPolder n f).cores = s.cores := rfl
@[simp] theorem State.onPolder_ctxs (n : Nat) (f : Polder → Polder) : (s.onPolder n f).ctxs = s.ctxs := rfl
@[simp] theorem State.onPolder_mem (n : Nat) (f : Polder → Polder) : (s.onPolder n f).mem = s.mem := rfl
@[simp] theorem State.onPolder_check (n : Nat) (f : Polder → Polder) : (s.onPolder n f).check = s.check := rfl
@[simp] theorem State.onPolder_memErr (n : Nat) (f : Polder → Polder) : (s.onPolder n f).memErr = s.memErr := rfl
@[simp] theorem State.onPolder_counters (n : Nat) (f : Polder → Polder) : (s.onPolder n f).counters = s.counters := rfl
@[simp] theorem State.onPolder_ctrQ (n : Nat) (f : Polder → Polder) : (s.onPolder n f).ctrQ = s.ctrQ := rfl
@[simp] theorem State.onPolder_fabricOps (n : Nat) (f : Polder → Polder) : (s.onPolder n f).fabricOps = s.fabricOps := rfl
@[simp] theorem State.onPolder_fabricPkts (n : Nat) (f : Polder → Polder) : (s.onPolder n f).fabricPkts = s.fabricPkts := rfl
@[simp] theorem State.onPolder_links (n : Nat) (f : Polder → Polder) : (s.onPolder n f).links = s.links := rfl
@[simp] theorem State.onPolder_engines (n : Nat) (f : Polder → Polder) : (s.onPolder n f).engines = s.engines := rfl
@[simp] theorem State.onPolder_dict (n : Nat) (f : Polder → Polder) : (s.onPolder n f).dict = s.dict := rfl
@[simp] theorem State.onPolder_kept (n : Nat) (f : Polder → Polder) : (s.onPolder n f).kept = s.kept := rfl
@[simp] theorem State.onPolder_domains (n : Nat) (f : Polder → Polder) : (s.onPolder n f).domains = s.domains := rfl
@[simp] theorem State.onPolder_arrived (n : Nat) (f : Polder → Polder) : (s.onPolder n f).arrived = s.arrived := rfl
@[simp] theorem State.onPolder_alertN (n : Nat) (f : Polder → Polder) : (s.onPolder n f).alertN = s.alertN := rfl
@[simp] theorem State.onPolder_thermTripN (n : Nat) (f : Polder → Polder) : (s.onPolder n f).thermTripN = s.thermTripN := rfl
@[simp] theorem State.onPolder_plcaNode (n : Nat) (f : Polder → Polder) : (s.onPolder n f).plcaNode = s.plcaNode := rfl
@[simp] theorem State.onPolder_sessions (n : Nat) (f : Polder → Polder) : (s.onPolder n f).sessions = s.sessions := rfl
@[simp] theorem State.onPolder_mgmtQ (n : Nat) (f : Polder → Polder) : (s.onPolder n f).mgmtQ = s.mgmtQ := rfl
@[simp] theorem State.onPolder_handshakes (n : Nat) (f : Polder → Polder) : (s.onPolder n f).handshakes = s.handshakes := rfl
@[simp] theorem State.onPolder_signQ (n : Nat) (f : Polder → Polder) : (s.onPolder n f).signQ = s.signQ := rfl
@[simp] theorem State.onPolder_assocs (n : Nat) (f : Polder → Polder) : (s.onPolder n f).assocs = s.assocs := rfl
@[simp] theorem State.onPolder_ports (n : Nat) (f : Polder → Polder) : (s.onPolder n f).ports = s.ports := rfl
@[simp] theorem State.onPolder_sealKeys (n : Nat) (f : Polder → Polder) : (s.onPolder n f).sealKeys = s.sealKeys := rfl
@[simp] theorem State.onPolder_attest (n : Nat) (f : Polder → Polder) : (s.onPolder n f).attest = s.attest := rfl
@[simp] theorem State.onPolder_slotA (n : Nat) (f : Polder → Polder) : (s.onPolder n f).slotA = s.slotA := rfl
@[simp] theorem State.onPolder_slotB (n : Nat) (f : Polder → Polder) : (s.onPolder n f).slotB = s.slotB := rfl
@[simp] theorem State.onPolder_rollA (n : Nat) (f : Polder → Polder) : (s.onPolder n f).rollA = s.rollA := rfl
@[simp] theorem State.onPolder_rollB (n : Nat) (f : Polder → Polder) : (s.onPolder n f).rollB = s.rollB := rfl
@[simp] theorem State.onPolder_keptA (n : Nat) (f : Polder → Polder) : (s.onPolder n f).keptA = s.keptA := rfl
@[simp] theorem State.onPolder_keptB (n : Nat) (f : Polder → Polder) : (s.onPolder n f).keptB = s.keptB := rfl
@[simp] theorem State.onPolder_ownerA (n : Nat) (f : Polder → Polder) : (s.onPolder n f).ownerA = s.ownerA := rfl
@[simp] theorem State.onPolder_ownerB (n : Nat) (f : Polder → Polder) : (s.onPolder n f).ownerB = s.ownerB := rfl
@[simp] theorem State.onPolder_secret (n : Nat) (f : Polder → Polder) : (s.onPolder n f).secret = s.secret := rfl
@[simp] theorem State.onPolder_trims (n : Nat) (f : Polder → Polder) : (s.onPolder n f).trims = s.trims := rfl
@[simp] theorem State.onPolder_nvQ (n : Nat) (f : Polder → Polder) : (s.onPolder n f).nvQ = s.nvQ := rfl
@[simp] theorem State.onPolder_nvRun (n : Nat) (f : Polder → Polder) : (s.onPolder n f).nvRun = s.nvRun := rfl
@[simp] theorem State.onPolder_wakeQ (n : Nat) (f : Polder → Polder) : (s.onPolder n f).wakeQ = s.wakeQ := rfl
@[simp] theorem State.onPolder_wakeHeld (n : Nat) (f : Polder → Polder) : (s.onPolder n f).wakeHeld = s.wakeHeld := rfl
@[simp] theorem State.onPolder_startQ (n : Nat) (f : Polder → Polder) : (s.onPolder n f).startQ = s.startQ := rfl
@[simp] theorem State.onPolder_evalsBelow (n : Nat) (f : Polder → Polder) : (s.onPolder n f).evalsBelow = s.evalsBelow := rfl
@[simp] theorem State.onPolder_evalsAtMax (n : Nat) (f : Polder → Polder) : (s.onPolder n f).evalsAtMax = s.evalsAtMax := rfl
@[simp] theorem State.onPolder_readyCount (n : Nat) (f : Polder → Polder) : (s.onPolder n f).readyCount = s.readyCount := rfl
@[simp] theorem State.onPolder_nextId (n : Nat) (f : Polder → Polder) : (s.onPolder n f).nextId = s.nextId := rfl
@[simp] theorem State.onPolder_pending (n : Nat) (f : Polder → Polder) : (s.onPolder n f).pending = s.pending := rfl
@[simp] theorem State.onPolder_tx (n : Nat) (f : Polder → Polder) : (s.onPolder n f).tx = s.tx := rfl
@[simp] theorem State.onPolder_free (n : Nat) (f : Polder → Polder) : (s.onPolder n f).free = s.free := rfl

/-! ### `setEngine` -/

@[simp] theorem State.setEngine_part (n : Nat) (e : Engine) : (s.setEngine n e).part = s.part := rfl
@[simp] theorem State.setEngine_supply (n : Nat) (e : Engine) : (s.setEngine n e).supply = s.supply := rfl
@[simp] theorem State.setEngine_cores (n : Nat) (e : Engine) : (s.setEngine n e).cores = s.cores := rfl
@[simp] theorem State.setEngine_ctxs (n : Nat) (e : Engine) : (s.setEngine n e).ctxs = s.ctxs := rfl
@[simp] theorem State.setEngine_polders (n : Nat) (e : Engine) : (s.setEngine n e).polders = s.polders := rfl
@[simp] theorem State.setEngine_mem (n : Nat) (e : Engine) : (s.setEngine n e).mem = s.mem := rfl
@[simp] theorem State.setEngine_check (n : Nat) (e : Engine) : (s.setEngine n e).check = s.check := rfl
@[simp] theorem State.setEngine_memErr (n : Nat) (e : Engine) : (s.setEngine n e).memErr = s.memErr := rfl
@[simp] theorem State.setEngine_counters (n : Nat) (e : Engine) : (s.setEngine n e).counters = s.counters := rfl
@[simp] theorem State.setEngine_ctrQ (n : Nat) (e : Engine) : (s.setEngine n e).ctrQ = s.ctrQ := rfl
@[simp] theorem State.setEngine_fabricOps (n : Nat) (e : Engine) : (s.setEngine n e).fabricOps = s.fabricOps := rfl
@[simp] theorem State.setEngine_fabricPkts (n : Nat) (e : Engine) : (s.setEngine n e).fabricPkts = s.fabricPkts := rfl
@[simp] theorem State.setEngine_links (n : Nat) (e : Engine) : (s.setEngine n e).links = s.links := rfl
@[simp] theorem State.setEngine_dict (n : Nat) (e : Engine) : (s.setEngine n e).dict = s.dict := rfl
@[simp] theorem State.setEngine_kept (n : Nat) (e : Engine) : (s.setEngine n e).kept = s.kept := rfl
@[simp] theorem State.setEngine_domains (n : Nat) (e : Engine) : (s.setEngine n e).domains = s.domains := rfl
@[simp] theorem State.setEngine_arrived (n : Nat) (e : Engine) : (s.setEngine n e).arrived = s.arrived := rfl
@[simp] theorem State.setEngine_alertN (n : Nat) (e : Engine) : (s.setEngine n e).alertN = s.alertN := rfl
@[simp] theorem State.setEngine_thermTripN (n : Nat) (e : Engine) : (s.setEngine n e).thermTripN = s.thermTripN := rfl
@[simp] theorem State.setEngine_plcaNode (n : Nat) (e : Engine) : (s.setEngine n e).plcaNode = s.plcaNode := rfl
@[simp] theorem State.setEngine_sessions (n : Nat) (e : Engine) : (s.setEngine n e).sessions = s.sessions := rfl
@[simp] theorem State.setEngine_mgmtQ (n : Nat) (e : Engine) : (s.setEngine n e).mgmtQ = s.mgmtQ := rfl
@[simp] theorem State.setEngine_handshakes (n : Nat) (e : Engine) : (s.setEngine n e).handshakes = s.handshakes := rfl
@[simp] theorem State.setEngine_signQ (n : Nat) (e : Engine) : (s.setEngine n e).signQ = s.signQ := rfl
@[simp] theorem State.setEngine_assocs (n : Nat) (e : Engine) : (s.setEngine n e).assocs = s.assocs := rfl
@[simp] theorem State.setEngine_ports (n : Nat) (e : Engine) : (s.setEngine n e).ports = s.ports := rfl
@[simp] theorem State.setEngine_sealKeys (n : Nat) (e : Engine) : (s.setEngine n e).sealKeys = s.sealKeys := rfl
@[simp] theorem State.setEngine_attest (n : Nat) (e : Engine) : (s.setEngine n e).attest = s.attest := rfl
@[simp] theorem State.setEngine_slotA (n : Nat) (e : Engine) : (s.setEngine n e).slotA = s.slotA := rfl
@[simp] theorem State.setEngine_slotB (n : Nat) (e : Engine) : (s.setEngine n e).slotB = s.slotB := rfl
@[simp] theorem State.setEngine_rollA (n : Nat) (e : Engine) : (s.setEngine n e).rollA = s.rollA := rfl
@[simp] theorem State.setEngine_rollB (n : Nat) (e : Engine) : (s.setEngine n e).rollB = s.rollB := rfl
@[simp] theorem State.setEngine_keptA (n : Nat) (e : Engine) : (s.setEngine n e).keptA = s.keptA := rfl
@[simp] theorem State.setEngine_keptB (n : Nat) (e : Engine) : (s.setEngine n e).keptB = s.keptB := rfl
@[simp] theorem State.setEngine_ownerA (n : Nat) (e : Engine) : (s.setEngine n e).ownerA = s.ownerA := rfl
@[simp] theorem State.setEngine_ownerB (n : Nat) (e : Engine) : (s.setEngine n e).ownerB = s.ownerB := rfl
@[simp] theorem State.setEngine_secret (n : Nat) (e : Engine) : (s.setEngine n e).secret = s.secret := rfl
@[simp] theorem State.setEngine_trims (n : Nat) (e : Engine) : (s.setEngine n e).trims = s.trims := rfl
@[simp] theorem State.setEngine_nvQ (n : Nat) (e : Engine) : (s.setEngine n e).nvQ = s.nvQ := rfl
@[simp] theorem State.setEngine_nvRun (n : Nat) (e : Engine) : (s.setEngine n e).nvRun = s.nvRun := rfl
@[simp] theorem State.setEngine_wakeQ (n : Nat) (e : Engine) : (s.setEngine n e).wakeQ = s.wakeQ := rfl
@[simp] theorem State.setEngine_wakeHeld (n : Nat) (e : Engine) : (s.setEngine n e).wakeHeld = s.wakeHeld := rfl
@[simp] theorem State.setEngine_startQ (n : Nat) (e : Engine) : (s.setEngine n e).startQ = s.startQ := rfl
@[simp] theorem State.setEngine_evalsBelow (n : Nat) (e : Engine) : (s.setEngine n e).evalsBelow = s.evalsBelow := rfl
@[simp] theorem State.setEngine_evalsAtMax (n : Nat) (e : Engine) : (s.setEngine n e).evalsAtMax = s.evalsAtMax := rfl
@[simp] theorem State.setEngine_readyCount (n : Nat) (e : Engine) : (s.setEngine n e).readyCount = s.readyCount := rfl
@[simp] theorem State.setEngine_nextId (n : Nat) (e : Engine) : (s.setEngine n e).nextId = s.nextId := rfl
@[simp] theorem State.setEngine_pending (n : Nat) (e : Engine) : (s.setEngine n e).pending = s.pending := rfl
@[simp] theorem State.setEngine_tx (n : Nat) (e : Engine) : (s.setEngine n e).tx = s.tx := rfl
@[simp] theorem State.setEngine_free (n : Nat) (e : Engine) : (s.setEngine n e).free = s.free := rfl

/-! ### `setPort` -/

@[simp] theorem State.setPort_part (n : Nat) (p : Port) : (s.setPort n p).part = s.part := rfl
@[simp] theorem State.setPort_supply (n : Nat) (p : Port) : (s.setPort n p).supply = s.supply := rfl
@[simp] theorem State.setPort_cores (n : Nat) (p : Port) : (s.setPort n p).cores = s.cores := rfl
@[simp] theorem State.setPort_ctxs (n : Nat) (p : Port) : (s.setPort n p).ctxs = s.ctxs := rfl
@[simp] theorem State.setPort_polders (n : Nat) (p : Port) : (s.setPort n p).polders = s.polders := rfl
@[simp] theorem State.setPort_mem (n : Nat) (p : Port) : (s.setPort n p).mem = s.mem := rfl
@[simp] theorem State.setPort_check (n : Nat) (p : Port) : (s.setPort n p).check = s.check := rfl
@[simp] theorem State.setPort_memErr (n : Nat) (p : Port) : (s.setPort n p).memErr = s.memErr := rfl
@[simp] theorem State.setPort_counters (n : Nat) (p : Port) : (s.setPort n p).counters = s.counters := rfl
@[simp] theorem State.setPort_ctrQ (n : Nat) (p : Port) : (s.setPort n p).ctrQ = s.ctrQ := rfl
@[simp] theorem State.setPort_fabricOps (n : Nat) (p : Port) : (s.setPort n p).fabricOps = s.fabricOps := rfl
@[simp] theorem State.setPort_fabricPkts (n : Nat) (p : Port) : (s.setPort n p).fabricPkts = s.fabricPkts := rfl
@[simp] theorem State.setPort_links (n : Nat) (p : Port) : (s.setPort n p).links = s.links := rfl
@[simp] theorem State.setPort_engines (n : Nat) (p : Port) : (s.setPort n p).engines = s.engines := rfl
@[simp] theorem State.setPort_dict (n : Nat) (p : Port) : (s.setPort n p).dict = s.dict := rfl
@[simp] theorem State.setPort_kept (n : Nat) (p : Port) : (s.setPort n p).kept = s.kept := rfl
@[simp] theorem State.setPort_domains (n : Nat) (p : Port) : (s.setPort n p).domains = s.domains := rfl
@[simp] theorem State.setPort_arrived (n : Nat) (p : Port) : (s.setPort n p).arrived = s.arrived := rfl
@[simp] theorem State.setPort_alertN (n : Nat) (p : Port) : (s.setPort n p).alertN = s.alertN := rfl
@[simp] theorem State.setPort_thermTripN (n : Nat) (p : Port) : (s.setPort n p).thermTripN = s.thermTripN := rfl
@[simp] theorem State.setPort_plcaNode (n : Nat) (p : Port) : (s.setPort n p).plcaNode = s.plcaNode := rfl
@[simp] theorem State.setPort_sessions (n : Nat) (p : Port) : (s.setPort n p).sessions = s.sessions := rfl
@[simp] theorem State.setPort_mgmtQ (n : Nat) (p : Port) : (s.setPort n p).mgmtQ = s.mgmtQ := rfl
@[simp] theorem State.setPort_handshakes (n : Nat) (p : Port) : (s.setPort n p).handshakes = s.handshakes := rfl
@[simp] theorem State.setPort_signQ (n : Nat) (p : Port) : (s.setPort n p).signQ = s.signQ := rfl
@[simp] theorem State.setPort_assocs (n : Nat) (p : Port) : (s.setPort n p).assocs = s.assocs := rfl
@[simp] theorem State.setPort_sealKeys (n : Nat) (p : Port) : (s.setPort n p).sealKeys = s.sealKeys := rfl
@[simp] theorem State.setPort_attest (n : Nat) (p : Port) : (s.setPort n p).attest = s.attest := rfl
@[simp] theorem State.setPort_slotA (n : Nat) (p : Port) : (s.setPort n p).slotA = s.slotA := rfl
@[simp] theorem State.setPort_slotB (n : Nat) (p : Port) : (s.setPort n p).slotB = s.slotB := rfl
@[simp] theorem State.setPort_rollA (n : Nat) (p : Port) : (s.setPort n p).rollA = s.rollA := rfl
@[simp] theorem State.setPort_rollB (n : Nat) (p : Port) : (s.setPort n p).rollB = s.rollB := rfl
@[simp] theorem State.setPort_keptA (n : Nat) (p : Port) : (s.setPort n p).keptA = s.keptA := rfl
@[simp] theorem State.setPort_keptB (n : Nat) (p : Port) : (s.setPort n p).keptB = s.keptB := rfl
@[simp] theorem State.setPort_ownerA (n : Nat) (p : Port) : (s.setPort n p).ownerA = s.ownerA := rfl
@[simp] theorem State.setPort_ownerB (n : Nat) (p : Port) : (s.setPort n p).ownerB = s.ownerB := rfl
@[simp] theorem State.setPort_secret (n : Nat) (p : Port) : (s.setPort n p).secret = s.secret := rfl
@[simp] theorem State.setPort_trims (n : Nat) (p : Port) : (s.setPort n p).trims = s.trims := rfl
@[simp] theorem State.setPort_nvQ (n : Nat) (p : Port) : (s.setPort n p).nvQ = s.nvQ := rfl
@[simp] theorem State.setPort_nvRun (n : Nat) (p : Port) : (s.setPort n p).nvRun = s.nvRun := rfl
@[simp] theorem State.setPort_wakeQ (n : Nat) (p : Port) : (s.setPort n p).wakeQ = s.wakeQ := rfl
@[simp] theorem State.setPort_wakeHeld (n : Nat) (p : Port) : (s.setPort n p).wakeHeld = s.wakeHeld := rfl
@[simp] theorem State.setPort_startQ (n : Nat) (p : Port) : (s.setPort n p).startQ = s.startQ := rfl
@[simp] theorem State.setPort_evalsBelow (n : Nat) (p : Port) : (s.setPort n p).evalsBelow = s.evalsBelow := rfl
@[simp] theorem State.setPort_evalsAtMax (n : Nat) (p : Port) : (s.setPort n p).evalsAtMax = s.evalsAtMax := rfl
@[simp] theorem State.setPort_readyCount (n : Nat) (p : Port) : (s.setPort n p).readyCount = s.readyCount := rfl
@[simp] theorem State.setPort_nextId (n : Nat) (p : Port) : (s.setPort n p).nextId = s.nextId := rfl
@[simp] theorem State.setPort_pending (n : Nat) (p : Port) : (s.setPort n p).pending = s.pending := rfl
@[simp] theorem State.setPort_tx (n : Nat) (p : Port) : (s.setPort n p).tx = s.tx := rfl
@[simp] theorem State.setPort_free (n : Nat) (p : Port) : (s.setPort n p).free = s.free := rfl

/-! ### `onPort` -/

@[simp] theorem State.onPort_part (n : Nat) (f : Port → Port) : (s.onPort n f).part = s.part := rfl
@[simp] theorem State.onPort_supply (n : Nat) (f : Port → Port) : (s.onPort n f).supply = s.supply := rfl
@[simp] theorem State.onPort_cores (n : Nat) (f : Port → Port) : (s.onPort n f).cores = s.cores := rfl
@[simp] theorem State.onPort_ctxs (n : Nat) (f : Port → Port) : (s.onPort n f).ctxs = s.ctxs := rfl
@[simp] theorem State.onPort_polders (n : Nat) (f : Port → Port) : (s.onPort n f).polders = s.polders := rfl
@[simp] theorem State.onPort_mem (n : Nat) (f : Port → Port) : (s.onPort n f).mem = s.mem := rfl
@[simp] theorem State.onPort_check (n : Nat) (f : Port → Port) : (s.onPort n f).check = s.check := rfl
@[simp] theorem State.onPort_memErr (n : Nat) (f : Port → Port) : (s.onPort n f).memErr = s.memErr := rfl
@[simp] theorem State.onPort_counters (n : Nat) (f : Port → Port) : (s.onPort n f).counters = s.counters := rfl
@[simp] theorem State.onPort_ctrQ (n : Nat) (f : Port → Port) : (s.onPort n f).ctrQ = s.ctrQ := rfl
@[simp] theorem State.onPort_fabricOps (n : Nat) (f : Port → Port) : (s.onPort n f).fabricOps = s.fabricOps := rfl
@[simp] theorem State.onPort_fabricPkts (n : Nat) (f : Port → Port) : (s.onPort n f).fabricPkts = s.fabricPkts := rfl
@[simp] theorem State.onPort_links (n : Nat) (f : Port → Port) : (s.onPort n f).links = s.links := rfl
@[simp] theorem State.onPort_engines (n : Nat) (f : Port → Port) : (s.onPort n f).engines = s.engines := rfl
@[simp] theorem State.onPort_dict (n : Nat) (f : Port → Port) : (s.onPort n f).dict = s.dict := rfl
@[simp] theorem State.onPort_kept (n : Nat) (f : Port → Port) : (s.onPort n f).kept = s.kept := rfl
@[simp] theorem State.onPort_domains (n : Nat) (f : Port → Port) : (s.onPort n f).domains = s.domains := rfl
@[simp] theorem State.onPort_arrived (n : Nat) (f : Port → Port) : (s.onPort n f).arrived = s.arrived := rfl
@[simp] theorem State.onPort_alertN (n : Nat) (f : Port → Port) : (s.onPort n f).alertN = s.alertN := rfl
@[simp] theorem State.onPort_thermTripN (n : Nat) (f : Port → Port) : (s.onPort n f).thermTripN = s.thermTripN := rfl
@[simp] theorem State.onPort_plcaNode (n : Nat) (f : Port → Port) : (s.onPort n f).plcaNode = s.plcaNode := rfl
@[simp] theorem State.onPort_sessions (n : Nat) (f : Port → Port) : (s.onPort n f).sessions = s.sessions := rfl
@[simp] theorem State.onPort_mgmtQ (n : Nat) (f : Port → Port) : (s.onPort n f).mgmtQ = s.mgmtQ := rfl
@[simp] theorem State.onPort_handshakes (n : Nat) (f : Port → Port) : (s.onPort n f).handshakes = s.handshakes := rfl
@[simp] theorem State.onPort_signQ (n : Nat) (f : Port → Port) : (s.onPort n f).signQ = s.signQ := rfl
@[simp] theorem State.onPort_assocs (n : Nat) (f : Port → Port) : (s.onPort n f).assocs = s.assocs := rfl
@[simp] theorem State.onPort_sealKeys (n : Nat) (f : Port → Port) : (s.onPort n f).sealKeys = s.sealKeys := rfl
@[simp] theorem State.onPort_attest (n : Nat) (f : Port → Port) : (s.onPort n f).attest = s.attest := rfl
@[simp] theorem State.onPort_slotA (n : Nat) (f : Port → Port) : (s.onPort n f).slotA = s.slotA := rfl
@[simp] theorem State.onPort_slotB (n : Nat) (f : Port → Port) : (s.onPort n f).slotB = s.slotB := rfl
@[simp] theorem State.onPort_rollA (n : Nat) (f : Port → Port) : (s.onPort n f).rollA = s.rollA := rfl
@[simp] theorem State.onPort_rollB (n : Nat) (f : Port → Port) : (s.onPort n f).rollB = s.rollB := rfl
@[simp] theorem State.onPort_keptA (n : Nat) (f : Port → Port) : (s.onPort n f).keptA = s.keptA := rfl
@[simp] theorem State.onPort_keptB (n : Nat) (f : Port → Port) : (s.onPort n f).keptB = s.keptB := rfl
@[simp] theorem State.onPort_ownerA (n : Nat) (f : Port → Port) : (s.onPort n f).ownerA = s.ownerA := rfl
@[simp] theorem State.onPort_ownerB (n : Nat) (f : Port → Port) : (s.onPort n f).ownerB = s.ownerB := rfl
@[simp] theorem State.onPort_secret (n : Nat) (f : Port → Port) : (s.onPort n f).secret = s.secret := rfl
@[simp] theorem State.onPort_trims (n : Nat) (f : Port → Port) : (s.onPort n f).trims = s.trims := rfl
@[simp] theorem State.onPort_nvQ (n : Nat) (f : Port → Port) : (s.onPort n f).nvQ = s.nvQ := rfl
@[simp] theorem State.onPort_nvRun (n : Nat) (f : Port → Port) : (s.onPort n f).nvRun = s.nvRun := rfl
@[simp] theorem State.onPort_wakeQ (n : Nat) (f : Port → Port) : (s.onPort n f).wakeQ = s.wakeQ := rfl
@[simp] theorem State.onPort_wakeHeld (n : Nat) (f : Port → Port) : (s.onPort n f).wakeHeld = s.wakeHeld := rfl
@[simp] theorem State.onPort_startQ (n : Nat) (f : Port → Port) : (s.onPort n f).startQ = s.startQ := rfl
@[simp] theorem State.onPort_evalsBelow (n : Nat) (f : Port → Port) : (s.onPort n f).evalsBelow = s.evalsBelow := rfl
@[simp] theorem State.onPort_evalsAtMax (n : Nat) (f : Port → Port) : (s.onPort n f).evalsAtMax = s.evalsAtMax := rfl
@[simp] theorem State.onPort_readyCount (n : Nat) (f : Port → Port) : (s.onPort n f).readyCount = s.readyCount := rfl
@[simp] theorem State.onPort_nextId (n : Nat) (f : Port → Port) : (s.onPort n f).nextId = s.nextId := rfl
@[simp] theorem State.onPort_pending (n : Nat) (f : Port → Port) : (s.onPort n f).pending = s.pending := rfl
@[simp] theorem State.onPort_tx (n : Nat) (f : Port → Port) : (s.onPort n f).tx = s.tx := rfl
@[simp] theorem State.onPort_free (n : Nat) (f : Port → Port) : (s.onPort n f).free = s.free := rfl

/-! ### `setSession` -/

@[simp] theorem State.setSession_part (n : Nat) (x : Session) : (s.setSession n x).part = s.part := rfl
@[simp] theorem State.setSession_supply (n : Nat) (x : Session) : (s.setSession n x).supply = s.supply := rfl
@[simp] theorem State.setSession_cores (n : Nat) (x : Session) : (s.setSession n x).cores = s.cores := rfl
@[simp] theorem State.setSession_ctxs (n : Nat) (x : Session) : (s.setSession n x).ctxs = s.ctxs := rfl
@[simp] theorem State.setSession_polders (n : Nat) (x : Session) : (s.setSession n x).polders = s.polders := rfl
@[simp] theorem State.setSession_mem (n : Nat) (x : Session) : (s.setSession n x).mem = s.mem := rfl
@[simp] theorem State.setSession_check (n : Nat) (x : Session) : (s.setSession n x).check = s.check := rfl
@[simp] theorem State.setSession_memErr (n : Nat) (x : Session) : (s.setSession n x).memErr = s.memErr := rfl
@[simp] theorem State.setSession_counters (n : Nat) (x : Session) : (s.setSession n x).counters = s.counters := rfl
@[simp] theorem State.setSession_ctrQ (n : Nat) (x : Session) : (s.setSession n x).ctrQ = s.ctrQ := rfl
@[simp] theorem State.setSession_fabricOps (n : Nat) (x : Session) : (s.setSession n x).fabricOps = s.fabricOps := rfl
@[simp] theorem State.setSession_fabricPkts (n : Nat) (x : Session) : (s.setSession n x).fabricPkts = s.fabricPkts := rfl
@[simp] theorem State.setSession_links (n : Nat) (x : Session) : (s.setSession n x).links = s.links := rfl
@[simp] theorem State.setSession_engines (n : Nat) (x : Session) : (s.setSession n x).engines = s.engines := rfl
@[simp] theorem State.setSession_dict (n : Nat) (x : Session) : (s.setSession n x).dict = s.dict := rfl
@[simp] theorem State.setSession_kept (n : Nat) (x : Session) : (s.setSession n x).kept = s.kept := rfl
@[simp] theorem State.setSession_domains (n : Nat) (x : Session) : (s.setSession n x).domains = s.domains := rfl
@[simp] theorem State.setSession_arrived (n : Nat) (x : Session) : (s.setSession n x).arrived = s.arrived := rfl
@[simp] theorem State.setSession_alertN (n : Nat) (x : Session) : (s.setSession n x).alertN = s.alertN := rfl
@[simp] theorem State.setSession_thermTripN (n : Nat) (x : Session) : (s.setSession n x).thermTripN = s.thermTripN := rfl
@[simp] theorem State.setSession_plcaNode (n : Nat) (x : Session) : (s.setSession n x).plcaNode = s.plcaNode := rfl
@[simp] theorem State.setSession_mgmtQ (n : Nat) (x : Session) : (s.setSession n x).mgmtQ = s.mgmtQ := rfl
@[simp] theorem State.setSession_handshakes (n : Nat) (x : Session) : (s.setSession n x).handshakes = s.handshakes := rfl
@[simp] theorem State.setSession_signQ (n : Nat) (x : Session) : (s.setSession n x).signQ = s.signQ := rfl
@[simp] theorem State.setSession_assocs (n : Nat) (x : Session) : (s.setSession n x).assocs = s.assocs := rfl
@[simp] theorem State.setSession_ports (n : Nat) (x : Session) : (s.setSession n x).ports = s.ports := rfl
@[simp] theorem State.setSession_sealKeys (n : Nat) (x : Session) : (s.setSession n x).sealKeys = s.sealKeys := rfl
@[simp] theorem State.setSession_attest (n : Nat) (x : Session) : (s.setSession n x).attest = s.attest := rfl
@[simp] theorem State.setSession_slotA (n : Nat) (x : Session) : (s.setSession n x).slotA = s.slotA := rfl
@[simp] theorem State.setSession_slotB (n : Nat) (x : Session) : (s.setSession n x).slotB = s.slotB := rfl
@[simp] theorem State.setSession_rollA (n : Nat) (x : Session) : (s.setSession n x).rollA = s.rollA := rfl
@[simp] theorem State.setSession_rollB (n : Nat) (x : Session) : (s.setSession n x).rollB = s.rollB := rfl
@[simp] theorem State.setSession_keptA (n : Nat) (x : Session) : (s.setSession n x).keptA = s.keptA := rfl
@[simp] theorem State.setSession_keptB (n : Nat) (x : Session) : (s.setSession n x).keptB = s.keptB := rfl
@[simp] theorem State.setSession_ownerA (n : Nat) (x : Session) : (s.setSession n x).ownerA = s.ownerA := rfl
@[simp] theorem State.setSession_ownerB (n : Nat) (x : Session) : (s.setSession n x).ownerB = s.ownerB := rfl
@[simp] theorem State.setSession_secret (n : Nat) (x : Session) : (s.setSession n x).secret = s.secret := rfl
@[simp] theorem State.setSession_trims (n : Nat) (x : Session) : (s.setSession n x).trims = s.trims := rfl
@[simp] theorem State.setSession_nvQ (n : Nat) (x : Session) : (s.setSession n x).nvQ = s.nvQ := rfl
@[simp] theorem State.setSession_nvRun (n : Nat) (x : Session) : (s.setSession n x).nvRun = s.nvRun := rfl
@[simp] theorem State.setSession_wakeQ (n : Nat) (x : Session) : (s.setSession n x).wakeQ = s.wakeQ := rfl
@[simp] theorem State.setSession_wakeHeld (n : Nat) (x : Session) : (s.setSession n x).wakeHeld = s.wakeHeld := rfl
@[simp] theorem State.setSession_startQ (n : Nat) (x : Session) : (s.setSession n x).startQ = s.startQ := rfl
@[simp] theorem State.setSession_evalsBelow (n : Nat) (x : Session) : (s.setSession n x).evalsBelow = s.evalsBelow := rfl
@[simp] theorem State.setSession_evalsAtMax (n : Nat) (x : Session) : (s.setSession n x).evalsAtMax = s.evalsAtMax := rfl
@[simp] theorem State.setSession_readyCount (n : Nat) (x : Session) : (s.setSession n x).readyCount = s.readyCount := rfl
@[simp] theorem State.setSession_nextId (n : Nat) (x : Session) : (s.setSession n x).nextId = s.nextId := rfl
@[simp] theorem State.setSession_pending (n : Nat) (x : Session) : (s.setSession n x).pending = s.pending := rfl
@[simp] theorem State.setSession_tx (n : Nat) (x : Session) : (s.setSession n x).tx = s.tx := rfl
@[simp] theorem State.setSession_free (n : Nat) (x : Session) : (s.setSession n x).free = s.free := rfl

/-! ### `usedFree` -/

@[simp] theorem State.usedFree_part : (s.usedFree).part = s.part := rfl
@[simp] theorem State.usedFree_supply : (s.usedFree).supply = s.supply := rfl
@[simp] theorem State.usedFree_cores : (s.usedFree).cores = s.cores := rfl
@[simp] theorem State.usedFree_ctxs : (s.usedFree).ctxs = s.ctxs := rfl
@[simp] theorem State.usedFree_polders : (s.usedFree).polders = s.polders := rfl
@[simp] theorem State.usedFree_mem : (s.usedFree).mem = s.mem := rfl
@[simp] theorem State.usedFree_check : (s.usedFree).check = s.check := rfl
@[simp] theorem State.usedFree_memErr : (s.usedFree).memErr = s.memErr := rfl
@[simp] theorem State.usedFree_counters : (s.usedFree).counters = s.counters := rfl
@[simp] theorem State.usedFree_ctrQ : (s.usedFree).ctrQ = s.ctrQ := rfl
@[simp] theorem State.usedFree_fabricOps : (s.usedFree).fabricOps = s.fabricOps := rfl
@[simp] theorem State.usedFree_fabricPkts : (s.usedFree).fabricPkts = s.fabricPkts := rfl
@[simp] theorem State.usedFree_links : (s.usedFree).links = s.links := rfl
@[simp] theorem State.usedFree_engines : (s.usedFree).engines = s.engines := rfl
@[simp] theorem State.usedFree_dict : (s.usedFree).dict = s.dict := rfl
@[simp] theorem State.usedFree_kept : (s.usedFree).kept = s.kept := rfl
@[simp] theorem State.usedFree_domains : (s.usedFree).domains = s.domains := rfl
@[simp] theorem State.usedFree_arrived : (s.usedFree).arrived = s.arrived := rfl
@[simp] theorem State.usedFree_alertN : (s.usedFree).alertN = s.alertN := rfl
@[simp] theorem State.usedFree_thermTripN : (s.usedFree).thermTripN = s.thermTripN := rfl
@[simp] theorem State.usedFree_plcaNode : (s.usedFree).plcaNode = s.plcaNode := rfl
@[simp] theorem State.usedFree_sessions : (s.usedFree).sessions = s.sessions := rfl
@[simp] theorem State.usedFree_mgmtQ : (s.usedFree).mgmtQ = s.mgmtQ := rfl
@[simp] theorem State.usedFree_handshakes : (s.usedFree).handshakes = s.handshakes := rfl
@[simp] theorem State.usedFree_signQ : (s.usedFree).signQ = s.signQ := rfl
@[simp] theorem State.usedFree_assocs : (s.usedFree).assocs = s.assocs := rfl
@[simp] theorem State.usedFree_ports : (s.usedFree).ports = s.ports := rfl
@[simp] theorem State.usedFree_sealKeys : (s.usedFree).sealKeys = s.sealKeys := rfl
@[simp] theorem State.usedFree_attest : (s.usedFree).attest = s.attest := rfl
@[simp] theorem State.usedFree_slotA : (s.usedFree).slotA = s.slotA := rfl
@[simp] theorem State.usedFree_slotB : (s.usedFree).slotB = s.slotB := rfl
@[simp] theorem State.usedFree_rollA : (s.usedFree).rollA = s.rollA := rfl
@[simp] theorem State.usedFree_rollB : (s.usedFree).rollB = s.rollB := rfl
@[simp] theorem State.usedFree_keptA : (s.usedFree).keptA = s.keptA := rfl
@[simp] theorem State.usedFree_keptB : (s.usedFree).keptB = s.keptB := rfl
@[simp] theorem State.usedFree_ownerA : (s.usedFree).ownerA = s.ownerA := rfl
@[simp] theorem State.usedFree_ownerB : (s.usedFree).ownerB = s.ownerB := rfl
@[simp] theorem State.usedFree_secret : (s.usedFree).secret = s.secret := rfl
@[simp] theorem State.usedFree_trims : (s.usedFree).trims = s.trims := rfl
@[simp] theorem State.usedFree_nvQ : (s.usedFree).nvQ = s.nvQ := rfl
@[simp] theorem State.usedFree_nvRun : (s.usedFree).nvRun = s.nvRun := rfl
@[simp] theorem State.usedFree_wakeQ : (s.usedFree).wakeQ = s.wakeQ := rfl
@[simp] theorem State.usedFree_wakeHeld : (s.usedFree).wakeHeld = s.wakeHeld := rfl
@[simp] theorem State.usedFree_startQ : (s.usedFree).startQ = s.startQ := rfl
@[simp] theorem State.usedFree_evalsBelow : (s.usedFree).evalsBelow = s.evalsBelow := rfl
@[simp] theorem State.usedFree_evalsAtMax : (s.usedFree).evalsAtMax = s.evalsAtMax := rfl
@[simp] theorem State.usedFree_readyCount : (s.usedFree).readyCount = s.readyCount := rfl
@[simp] theorem State.usedFree_nextId : (s.usedFree).nextId = s.nextId := rfl
@[simp] theorem State.usedFree_pending : (s.usedFree).pending = s.pending := rfl
@[simp] theorem State.usedFree_tx : (s.usedFree).tx = s.tx := rfl

/-! ### `setEntry` -/

@[simp] theorem State.setEntry_part (i j v : Nat) : (s.setEntry i j v).part = s.part := rfl
@[simp] theorem State.setEntry_supply (i j v : Nat) : (s.setEntry i j v).supply = s.supply := rfl
@[simp] theorem State.setEntry_cores (i j v : Nat) : (s.setEntry i j v).cores = s.cores := rfl
@[simp] theorem State.setEntry_ctxs (i j v : Nat) : (s.setEntry i j v).ctxs = s.ctxs := rfl
@[simp] theorem State.setEntry_polders (i j v : Nat) : (s.setEntry i j v).polders = s.polders := rfl
@[simp] theorem State.setEntry_mem (i j v : Nat) : (s.setEntry i j v).mem = s.mem := rfl
@[simp] theorem State.setEntry_check (i j v : Nat) : (s.setEntry i j v).check = s.check := rfl
@[simp] theorem State.setEntry_memErr (i j v : Nat) : (s.setEntry i j v).memErr = s.memErr := rfl
@[simp] theorem State.setEntry_counters (i j v : Nat) : (s.setEntry i j v).counters = s.counters := rfl
@[simp] theorem State.setEntry_ctrQ (i j v : Nat) : (s.setEntry i j v).ctrQ = s.ctrQ := rfl
@[simp] theorem State.setEntry_fabricOps (i j v : Nat) : (s.setEntry i j v).fabricOps = s.fabricOps := rfl
@[simp] theorem State.setEntry_fabricPkts (i j v : Nat) : (s.setEntry i j v).fabricPkts = s.fabricPkts := rfl
@[simp] theorem State.setEntry_links (i j v : Nat) : (s.setEntry i j v).links = s.links := rfl
@[simp] theorem State.setEntry_engines (i j v : Nat) : (s.setEntry i j v).engines = s.engines := rfl
@[simp] theorem State.setEntry_kept (i j v : Nat) : (s.setEntry i j v).kept = s.kept := rfl
@[simp] theorem State.setEntry_domains (i j v : Nat) : (s.setEntry i j v).domains = s.domains := rfl
@[simp] theorem State.setEntry_arrived (i j v : Nat) : (s.setEntry i j v).arrived = s.arrived := rfl
@[simp] theorem State.setEntry_alertN (i j v : Nat) : (s.setEntry i j v).alertN = s.alertN := rfl
@[simp] theorem State.setEntry_thermTripN (i j v : Nat) : (s.setEntry i j v).thermTripN = s.thermTripN := rfl
@[simp] theorem State.setEntry_plcaNode (i j v : Nat) : (s.setEntry i j v).plcaNode = s.plcaNode := rfl
@[simp] theorem State.setEntry_sessions (i j v : Nat) : (s.setEntry i j v).sessions = s.sessions := rfl
@[simp] theorem State.setEntry_mgmtQ (i j v : Nat) : (s.setEntry i j v).mgmtQ = s.mgmtQ := rfl
@[simp] theorem State.setEntry_handshakes (i j v : Nat) : (s.setEntry i j v).handshakes = s.handshakes := rfl
@[simp] theorem State.setEntry_signQ (i j v : Nat) : (s.setEntry i j v).signQ = s.signQ := rfl
@[simp] theorem State.setEntry_assocs (i j v : Nat) : (s.setEntry i j v).assocs = s.assocs := rfl
@[simp] theorem State.setEntry_ports (i j v : Nat) : (s.setEntry i j v).ports = s.ports := rfl
@[simp] theorem State.setEntry_sealKeys (i j v : Nat) : (s.setEntry i j v).sealKeys = s.sealKeys := rfl
@[simp] theorem State.setEntry_attest (i j v : Nat) : (s.setEntry i j v).attest = s.attest := rfl
@[simp] theorem State.setEntry_slotA (i j v : Nat) : (s.setEntry i j v).slotA = s.slotA := rfl
@[simp] theorem State.setEntry_slotB (i j v : Nat) : (s.setEntry i j v).slotB = s.slotB := rfl
@[simp] theorem State.setEntry_rollA (i j v : Nat) : (s.setEntry i j v).rollA = s.rollA := rfl
@[simp] theorem State.setEntry_rollB (i j v : Nat) : (s.setEntry i j v).rollB = s.rollB := rfl
@[simp] theorem State.setEntry_keptA (i j v : Nat) : (s.setEntry i j v).keptA = s.keptA := rfl
@[simp] theorem State.setEntry_keptB (i j v : Nat) : (s.setEntry i j v).keptB = s.keptB := rfl
@[simp] theorem State.setEntry_ownerA (i j v : Nat) : (s.setEntry i j v).ownerA = s.ownerA := rfl
@[simp] theorem State.setEntry_ownerB (i j v : Nat) : (s.setEntry i j v).ownerB = s.ownerB := rfl
@[simp] theorem State.setEntry_secret (i j v : Nat) : (s.setEntry i j v).secret = s.secret := rfl
@[simp] theorem State.setEntry_trims (i j v : Nat) : (s.setEntry i j v).trims = s.trims := rfl
@[simp] theorem State.setEntry_nvQ (i j v : Nat) : (s.setEntry i j v).nvQ = s.nvQ := rfl
@[simp] theorem State.setEntry_nvRun (i j v : Nat) : (s.setEntry i j v).nvRun = s.nvRun := rfl
@[simp] theorem State.setEntry_wakeQ (i j v : Nat) : (s.setEntry i j v).wakeQ = s.wakeQ := rfl
@[simp] theorem State.setEntry_wakeHeld (i j v : Nat) : (s.setEntry i j v).wakeHeld = s.wakeHeld := rfl
@[simp] theorem State.setEntry_startQ (i j v : Nat) : (s.setEntry i j v).startQ = s.startQ := rfl
@[simp] theorem State.setEntry_evalsBelow (i j v : Nat) : (s.setEntry i j v).evalsBelow = s.evalsBelow := rfl
@[simp] theorem State.setEntry_evalsAtMax (i j v : Nat) : (s.setEntry i j v).evalsAtMax = s.evalsAtMax := rfl
@[simp] theorem State.setEntry_readyCount (i j v : Nat) : (s.setEntry i j v).readyCount = s.readyCount := rfl
@[simp] theorem State.setEntry_nextId (i j v : Nat) : (s.setEntry i j v).nextId = s.nextId := rfl
@[simp] theorem State.setEntry_pending (i j v : Nat) : (s.setEntry i j v).pending = s.pending := rfl
@[simp] theorem State.setEntry_tx (i j v : Nat) : (s.setEntry i j v).tx = s.tx := rfl
@[simp] theorem State.setEntry_free (i j v : Nat) : (s.setEntry i j v).free = s.free := rfl

/-! ### `setKept` -/

@[simp] theorem State.setKept_part (i j v : Nat) : (s.setKept i j v).part = s.part := rfl
@[simp] theorem State.setKept_supply (i j v : Nat) : (s.setKept i j v).supply = s.supply := rfl
@[simp] theorem State.setKept_cores (i j v : Nat) : (s.setKept i j v).cores = s.cores := rfl
@[simp] theorem State.setKept_ctxs (i j v : Nat) : (s.setKept i j v).ctxs = s.ctxs := rfl
@[simp] theorem State.setKept_polders (i j v : Nat) : (s.setKept i j v).polders = s.polders := rfl
@[simp] theorem State.setKept_mem (i j v : Nat) : (s.setKept i j v).mem = s.mem := rfl
@[simp] theorem State.setKept_check (i j v : Nat) : (s.setKept i j v).check = s.check := rfl
@[simp] theorem State.setKept_memErr (i j v : Nat) : (s.setKept i j v).memErr = s.memErr := rfl
@[simp] theorem State.setKept_counters (i j v : Nat) : (s.setKept i j v).counters = s.counters := rfl
@[simp] theorem State.setKept_ctrQ (i j v : Nat) : (s.setKept i j v).ctrQ = s.ctrQ := rfl
@[simp] theorem State.setKept_fabricOps (i j v : Nat) : (s.setKept i j v).fabricOps = s.fabricOps := rfl
@[simp] theorem State.setKept_fabricPkts (i j v : Nat) : (s.setKept i j v).fabricPkts = s.fabricPkts := rfl
@[simp] theorem State.setKept_links (i j v : Nat) : (s.setKept i j v).links = s.links := rfl
@[simp] theorem State.setKept_engines (i j v : Nat) : (s.setKept i j v).engines = s.engines := rfl
@[simp] theorem State.setKept_dict (i j v : Nat) : (s.setKept i j v).dict = s.dict := rfl
@[simp] theorem State.setKept_domains (i j v : Nat) : (s.setKept i j v).domains = s.domains := rfl
@[simp] theorem State.setKept_arrived (i j v : Nat) : (s.setKept i j v).arrived = s.arrived := rfl
@[simp] theorem State.setKept_alertN (i j v : Nat) : (s.setKept i j v).alertN = s.alertN := rfl
@[simp] theorem State.setKept_thermTripN (i j v : Nat) : (s.setKept i j v).thermTripN = s.thermTripN := rfl
@[simp] theorem State.setKept_plcaNode (i j v : Nat) : (s.setKept i j v).plcaNode = s.plcaNode := rfl
@[simp] theorem State.setKept_sessions (i j v : Nat) : (s.setKept i j v).sessions = s.sessions := rfl
@[simp] theorem State.setKept_mgmtQ (i j v : Nat) : (s.setKept i j v).mgmtQ = s.mgmtQ := rfl
@[simp] theorem State.setKept_handshakes (i j v : Nat) : (s.setKept i j v).handshakes = s.handshakes := rfl
@[simp] theorem State.setKept_signQ (i j v : Nat) : (s.setKept i j v).signQ = s.signQ := rfl
@[simp] theorem State.setKept_assocs (i j v : Nat) : (s.setKept i j v).assocs = s.assocs := rfl
@[simp] theorem State.setKept_ports (i j v : Nat) : (s.setKept i j v).ports = s.ports := rfl
@[simp] theorem State.setKept_sealKeys (i j v : Nat) : (s.setKept i j v).sealKeys = s.sealKeys := rfl
@[simp] theorem State.setKept_attest (i j v : Nat) : (s.setKept i j v).attest = s.attest := rfl
@[simp] theorem State.setKept_slotA (i j v : Nat) : (s.setKept i j v).slotA = s.slotA := rfl
@[simp] theorem State.setKept_slotB (i j v : Nat) : (s.setKept i j v).slotB = s.slotB := rfl
@[simp] theorem State.setKept_rollA (i j v : Nat) : (s.setKept i j v).rollA = s.rollA := rfl
@[simp] theorem State.setKept_rollB (i j v : Nat) : (s.setKept i j v).rollB = s.rollB := rfl
@[simp] theorem State.setKept_keptA (i j v : Nat) : (s.setKept i j v).keptA = s.keptA := rfl
@[simp] theorem State.setKept_keptB (i j v : Nat) : (s.setKept i j v).keptB = s.keptB := rfl
@[simp] theorem State.setKept_ownerA (i j v : Nat) : (s.setKept i j v).ownerA = s.ownerA := rfl
@[simp] theorem State.setKept_ownerB (i j v : Nat) : (s.setKept i j v).ownerB = s.ownerB := rfl
@[simp] theorem State.setKept_secret (i j v : Nat) : (s.setKept i j v).secret = s.secret := rfl
@[simp] theorem State.setKept_trims (i j v : Nat) : (s.setKept i j v).trims = s.trims := rfl
@[simp] theorem State.setKept_nvQ (i j v : Nat) : (s.setKept i j v).nvQ = s.nvQ := rfl
@[simp] theorem State.setKept_nvRun (i j v : Nat) : (s.setKept i j v).nvRun = s.nvRun := rfl
@[simp] theorem State.setKept_wakeQ (i j v : Nat) : (s.setKept i j v).wakeQ = s.wakeQ := rfl
@[simp] theorem State.setKept_wakeHeld (i j v : Nat) : (s.setKept i j v).wakeHeld = s.wakeHeld := rfl
@[simp] theorem State.setKept_startQ (i j v : Nat) : (s.setKept i j v).startQ = s.startQ := rfl
@[simp] theorem State.setKept_evalsBelow (i j v : Nat) : (s.setKept i j v).evalsBelow = s.evalsBelow := rfl
@[simp] theorem State.setKept_evalsAtMax (i j v : Nat) : (s.setKept i j v).evalsAtMax = s.evalsAtMax := rfl
@[simp] theorem State.setKept_readyCount (i j v : Nat) : (s.setKept i j v).readyCount = s.readyCount := rfl
@[simp] theorem State.setKept_nextId (i j v : Nat) : (s.setKept i j v).nextId = s.nextId := rfl
@[simp] theorem State.setKept_pending (i j v : Nat) : (s.setKept i j v).pending = s.pending := rfl
@[simp] theorem State.setKept_tx (i j v : Nat) : (s.setKept i j v).tx = s.tx := rfl
@[simp] theorem State.setKept_free (i j v : Nat) : (s.setKept i j v).free = s.free := rfl

/-! ### `bumpW` -/

@[simp] theorem State.bumpW_part (w i j n : Nat) : (s.bumpW w i j n).part = s.part := rfl
@[simp] theorem State.bumpW_supply (w i j n : Nat) : (s.bumpW w i j n).supply = s.supply := rfl
@[simp] theorem State.bumpW_cores (w i j n : Nat) : (s.bumpW w i j n).cores = s.cores := rfl
@[simp] theorem State.bumpW_ctxs (w i j n : Nat) : (s.bumpW w i j n).ctxs = s.ctxs := rfl
@[simp] theorem State.bumpW_polders (w i j n : Nat) : (s.bumpW w i j n).polders = s.polders := rfl
@[simp] theorem State.bumpW_mem (w i j n : Nat) : (s.bumpW w i j n).mem = s.mem := rfl
@[simp] theorem State.bumpW_check (w i j n : Nat) : (s.bumpW w i j n).check = s.check := rfl
@[simp] theorem State.bumpW_memErr (w i j n : Nat) : (s.bumpW w i j n).memErr = s.memErr := rfl
@[simp] theorem State.bumpW_counters (w i j n : Nat) : (s.bumpW w i j n).counters = s.counters := rfl
@[simp] theorem State.bumpW_ctrQ (w i j n : Nat) : (s.bumpW w i j n).ctrQ = s.ctrQ := rfl
@[simp] theorem State.bumpW_fabricOps (w i j n : Nat) : (s.bumpW w i j n).fabricOps = s.fabricOps := rfl
@[simp] theorem State.bumpW_fabricPkts (w i j n : Nat) : (s.bumpW w i j n).fabricPkts = s.fabricPkts := rfl
@[simp] theorem State.bumpW_links (w i j n : Nat) : (s.bumpW w i j n).links = s.links := rfl
@[simp] theorem State.bumpW_engines (w i j n : Nat) : (s.bumpW w i j n).engines = s.engines := rfl
@[simp] theorem State.bumpW_kept (w i j n : Nat) : (s.bumpW w i j n).kept = s.kept := rfl
@[simp] theorem State.bumpW_domains (w i j n : Nat) : (s.bumpW w i j n).domains = s.domains := rfl
@[simp] theorem State.bumpW_arrived (w i j n : Nat) : (s.bumpW w i j n).arrived = s.arrived := rfl
@[simp] theorem State.bumpW_alertN (w i j n : Nat) : (s.bumpW w i j n).alertN = s.alertN := rfl
@[simp] theorem State.bumpW_thermTripN (w i j n : Nat) : (s.bumpW w i j n).thermTripN = s.thermTripN := rfl
@[simp] theorem State.bumpW_plcaNode (w i j n : Nat) : (s.bumpW w i j n).plcaNode = s.plcaNode := rfl
@[simp] theorem State.bumpW_sessions (w i j n : Nat) : (s.bumpW w i j n).sessions = s.sessions := rfl
@[simp] theorem State.bumpW_mgmtQ (w i j n : Nat) : (s.bumpW w i j n).mgmtQ = s.mgmtQ := rfl
@[simp] theorem State.bumpW_handshakes (w i j n : Nat) : (s.bumpW w i j n).handshakes = s.handshakes := rfl
@[simp] theorem State.bumpW_signQ (w i j n : Nat) : (s.bumpW w i j n).signQ = s.signQ := rfl
@[simp] theorem State.bumpW_assocs (w i j n : Nat) : (s.bumpW w i j n).assocs = s.assocs := rfl
@[simp] theorem State.bumpW_ports (w i j n : Nat) : (s.bumpW w i j n).ports = s.ports := rfl
@[simp] theorem State.bumpW_sealKeys (w i j n : Nat) : (s.bumpW w i j n).sealKeys = s.sealKeys := rfl
@[simp] theorem State.bumpW_attest (w i j n : Nat) : (s.bumpW w i j n).attest = s.attest := rfl
@[simp] theorem State.bumpW_slotA (w i j n : Nat) : (s.bumpW w i j n).slotA = s.slotA := rfl
@[simp] theorem State.bumpW_slotB (w i j n : Nat) : (s.bumpW w i j n).slotB = s.slotB := rfl
@[simp] theorem State.bumpW_rollA (w i j n : Nat) : (s.bumpW w i j n).rollA = s.rollA := rfl
@[simp] theorem State.bumpW_rollB (w i j n : Nat) : (s.bumpW w i j n).rollB = s.rollB := rfl
@[simp] theorem State.bumpW_keptA (w i j n : Nat) : (s.bumpW w i j n).keptA = s.keptA := rfl
@[simp] theorem State.bumpW_keptB (w i j n : Nat) : (s.bumpW w i j n).keptB = s.keptB := rfl
@[simp] theorem State.bumpW_ownerA (w i j n : Nat) : (s.bumpW w i j n).ownerA = s.ownerA := rfl
@[simp] theorem State.bumpW_ownerB (w i j n : Nat) : (s.bumpW w i j n).ownerB = s.ownerB := rfl
@[simp] theorem State.bumpW_secret (w i j n : Nat) : (s.bumpW w i j n).secret = s.secret := rfl
@[simp] theorem State.bumpW_trims (w i j n : Nat) : (s.bumpW w i j n).trims = s.trims := rfl
@[simp] theorem State.bumpW_nvQ (w i j n : Nat) : (s.bumpW w i j n).nvQ = s.nvQ := rfl
@[simp] theorem State.bumpW_nvRun (w i j n : Nat) : (s.bumpW w i j n).nvRun = s.nvRun := rfl
@[simp] theorem State.bumpW_wakeQ (w i j n : Nat) : (s.bumpW w i j n).wakeQ = s.wakeQ := rfl
@[simp] theorem State.bumpW_wakeHeld (w i j n : Nat) : (s.bumpW w i j n).wakeHeld = s.wakeHeld := rfl
@[simp] theorem State.bumpW_startQ (w i j n : Nat) : (s.bumpW w i j n).startQ = s.startQ := rfl
@[simp] theorem State.bumpW_evalsBelow (w i j n : Nat) : (s.bumpW w i j n).evalsBelow = s.evalsBelow := rfl
@[simp] theorem State.bumpW_evalsAtMax (w i j n : Nat) : (s.bumpW w i j n).evalsAtMax = s.evalsAtMax := rfl
@[simp] theorem State.bumpW_readyCount (w i j n : Nat) : (s.bumpW w i j n).readyCount = s.readyCount := rfl
@[simp] theorem State.bumpW_nextId (w i j n : Nat) : (s.bumpW w i j n).nextId = s.nextId := rfl
@[simp] theorem State.bumpW_pending (w i j n : Nat) : (s.bumpW w i j n).pending = s.pending := rfl
@[simp] theorem State.bumpW_tx (w i j n : Nat) : (s.bumpW w i j n).tx = s.tx := rfl
@[simp] theorem State.bumpW_free (w i j n : Nat) : (s.bumpW w i j n).free = s.free := rfl

/-! ### `bump` -/

@[simp] theorem State.bump_part (i j n : Nat) : (s.bump i j n).part = s.part := by unfold State.bump; split <;> rfl
@[simp] theorem State.bump_supply (i j n : Nat) : (s.bump i j n).supply = s.supply := by unfold State.bump; split <;> rfl
@[simp] theorem State.bump_cores (i j n : Nat) : (s.bump i j n).cores = s.cores := by unfold State.bump; split <;> rfl
@[simp] theorem State.bump_ctxs (i j n : Nat) : (s.bump i j n).ctxs = s.ctxs := by unfold State.bump; split <;> rfl
@[simp] theorem State.bump_polders (i j n : Nat) : (s.bump i j n).polders = s.polders := by unfold State.bump; split <;> rfl
@[simp] theorem State.bump_mem (i j n : Nat) : (s.bump i j n).mem = s.mem := by unfold State.bump; split <;> rfl
@[simp] theorem State.bump_check (i j n : Nat) : (s.bump i j n).check = s.check := by unfold State.bump; split <;> rfl
@[simp] theorem State.bump_memErr (i j n : Nat) : (s.bump i j n).memErr = s.memErr := by unfold State.bump; split <;> rfl
@[simp] theorem State.bump_counters (i j n : Nat) : (s.bump i j n).counters = s.counters := by unfold State.bump; split <;> rfl
@[simp] theorem State.bump_ctrQ (i j n : Nat) : (s.bump i j n).ctrQ = s.ctrQ := by unfold State.bump; split <;> rfl
@[simp] theorem State.bump_fabricOps (i j n : Nat) : (s.bump i j n).fabricOps = s.fabricOps := by unfold State.bump; split <;> rfl
@[simp] theorem State.bump_fabricPkts (i j n : Nat) : (s.bump i j n).fabricPkts = s.fabricPkts := by unfold State.bump; split <;> rfl
@[simp] theorem State.bump_links (i j n : Nat) : (s.bump i j n).links = s.links := by unfold State.bump; split <;> rfl
@[simp] theorem State.bump_engines (i j n : Nat) : (s.bump i j n).engines = s.engines := by unfold State.bump; split <;> rfl
@[simp] theorem State.bump_kept (i j n : Nat) : (s.bump i j n).kept = s.kept := by unfold State.bump; split <;> rfl
@[simp] theorem State.bump_domains (i j n : Nat) : (s.bump i j n).domains = s.domains := by unfold State.bump; split <;> rfl
@[simp] theorem State.bump_arrived (i j n : Nat) : (s.bump i j n).arrived = s.arrived := by unfold State.bump; split <;> rfl
@[simp] theorem State.bump_alertN (i j n : Nat) : (s.bump i j n).alertN = s.alertN := by unfold State.bump; split <;> rfl
@[simp] theorem State.bump_thermTripN (i j n : Nat) : (s.bump i j n).thermTripN = s.thermTripN := by unfold State.bump; split <;> rfl
@[simp] theorem State.bump_plcaNode (i j n : Nat) : (s.bump i j n).plcaNode = s.plcaNode := by unfold State.bump; split <;> rfl
@[simp] theorem State.bump_sessions (i j n : Nat) : (s.bump i j n).sessions = s.sessions := by unfold State.bump; split <;> rfl
@[simp] theorem State.bump_mgmtQ (i j n : Nat) : (s.bump i j n).mgmtQ = s.mgmtQ := by unfold State.bump; split <;> rfl
@[simp] theorem State.bump_handshakes (i j n : Nat) : (s.bump i j n).handshakes = s.handshakes := by unfold State.bump; split <;> rfl
@[simp] theorem State.bump_signQ (i j n : Nat) : (s.bump i j n).signQ = s.signQ := by unfold State.bump; split <;> rfl
@[simp] theorem State.bump_assocs (i j n : Nat) : (s.bump i j n).assocs = s.assocs := by unfold State.bump; split <;> rfl
@[simp] theorem State.bump_ports (i j n : Nat) : (s.bump i j n).ports = s.ports := by unfold State.bump; split <;> rfl
@[simp] theorem State.bump_sealKeys (i j n : Nat) : (s.bump i j n).sealKeys = s.sealKeys := by unfold State.bump; split <;> rfl
@[simp] theorem State.bump_attest (i j n : Nat) : (s.bump i j n).attest = s.attest := by unfold State.bump; split <;> rfl
@[simp] theorem State.bump_slotA (i j n : Nat) : (s.bump i j n).slotA = s.slotA := by unfold State.bump; split <;> rfl
@[simp] theorem State.bump_slotB (i j n : Nat) : (s.bump i j n).slotB = s.slotB := by unfold State.bump; split <;> rfl
@[simp] theorem State.bump_rollA (i j n : Nat) : (s.bump i j n).rollA = s.rollA := by unfold State.bump; split <;> rfl
@[simp] theorem State.bump_rollB (i j n : Nat) : (s.bump i j n).rollB = s.rollB := by unfold State.bump; split <;> rfl
@[simp] theorem State.bump_keptA (i j n : Nat) : (s.bump i j n).keptA = s.keptA := by unfold State.bump; split <;> rfl
@[simp] theorem State.bump_keptB (i j n : Nat) : (s.bump i j n).keptB = s.keptB := by unfold State.bump; split <;> rfl
@[simp] theorem State.bump_ownerA (i j n : Nat) : (s.bump i j n).ownerA = s.ownerA := by unfold State.bump; split <;> rfl
@[simp] theorem State.bump_ownerB (i j n : Nat) : (s.bump i j n).ownerB = s.ownerB := by unfold State.bump; split <;> rfl
@[simp] theorem State.bump_secret (i j n : Nat) : (s.bump i j n).secret = s.secret := by unfold State.bump; split <;> rfl
@[simp] theorem State.bump_trims (i j n : Nat) : (s.bump i j n).trims = s.trims := by unfold State.bump; split <;> rfl
@[simp] theorem State.bump_nvQ (i j n : Nat) : (s.bump i j n).nvQ = s.nvQ := by unfold State.bump; split <;> rfl
@[simp] theorem State.bump_nvRun (i j n : Nat) : (s.bump i j n).nvRun = s.nvRun := by unfold State.bump; split <;> rfl
@[simp] theorem State.bump_wakeQ (i j n : Nat) : (s.bump i j n).wakeQ = s.wakeQ := by unfold State.bump; split <;> rfl
@[simp] theorem State.bump_wakeHeld (i j n : Nat) : (s.bump i j n).wakeHeld = s.wakeHeld := by unfold State.bump; split <;> rfl
@[simp] theorem State.bump_startQ (i j n : Nat) : (s.bump i j n).startQ = s.startQ := by unfold State.bump; split <;> rfl
@[simp] theorem State.bump_evalsBelow (i j n : Nat) : (s.bump i j n).evalsBelow = s.evalsBelow := by unfold State.bump; split <;> rfl
@[simp] theorem State.bump_evalsAtMax (i j n : Nat) : (s.bump i j n).evalsAtMax = s.evalsAtMax := by unfold State.bump; split <;> rfl
@[simp] theorem State.bump_readyCount (i j n : Nat) : (s.bump i j n).readyCount = s.readyCount := by unfold State.bump; split <;> rfl
@[simp] theorem State.bump_nextId (i j n : Nat) : (s.bump i j n).nextId = s.nextId := by unfold State.bump; split <;> rfl
@[simp] theorem State.bump_pending (i j n : Nat) : (s.bump i j n).pending = s.pending := by unfold State.bump; split <;> rfl
@[simp] theorem State.bump_tx (i j n : Nat) : (s.bump i j n).tx = s.tx := by unfold State.bump; split <;> rfl
@[simp] theorem State.bump_free (i j n : Nat) : (s.bump i j n).free = s.free := by unfold State.bump; split <;> rfl

/-! ### `event` -/

@[simp] theorem State.event_part (i b n : Nat) : (s.event i b n).part = s.part := by unfold State.event; split <;> rfl
@[simp] theorem State.event_supply (i b n : Nat) : (s.event i b n).supply = s.supply := by unfold State.event; split <;> rfl
@[simp] theorem State.event_cores (i b n : Nat) : (s.event i b n).cores = s.cores := by unfold State.event; split <;> rfl
@[simp] theorem State.event_ctxs (i b n : Nat) : (s.event i b n).ctxs = s.ctxs := by unfold State.event; split <;> rfl
@[simp] theorem State.event_polders (i b n : Nat) : (s.event i b n).polders = s.polders := by unfold State.event; split <;> rfl
@[simp] theorem State.event_mem (i b n : Nat) : (s.event i b n).mem = s.mem := by unfold State.event; split <;> rfl
@[simp] theorem State.event_check (i b n : Nat) : (s.event i b n).check = s.check := by unfold State.event; split <;> rfl
@[simp] theorem State.event_memErr (i b n : Nat) : (s.event i b n).memErr = s.memErr := by unfold State.event; split <;> rfl
@[simp] theorem State.event_counters (i b n : Nat) : (s.event i b n).counters = s.counters := by unfold State.event; split <;> rfl
@[simp] theorem State.event_ctrQ (i b n : Nat) : (s.event i b n).ctrQ = s.ctrQ := by unfold State.event; split <;> rfl
@[simp] theorem State.event_fabricOps (i b n : Nat) : (s.event i b n).fabricOps = s.fabricOps := by unfold State.event; split <;> rfl
@[simp] theorem State.event_fabricPkts (i b n : Nat) : (s.event i b n).fabricPkts = s.fabricPkts := by unfold State.event; split <;> rfl
@[simp] theorem State.event_links (i b n : Nat) : (s.event i b n).links = s.links := by unfold State.event; split <;> rfl
@[simp] theorem State.event_engines (i b n : Nat) : (s.event i b n).engines = s.engines := by unfold State.event; split <;> rfl
@[simp] theorem State.event_dict (i b n : Nat) : (s.event i b n).dict = s.dict := by unfold State.event; split <;> rfl
@[simp] theorem State.event_kept (i b n : Nat) : (s.event i b n).kept = s.kept := by unfold State.event; split <;> rfl
@[simp] theorem State.event_domains (i b n : Nat) : (s.event i b n).domains = s.domains := by unfold State.event; split <;> rfl
@[simp] theorem State.event_alertN (i b n : Nat) : (s.event i b n).alertN = s.alertN := by unfold State.event; split <;> rfl
@[simp] theorem State.event_thermTripN (i b n : Nat) : (s.event i b n).thermTripN = s.thermTripN := by unfold State.event; split <;> rfl
@[simp] theorem State.event_plcaNode (i b n : Nat) : (s.event i b n).plcaNode = s.plcaNode := by unfold State.event; split <;> rfl
@[simp] theorem State.event_sessions (i b n : Nat) : (s.event i b n).sessions = s.sessions := by unfold State.event; split <;> rfl
@[simp] theorem State.event_mgmtQ (i b n : Nat) : (s.event i b n).mgmtQ = s.mgmtQ := by unfold State.event; split <;> rfl
@[simp] theorem State.event_handshakes (i b n : Nat) : (s.event i b n).handshakes = s.handshakes := by unfold State.event; split <;> rfl
@[simp] theorem State.event_signQ (i b n : Nat) : (s.event i b n).signQ = s.signQ := by unfold State.event; split <;> rfl
@[simp] theorem State.event_assocs (i b n : Nat) : (s.event i b n).assocs = s.assocs := by unfold State.event; split <;> rfl
@[simp] theorem State.event_ports (i b n : Nat) : (s.event i b n).ports = s.ports := by unfold State.event; split <;> rfl
@[simp] theorem State.event_sealKeys (i b n : Nat) : (s.event i b n).sealKeys = s.sealKeys := by unfold State.event; split <;> rfl
@[simp] theorem State.event_attest (i b n : Nat) : (s.event i b n).attest = s.attest := by unfold State.event; split <;> rfl
@[simp] theorem State.event_slotA (i b n : Nat) : (s.event i b n).slotA = s.slotA := by unfold State.event; split <;> rfl
@[simp] theorem State.event_slotB (i b n : Nat) : (s.event i b n).slotB = s.slotB := by unfold State.event; split <;> rfl
@[simp] theorem State.event_rollA (i b n : Nat) : (s.event i b n).rollA = s.rollA := by unfold State.event; split <;> rfl
@[simp] theorem State.event_rollB (i b n : Nat) : (s.event i b n).rollB = s.rollB := by unfold State.event; split <;> rfl
@[simp] theorem State.event_keptA (i b n : Nat) : (s.event i b n).keptA = s.keptA := by unfold State.event; split <;> rfl
@[simp] theorem State.event_keptB (i b n : Nat) : (s.event i b n).keptB = s.keptB := by unfold State.event; split <;> rfl
@[simp] theorem State.event_ownerA (i b n : Nat) : (s.event i b n).ownerA = s.ownerA := by unfold State.event; split <;> rfl
@[simp] theorem State.event_ownerB (i b n : Nat) : (s.event i b n).ownerB = s.ownerB := by unfold State.event; split <;> rfl
@[simp] theorem State.event_secret (i b n : Nat) : (s.event i b n).secret = s.secret := by unfold State.event; split <;> rfl
@[simp] theorem State.event_trims (i b n : Nat) : (s.event i b n).trims = s.trims := by unfold State.event; split <;> rfl
@[simp] theorem State.event_nvQ (i b n : Nat) : (s.event i b n).nvQ = s.nvQ := by unfold State.event; split <;> rfl
@[simp] theorem State.event_nvRun (i b n : Nat) : (s.event i b n).nvRun = s.nvRun := by unfold State.event; split <;> rfl
@[simp] theorem State.event_wakeQ (i b n : Nat) : (s.event i b n).wakeQ = s.wakeQ := by unfold State.event; split <;> rfl
@[simp] theorem State.event_wakeHeld (i b n : Nat) : (s.event i b n).wakeHeld = s.wakeHeld := by unfold State.event; split <;> rfl
@[simp] theorem State.event_startQ (i b n : Nat) : (s.event i b n).startQ = s.startQ := by unfold State.event; split <;> rfl
@[simp] theorem State.event_evalsBelow (i b n : Nat) : (s.event i b n).evalsBelow = s.evalsBelow := by unfold State.event; split <;> rfl
@[simp] theorem State.event_evalsAtMax (i b n : Nat) : (s.event i b n).evalsAtMax = s.evalsAtMax := by unfold State.event; split <;> rfl
@[simp] theorem State.event_readyCount (i b n : Nat) : (s.event i b n).readyCount = s.readyCount := by unfold State.event; split <;> rfl
@[simp] theorem State.event_nextId (i b n : Nat) : (s.event i b n).nextId = s.nextId := by unfold State.event; split <;> rfl
@[simp] theorem State.event_pending (i b n : Nat) : (s.event i b n).pending = s.pending := by unfold State.event; split <;> rfl
@[simp] theorem State.event_tx (i b n : Nat) : (s.event i b n).tx = s.tx := by unfold State.event; split <;> rfl
@[simp] theorem State.event_free (i b n : Nat) : (s.event i b n).free = s.free := by unfold State.event; split <;> rfl

/-! ### `send` -/

@[simp] theorem State.send_part (x : Tx) : (s.send x).part = s.part := by
  simp only [State.send]; split <;> (try split) <;> simp
@[simp] theorem State.send_supply (x : Tx) : (s.send x).supply = s.supply := by
  simp only [State.send]; split <;> (try split) <;> simp
@[simp] theorem State.send_cores (x : Tx) : (s.send x).cores = s.cores := by
  simp only [State.send]; split <;> (try split) <;> simp
@[simp] theorem State.send_ctxs (x : Tx) : (s.send x).ctxs = s.ctxs := by
  simp only [State.send]; split <;> (try split) <;> simp
@[simp] theorem State.send_polders (x : Tx) : (s.send x).polders = s.polders := by
  simp only [State.send]; split <;> (try split) <;> simp
@[simp] theorem State.send_mem (x : Tx) : (s.send x).mem = s.mem := by
  simp only [State.send]; split <;> (try split) <;> simp
@[simp] theorem State.send_check (x : Tx) : (s.send x).check = s.check := by
  simp only [State.send]; split <;> (try split) <;> simp
@[simp] theorem State.send_memErr (x : Tx) : (s.send x).memErr = s.memErr := by
  simp only [State.send]; split <;> (try split) <;> simp
@[simp] theorem State.send_counters (x : Tx) : (s.send x).counters = s.counters := by
  simp only [State.send]; split <;> (try split) <;> simp
@[simp] theorem State.send_ctrQ (x : Tx) : (s.send x).ctrQ = s.ctrQ := by
  simp only [State.send]; split <;> (try split) <;> simp
@[simp] theorem State.send_fabricOps (x : Tx) : (s.send x).fabricOps = s.fabricOps := by
  simp only [State.send]; split <;> (try split) <;> simp
@[simp] theorem State.send_fabricPkts (x : Tx) : (s.send x).fabricPkts = s.fabricPkts := by
  simp only [State.send]; split <;> (try split) <;> simp
@[simp] theorem State.send_links (x : Tx) : (s.send x).links = s.links := by
  simp only [State.send]; split <;> (try split) <;> simp
@[simp] theorem State.send_engines (x : Tx) : (s.send x).engines = s.engines := by
  simp only [State.send]; split <;> (try split) <;> simp
@[simp] theorem State.send_kept (x : Tx) : (s.send x).kept = s.kept := by
  simp only [State.send]; split <;> (try split) <;> simp
@[simp] theorem State.send_domains (x : Tx) : (s.send x).domains = s.domains := by
  simp only [State.send]; split <;> (try split) <;> simp
@[simp] theorem State.send_arrived (x : Tx) : (s.send x).arrived = s.arrived := by
  simp only [State.send]; split <;> (try split) <;> simp
@[simp] theorem State.send_alertN (x : Tx) : (s.send x).alertN = s.alertN := by
  simp only [State.send]; split <;> (try split) <;> simp
@[simp] theorem State.send_thermTripN (x : Tx) : (s.send x).thermTripN = s.thermTripN := by
  simp only [State.send]; split <;> (try split) <;> simp
@[simp] theorem State.send_plcaNode (x : Tx) : (s.send x).plcaNode = s.plcaNode := by
  simp only [State.send]; split <;> (try split) <;> simp
@[simp] theorem State.send_sessions (x : Tx) : (s.send x).sessions = s.sessions := by
  simp only [State.send]; split <;> (try split) <;> simp
@[simp] theorem State.send_mgmtQ (x : Tx) : (s.send x).mgmtQ = s.mgmtQ := by
  simp only [State.send]; split <;> (try split) <;> simp
@[simp] theorem State.send_handshakes (x : Tx) : (s.send x).handshakes = s.handshakes := by
  simp only [State.send]; split <;> (try split) <;> simp
@[simp] theorem State.send_signQ (x : Tx) : (s.send x).signQ = s.signQ := by
  simp only [State.send]; split <;> (try split) <;> simp
@[simp] theorem State.send_assocs (x : Tx) : (s.send x).assocs = s.assocs := by
  simp only [State.send]; split <;> (try split) <;> simp
@[simp] theorem State.send_ports (x : Tx) : (s.send x).ports = s.ports := by
  simp only [State.send]; split <;> (try split) <;> simp
@[simp] theorem State.send_sealKeys (x : Tx) : (s.send x).sealKeys = s.sealKeys := by
  simp only [State.send]; split <;> (try split) <;> simp
@[simp] theorem State.send_attest (x : Tx) : (s.send x).attest = s.attest := by
  simp only [State.send]; split <;> (try split) <;> simp
@[simp] theorem State.send_slotA (x : Tx) : (s.send x).slotA = s.slotA := by
  simp only [State.send]; split <;> (try split) <;> simp
@[simp] theorem State.send_slotB (x : Tx) : (s.send x).slotB = s.slotB := by
  simp only [State.send]; split <;> (try split) <;> simp
@[simp] theorem State.send_rollA (x : Tx) : (s.send x).rollA = s.rollA := by
  simp only [State.send]; split <;> (try split) <;> simp
@[simp] theorem State.send_rollB (x : Tx) : (s.send x).rollB = s.rollB := by
  simp only [State.send]; split <;> (try split) <;> simp
@[simp] theorem State.send_keptA (x : Tx) : (s.send x).keptA = s.keptA := by
  simp only [State.send]; split <;> (try split) <;> simp
@[simp] theorem State.send_keptB (x : Tx) : (s.send x).keptB = s.keptB := by
  simp only [State.send]; split <;> (try split) <;> simp
@[simp] theorem State.send_ownerA (x : Tx) : (s.send x).ownerA = s.ownerA := by
  simp only [State.send]; split <;> (try split) <;> simp
@[simp] theorem State.send_ownerB (x : Tx) : (s.send x).ownerB = s.ownerB := by
  simp only [State.send]; split <;> (try split) <;> simp
@[simp] theorem State.send_secret (x : Tx) : (s.send x).secret = s.secret := by
  simp only [State.send]; split <;> (try split) <;> simp
@[simp] theorem State.send_trims (x : Tx) : (s.send x).trims = s.trims := by
  simp only [State.send]; split <;> (try split) <;> simp
@[simp] theorem State.send_nvQ (x : Tx) : (s.send x).nvQ = s.nvQ := by
  simp only [State.send]; split <;> (try split) <;> simp
@[simp] theorem State.send_nvRun (x : Tx) : (s.send x).nvRun = s.nvRun := by
  simp only [State.send]; split <;> (try split) <;> simp
@[simp] theorem State.send_wakeQ (x : Tx) : (s.send x).wakeQ = s.wakeQ := by
  simp only [State.send]; split <;> (try split) <;> simp
@[simp] theorem State.send_wakeHeld (x : Tx) : (s.send x).wakeHeld = s.wakeHeld := by
  simp only [State.send]; split <;> (try split) <;> simp
@[simp] theorem State.send_startQ (x : Tx) : (s.send x).startQ = s.startQ := by
  simp only [State.send]; split <;> (try split) <;> simp
@[simp] theorem State.send_evalsBelow (x : Tx) : (s.send x).evalsBelow = s.evalsBelow := by
  simp only [State.send]; split <;> (try split) <;> simp
@[simp] theorem State.send_evalsAtMax (x : Tx) : (s.send x).evalsAtMax = s.evalsAtMax := by
  simp only [State.send]; split <;> (try split) <;> simp
@[simp] theorem State.send_readyCount (x : Tx) : (s.send x).readyCount = s.readyCount := by
  simp only [State.send]; split <;> (try split) <;> simp
@[simp] theorem State.send_nextId (x : Tx) : (s.send x).nextId = s.nextId := by
  simp only [State.send]; split <;> (try split) <;> simp
@[simp] theorem State.send_pending (x : Tx) : (s.send x).pending = s.pending := by
  simp only [State.send]; split <;> (try split) <;> simp
@[simp] theorem State.send_free (x : Tx) : (s.send x).free = s.free := by
  simp only [State.send]; split <;> (try split) <;> simp

/-! ### Parts of the state -/

theorem State.core_setCore (n m : Nat) (c : CoreState) : (s.setCore n c).core m = if n = m then c else s.core m := by
  unfold State.core State.setCore
  rw [tblFind_tblPut]
  split <;> rfl

@[simp] theorem State.core_setCore_self (n : Nat) (c : CoreState) : (s.setCore n c).core n = c := by
  simp [State.core_setCore]

theorem State.core_onCore (n m : Nat) (f : CoreState → CoreState) :
    (s.onCore n f).core m = if n = m then f (s.core n) else s.core m := s.core_setCore n m _

@[simp] theorem State.core_onCore_self (n : Nat) (f : CoreState → CoreState) : (s.onCore n f).core n = f (s.core n) := by
  simp [State.core_onCore]

theorem State.ctx_setCtx (n m : Nat) (c : Ctx) : (s.setCtx n c).ctx m = if n = m then c else s.ctx m := by
  unfold State.ctx State.setCtx
  rw [tblFind_tblPut]
  split <;> rfl

@[simp] theorem State.ctx_setCtx_self (n : Nat) (c : Ctx) : (s.setCtx n c).ctx n = c := by simp [State.ctx_setCtx]

theorem State.ctx_onCtx (n m : Nat) (f : Ctx → Ctx) : (s.onCtx n f).ctx m = if n = m then f (s.ctx n) else s.ctx m :=
  s.ctx_setCtx n m _

@[simp] theorem State.ctx_onCtx_self (n : Nat) (f : Ctx → Ctx) : (s.onCtx n f).ctx n = f (s.ctx n) := by
  simp [State.ctx_onCtx]

theorem State.polder_setPolder (n m : Nat) (p : Polder) :
    (s.setPolder n p).polder m = if n = m then p else s.polder m := by
  unfold State.polder State.setPolder
  rw [tblFind_tblPut]
  split <;> rfl

@[simp] theorem State.polder_setPolder_self (n : Nat) (p : Polder) : (s.setPolder n p).polder n = p := by
  simp [State.polder_setPolder]

theorem State.polder_onPolder (n m : Nat) (f : Polder → Polder) :
    (s.onPolder n f).polder m = if n = m then f (s.polder n) else s.polder m := s.polder_setPolder n m _

@[simp] theorem State.polder_onPolder_self (n : Nat) (f : Polder → Polder) :
    (s.onPolder n f).polder n = f (s.polder n) := by simp [State.polder_onPolder]

@[simp] theorem State.port_setPort_self (n : Nat) (p : Port) : (s.setPort n p).port n = p := by
  simp [State.port, State.setPort]

theorem State.port_setPort (n m : Nat) (p : Port) : (s.setPort n p).port m = if n = m then p else s.port m := by
  unfold State.port State.setPort
  rw [tblFind_tblPut]
  split <;> rfl

@[simp] theorem State.engine_setEngine_self (n : Nat) (e : Engine) : (s.setEngine n e).engine n = e := by
  simp [State.engine, State.setEngine]

theorem State.session_setSession (n m : Nat) (x : Session) :
    (s.setSession n x).session m = if n = m then some x else s.session m := by
  unfold State.session State.setSession
  rw [tblFind_tblPut]

/-! ### `core` reads `cores` alone -/

@[simp] theorem State.core_setCtx (n : Nat) (c : Ctx) (m : Nat) : (s.setCtx n c).core m = s.core m := by simp [State.core]
@[simp] theorem State.core_onCtx (n : Nat) (f : Ctx → Ctx) (m : Nat) : (s.onCtx n f).core m = s.core m := by simp [State.core]
@[simp] theorem State.core_setPolder (n : Nat) (p : Polder) (m : Nat) : (s.setPolder n p).core m = s.core m := by simp [State.core]
@[simp] theorem State.core_onPolder (n : Nat) (f : Polder → Polder) (m : Nat) : (s.onPolder n f).core m = s.core m := by simp [State.core]
@[simp] theorem State.core_setEngine (n : Nat) (e : Engine) (m : Nat) : (s.setEngine n e).core m = s.core m := by simp [State.core]
@[simp] theorem State.core_setPort (n : Nat) (p : Port) (m : Nat) : (s.setPort n p).core m = s.core m := by simp [State.core]
@[simp] theorem State.core_onPort (n : Nat) (f : Port → Port) (m : Nat) : (s.onPort n f).core m = s.core m := by simp [State.core]
@[simp] theorem State.core_setSession (n : Nat) (x : Session) (m : Nat) : (s.setSession n x).core m = s.core m := by simp [State.core]
@[simp] theorem State.core_usedFree (m : Nat) : (s.usedFree).core m = s.core m := by simp [State.core]
@[simp] theorem State.core_setEntry (i j v : Nat) (m : Nat) : (s.setEntry i j v).core m = s.core m := by simp [State.core]
@[simp] theorem State.core_setKept (i j v : Nat) (m : Nat) : (s.setKept i j v).core m = s.core m := by simp [State.core]
@[simp] theorem State.core_bumpW (w i j n : Nat) (m : Nat) : (s.bumpW w i j n).core m = s.core m := by simp [State.core]
@[simp] theorem State.core_bump (i j n : Nat) (m : Nat) : (s.bump i j n).core m = s.core m := by simp [State.core]
@[simp] theorem State.core_event (i b n : Nat) (m : Nat) : (s.event i b n).core m = s.core m := by simp [State.core]
@[simp] theorem State.core_send (x : Tx) (m : Nat) : (s.send x).core m = s.core m := by simp [State.core]

/-! ### `ctx` reads `ctxs` alone -/

@[simp] theorem State.ctx_setCore (n : Nat) (c : CoreState) (m : Nat) : (s.setCore n c).ctx m = s.ctx m := by simp [State.ctx]
@[simp] theorem State.ctx_onCore (n : Nat) (f : CoreState → CoreState) (m : Nat) : (s.onCore n f).ctx m = s.ctx m := by simp [State.ctx]
@[simp] theorem State.ctx_setPolder (n : Nat) (p : Polder) (m : Nat) : (s.setPolder n p).ctx m = s.ctx m := by simp [State.ctx]
@[simp] theorem State.ctx_onPolder (n : Nat) (f : Polder → Polder) (m : Nat) : (s.onPolder n f).ctx m = s.ctx m := by simp [State.ctx]
@[simp] theorem State.ctx_setEngine (n : Nat) (e : Engine) (m : Nat) : (s.setEngine n e).ctx m = s.ctx m := by simp [State.ctx]
@[simp] theorem State.ctx_setPort (n : Nat) (p : Port) (m : Nat) : (s.setPort n p).ctx m = s.ctx m := by simp [State.ctx]
@[simp] theorem State.ctx_onPort (n : Nat) (f : Port → Port) (m : Nat) : (s.onPort n f).ctx m = s.ctx m := by simp [State.ctx]
@[simp] theorem State.ctx_setSession (n : Nat) (x : Session) (m : Nat) : (s.setSession n x).ctx m = s.ctx m := by simp [State.ctx]
@[simp] theorem State.ctx_usedFree (m : Nat) : (s.usedFree).ctx m = s.ctx m := by simp [State.ctx]
@[simp] theorem State.ctx_setEntry (i j v : Nat) (m : Nat) : (s.setEntry i j v).ctx m = s.ctx m := by simp [State.ctx]
@[simp] theorem State.ctx_setKept (i j v : Nat) (m : Nat) : (s.setKept i j v).ctx m = s.ctx m := by simp [State.ctx]
@[simp] theorem State.ctx_bumpW (w i j n : Nat) (m : Nat) : (s.bumpW w i j n).ctx m = s.ctx m := by simp [State.ctx]
@[simp] theorem State.ctx_bump (i j n : Nat) (m : Nat) : (s.bump i j n).ctx m = s.ctx m := by simp [State.ctx]
@[simp] theorem State.ctx_event (i b n : Nat) (m : Nat) : (s.event i b n).ctx m = s.ctx m := by simp [State.ctx]
@[simp] theorem State.ctx_send (x : Tx) (m : Nat) : (s.send x).ctx m = s.ctx m := by simp [State.ctx]

/-! ### `polder` reads `polders` alone -/

@[simp] theorem State.polder_setCore (n : Nat) (c : CoreState) (m : Nat) : (s.setCore n c).polder m = s.polder m := by simp [State.polder]
@[simp] theorem State.polder_onCore (n : Nat) (f : CoreState → CoreState) (m : Nat) : (s.onCore n f).polder m = s.polder m := by simp [State.polder]
@[simp] theorem State.polder_setCtx (n : Nat) (c : Ctx) (m : Nat) : (s.setCtx n c).polder m = s.polder m := by simp [State.polder]
@[simp] theorem State.polder_onCtx (n : Nat) (f : Ctx → Ctx) (m : Nat) : (s.onCtx n f).polder m = s.polder m := by simp [State.polder]
@[simp] theorem State.polder_setEngine (n : Nat) (e : Engine) (m : Nat) : (s.setEngine n e).polder m = s.polder m := by simp [State.polder]
@[simp] theorem State.polder_setPort (n : Nat) (p : Port) (m : Nat) : (s.setPort n p).polder m = s.polder m := by simp [State.polder]
@[simp] theorem State.polder_onPort (n : Nat) (f : Port → Port) (m : Nat) : (s.onPort n f).polder m = s.polder m := by simp [State.polder]
@[simp] theorem State.polder_setSession (n : Nat) (x : Session) (m : Nat) : (s.setSession n x).polder m = s.polder m := by simp [State.polder]
@[simp] theorem State.polder_usedFree (m : Nat) : (s.usedFree).polder m = s.polder m := by simp [State.polder]
@[simp] theorem State.polder_setEntry (i j v : Nat) (m : Nat) : (s.setEntry i j v).polder m = s.polder m := by simp [State.polder]
@[simp] theorem State.polder_setKept (i j v : Nat) (m : Nat) : (s.setKept i j v).polder m = s.polder m := by simp [State.polder]
@[simp] theorem State.polder_bumpW (w i j n : Nat) (m : Nat) : (s.bumpW w i j n).polder m = s.polder m := by simp [State.polder]
@[simp] theorem State.polder_bump (i j n : Nat) (m : Nat) : (s.bump i j n).polder m = s.polder m := by simp [State.polder]
@[simp] theorem State.polder_event (i b n : Nat) (m : Nat) : (s.event i b n).polder m = s.polder m := by simp [State.polder]
@[simp] theorem State.polder_send (x : Tx) (m : Nat) : (s.send x).polder m = s.polder m := by simp [State.polder]

/-! ### `engine` reads `engines` alone -/

@[simp] theorem State.engine_setCore (n : Nat) (c : CoreState) (m : Nat) : (s.setCore n c).engine m = s.engine m := by simp [State.engine]
@[simp] theorem State.engine_onCore (n : Nat) (f : CoreState → CoreState) (m : Nat) : (s.onCore n f).engine m = s.engine m := by simp [State.engine]
@[simp] theorem State.engine_setCtx (n : Nat) (c : Ctx) (m : Nat) : (s.setCtx n c).engine m = s.engine m := by simp [State.engine]
@[simp] theorem State.engine_onCtx (n : Nat) (f : Ctx → Ctx) (m : Nat) : (s.onCtx n f).engine m = s.engine m := by simp [State.engine]
@[simp] theorem State.engine_setPolder (n : Nat) (p : Polder) (m : Nat) : (s.setPolder n p).engine m = s.engine m := by simp [State.engine]
@[simp] theorem State.engine_onPolder (n : Nat) (f : Polder → Polder) (m : Nat) : (s.onPolder n f).engine m = s.engine m := by simp [State.engine]
@[simp] theorem State.engine_setPort (n : Nat) (p : Port) (m : Nat) : (s.setPort n p).engine m = s.engine m := by simp [State.engine]
@[simp] theorem State.engine_onPort (n : Nat) (f : Port → Port) (m : Nat) : (s.onPort n f).engine m = s.engine m := by simp [State.engine]
@[simp] theorem State.engine_setSession (n : Nat) (x : Session) (m : Nat) : (s.setSession n x).engine m = s.engine m := by simp [State.engine]
@[simp] theorem State.engine_usedFree (m : Nat) : (s.usedFree).engine m = s.engine m := by simp [State.engine]
@[simp] theorem State.engine_setEntry (i j v : Nat) (m : Nat) : (s.setEntry i j v).engine m = s.engine m := by simp [State.engine]
@[simp] theorem State.engine_setKept (i j v : Nat) (m : Nat) : (s.setKept i j v).engine m = s.engine m := by simp [State.engine]
@[simp] theorem State.engine_bumpW (w i j n : Nat) (m : Nat) : (s.bumpW w i j n).engine m = s.engine m := by simp [State.engine]
@[simp] theorem State.engine_bump (i j n : Nat) (m : Nat) : (s.bump i j n).engine m = s.engine m := by simp [State.engine]
@[simp] theorem State.engine_event (i b n : Nat) (m : Nat) : (s.event i b n).engine m = s.engine m := by simp [State.engine]
@[simp] theorem State.engine_send (x : Tx) (m : Nat) : (s.send x).engine m = s.engine m := by simp [State.engine]

/-! ### `port` reads `ports` alone -/

@[simp] theorem State.port_setCore (n : Nat) (c : CoreState) (m : Nat) : (s.setCore n c).port m = s.port m := by simp [State.port]
@[simp] theorem State.port_onCore (n : Nat) (f : CoreState → CoreState) (m : Nat) : (s.onCore n f).port m = s.port m := by simp [State.port]
@[simp] theorem State.port_setCtx (n : Nat) (c : Ctx) (m : Nat) : (s.setCtx n c).port m = s.port m := by simp [State.port]
@[simp] theorem State.port_onCtx (n : Nat) (f : Ctx → Ctx) (m : Nat) : (s.onCtx n f).port m = s.port m := by simp [State.port]
@[simp] theorem State.port_setPolder (n : Nat) (p : Polder) (m : Nat) : (s.setPolder n p).port m = s.port m := by simp [State.port]
@[simp] theorem State.port_onPolder (n : Nat) (f : Polder → Polder) (m : Nat) : (s.onPolder n f).port m = s.port m := by simp [State.port]
@[simp] theorem State.port_setEngine (n : Nat) (e : Engine) (m : Nat) : (s.setEngine n e).port m = s.port m := by simp [State.port]
@[simp] theorem State.port_setSession (n : Nat) (x : Session) (m : Nat) : (s.setSession n x).port m = s.port m := by simp [State.port]
@[simp] theorem State.port_usedFree (m : Nat) : (s.usedFree).port m = s.port m := by simp [State.port]
@[simp] theorem State.port_setEntry (i j v : Nat) (m : Nat) : (s.setEntry i j v).port m = s.port m := by simp [State.port]
@[simp] theorem State.port_setKept (i j v : Nat) (m : Nat) : (s.setKept i j v).port m = s.port m := by simp [State.port]
@[simp] theorem State.port_bumpW (w i j n : Nat) (m : Nat) : (s.bumpW w i j n).port m = s.port m := by simp [State.port]
@[simp] theorem State.port_bump (i j n : Nat) (m : Nat) : (s.bump i j n).port m = s.port m := by simp [State.port]
@[simp] theorem State.port_event (i b n : Nat) (m : Nat) : (s.event i b n).port m = s.port m := by simp [State.port]
@[simp] theorem State.port_send (x : Tx) (m : Nat) : (s.send x).port m = s.port m := by simp [State.port]

/-! ### `session` reads `sessions` alone -/

@[simp] theorem State.session_setCore (n : Nat) (c : CoreState) (m : Nat) : (s.setCore n c).session m = s.session m := by simp [State.session]
@[simp] theorem State.session_onCore (n : Nat) (f : CoreState → CoreState) (m : Nat) : (s.onCore n f).session m = s.session m := by simp [State.session]
@[simp] theorem State.session_setCtx (n : Nat) (c : Ctx) (m : Nat) : (s.setCtx n c).session m = s.session m := by simp [State.session]
@[simp] theorem State.session_onCtx (n : Nat) (f : Ctx → Ctx) (m : Nat) : (s.onCtx n f).session m = s.session m := by simp [State.session]
@[simp] theorem State.session_setPolder (n : Nat) (p : Polder) (m : Nat) : (s.setPolder n p).session m = s.session m := by simp [State.session]
@[simp] theorem State.session_onPolder (n : Nat) (f : Polder → Polder) (m : Nat) : (s.onPolder n f).session m = s.session m := by simp [State.session]
@[simp] theorem State.session_setEngine (n : Nat) (e : Engine) (m : Nat) : (s.setEngine n e).session m = s.session m := by simp [State.session]
@[simp] theorem State.session_setPort (n : Nat) (p : Port) (m : Nat) : (s.setPort n p).session m = s.session m := by simp [State.session]
@[simp] theorem State.session_onPort (n : Nat) (f : Port → Port) (m : Nat) : (s.onPort n f).session m = s.session m := by simp [State.session]
@[simp] theorem State.session_usedFree (m : Nat) : (s.usedFree).session m = s.session m := by simp [State.session]
@[simp] theorem State.session_setEntry (i j v : Nat) (m : Nat) : (s.setEntry i j v).session m = s.session m := by simp [State.session]
@[simp] theorem State.session_setKept (i j v : Nat) (m : Nat) : (s.setKept i j v).session m = s.session m := by simp [State.session]
@[simp] theorem State.session_bumpW (w i j n : Nat) (m : Nat) : (s.bumpW w i j n).session m = s.session m := by simp [State.session]
@[simp] theorem State.session_bump (i j n : Nat) (m : Nat) : (s.bump i j n).session m = s.session m := by simp [State.session]
@[simp] theorem State.session_event (i b n : Nat) (m : Nat) : (s.event i b n).session m = s.session m := by simp [State.session]
@[simp] theorem State.session_send (x : Tx) (m : Nat) : (s.send x).session m = s.session m := by simp [State.session]

end Sys2Proof.Machine
end

