-- ==== Sys2Proof/Laws/Clean.lean ====
section
/-! SUPPORT. Memory in which no code word holds an error: no read of it is poisoned, and reads, writes and the home's
operations leave it so. -/

namespace Sys2Proof.Machine

@[simp] theorem State.burst_memErr (s : State) (a : Nat) : (s.burst a).memErr = s.memErr := by simp [State.burst]

theorem State.wordError_clean {s : State} (e : s.memErr = []) (cw : Nat) : s.wordError cw = ⟨[], []⟩ := by
  simp only [State.wordError, e, tblFind_nil]; rfl

/-- A read of a word without errors is not poisoned and counts itself only. -/
theorem State.readWord_clean {s : State} (r : Requester) (cw : Nat) (e : s.memErr = []) :
    (s.readWord r cw).poisoned = false ∧ (s.readWord r cw).state.memErr = [] := by
  have h := State.wordError_clean
    (s := (s.bump (channelIndex (64 * cw)) 1 1).bump (0x3020 + r.polder) (if r.near (64 * cw) then 1 else 2) 64) (by simp [e]) cw
  simp [State.readWord, h, WordError.symbols, e]

theorem State.writeWord_clean {s : State} (r : Requester) (cw : Nat) (data : List Byte) (e : s.memErr = []) :
    (s.writeWord r cw data).memErr = [] := by
  have h := State.wordError_clean
    (s := (s.bump (channelIndex (64 * cw)) 2 1).bump (0x3020 + r.polder) (if r.near (64 * cw) then 3 else 4) 64) (by simp [e]) cw
  simp [State.writeWord, h, e, tblDrop]

/-- What a fold keeps at every step, it keeps. -/
theorem foldl_keeps {α β : Type} (P : α → Prop) {f : α → β → α} (h : ∀ a b, P a → P (f a b)) (l : List β) {a : α}
    (e : P a) : P (l.foldl f a) := by
  induction l generalizing a with
  | nil => exact e
  | cons b r ih => exact ih (h a b e)

theorem State.readView_clean {s : State} (r : Requester) (a : W64) (n : Nat) (e : s.memErr = []) :
    (s.readView r a n).poison = none ∧ (s.readView r a n).state.memErr = [] := by
  have g : ∀ (acc : State × List (List Byte) × List Nat) (q : Requester) (p cw ph : Nat), acc.1.memErr = [] → acc.2.2 = [] →
      let w := (if beginsBurst p cw then acc.1.burst ph else acc.1).readWord q (ph / 64)
      w.state.memErr = [] ∧ (if w.poisoned then acc.2.2 ++ [cw] else acc.2.2) = [] := by
    intro acc q p cw ph x y
    have w := State.readWord_clean (s := if beginsBurst p cw then acc.1.burst ph else acc.1) q (ph / 64) (by split <;> simp [x])
    exact ⟨w.2, by rw [w.1]; exact y⟩
  have k : (s.readView r a n).state.memErr = [] ∧ (s.readView r a n).bad = [] := by
    unfold State.readView
    refine foldl_keeps (fun acc : State × List (List Byte) × List Nat => acc.1.memErr = [] ∧ acc.2.2 = []) ?_ _ ⟨e, rfl⟩
    intro acc cw x
    dsimp only
    split
    · exact x
    · exact g acc _ _ cw _ x.1 x.2
  have b := k.2
  unfold State.readView at b ⊢
  dsimp only at b ⊢
  exact ⟨by rw [b]; rfl, k.1⟩

theorem State.writeView_clean {s : State} (r : Requester) (a : W64) (bs : List Byte) (e : s.memErr = []) :
    (s.writeView r a bs).memErr = [] := by
  unfold State.writeView
  refine foldl_keeps (fun u : State => u.memErr = []) ?_ _ e
  intro u cw x
  dsimp only
  split
  · exact x
  · exact State.writeWord_clean _ _ _ (by split <;> simp [x])

/-! ### The cache home -/

theorem Home.fetch_clean {h : Home} (a : W64) (e : h.state.memErr = []) (p : h.poison = none) :
    (h.fetch a).poison = none ∧ (h.fetch a).state.memErr = [] := by
  unfold Home.fetch
  split
  · rename_i ph _ _
    dsimp only
    split
    · exact ⟨p, e⟩
    · have w := State.readWord_clean (s := if h.last = some (ph / 64 - 1) ∧ ph / 64 % 32 ≠ 0 then h.state else h.state.burst ph)
        ((if h.last = some (ph / 64 - 1) ∧ ph / 64 % 32 ≠ 0 then h.state else h.state.burst ph).homeFor h.polder) (ph / 64)
        (by split <;> simp [e])
      exact ⟨by rw [w.1]; rfl, w.2⟩
  · exact ⟨p, e⟩

theorem Home.put_clean {h : Home} (a : W64) (bs : List Byte) (e : h.state.memErr = []) (p : h.poison = none) :
    (h.put a bs).poison = none ∧ (h.put a bs).state.memErr = [] := by
  have f := Home.fetch_clean a e p
  unfold Home.put
  by_cases n : bs.length = 64
  · simp only [n, ite_true]; split <;> exact ⟨p, e⟩
  · simp only [n, ite_false]; split <;> exact f

theorem Home.lowered_clean {h : Home} (n refs pins : Nat) (e : h.state.memErr = []) (p : h.poison = none) :
    (h.lowered n refs pins).poison = none ∧ (h.lowered n refs pins).state.memErr = [] := by
  have m := Home.put_clean (h.cfg.metaAddr n) (toBytes 8 (refs * 2 ^ 32 + pins)) e p
  unfold Home.lowered
  dsimp only
  split
  · exact Home.put_clean _ _ m.2 m.1
  · exact m

theorem Home.dropRef_clean {h : Home} (n : Nat) (e : h.state.memErr = []) (p : h.poison = none) :
    (h.dropRef n).poison = none ∧ (h.dropRef n).state.memErr = [] :=
  have f := Home.fetch_clean (h.cfg.metaAddr n) e p
  Home.lowered_clean _ _ _ f.2 f.1

/-- Where no word holds an error, a copy on write switches. -/
theorem State.cowSwitch_clean {s : State} (p : Nat) (a : W64) (old new : Nat) (e : s.memErr = []) :
    (s.cowSwitch p a old new).2 = none := by
  have r := State.readView_clean (s.homeFor p)
    ((s.cacheCfg p).poolBase + BitVec.ofNat 64 (old * (s.cacheCfg p).pageBytes)) (s.cacheCfg p).pageBytes e
  unfold State.cowSwitch
  dsimp only
  rw [r.1]
  dsimp only [List.foldl_cons, List.foldl_nil, Home.fetchAll]
  have f := Home.fetch_clean (h := State.home ((s.readView (s.homeFor p) ((s.cacheCfg p).poolBase
      + BitVec.ofNat 64 (old * (s.cacheCfg p).pageBytes)) (s.cacheCfg p).pageBytes).state.writeView (s.homeFor p)
    ((s.cacheCfg p).poolBase + BitVec.ofNat 64 (new * (s.cacheCfg p).pageBytes)) (s.readView (s.homeFor p) ((s.cacheCfg p).poolBase
      + BitVec.ofNat 64 (old * (s.cacheCfg p).pageBytes)) (s.cacheCfg p).pageBytes).data) p) a (State.writeView_clean _ _ _ r.2) rfl
  have g := Home.fetch_clean ((s.cacheCfg p).metaAddr new) f.2 f.1
  generalize Home.fetch (Home.fetch _ _) _ = h at g
  have x := Home.put_clean (h.cfg.metaAddr new) (toBytes 8 (1 * 2 ^ 32 + h.pins new)) g.2 g.1
  have y := Home.put_clean a (toBytes 8 (2 ^ 63 + new)) x.2 x.1
  have z := Home.dropRef_clean ((h.ptEntry a).getD old) y.2 y.1
  have z' : (((h.setMeta new 1 (h.pins new)).setPtEntry a (some new)).dropRef ((h.ptEntry a).getD old)).poison = none := z.1
  rw [z']

end Sys2Proof.Machine
end

