-- ==== Sys2Proof/Laws/Issue.lean ====
section
/-! SUPPORT. What the arrival of a bundle's last slot does: when nothing makes it wait and no check finds a fault, the
bundle takes effect at once on the state it arrives in. -/

namespace Sys2Proof.Machine

/-! ### Putting a part twice -/

theorem tblPut_tblPut {α : Type} (t : List (Nat × α)) (k : Nat) (x y : α) :
    tblPut (tblPut t k x) k y = tblPut t k y := by
  induction t with
  | nil => simp [tblPut]
  | cons z r ih =>
    obtain ⟨a, v⟩ := z
    simp only [tblPut]
    split
    · simp [tblPut]
    · split
      · simp [tblPut]
      · rename_i h1 h2
        simp [tblPut, h1, h2, ih]

@[simp] theorem State.setCore_setCore (s : State) (n : Nat) (a b : CoreState) :
    (s.setCore n a).setCore n b = s.setCore n b := by
  simp [State.setCore, tblPut_tblPut]

@[simp] theorem State.onCore_setCore (s : State) (n : Nat) (a : CoreState) (f : CoreState → CoreState) :
    (s.setCore n a).onCore n f = s.setCore n (f a) := by
  simp [State.onCore]

/-! ### A core whose queue is empty -/

theorem State.issueNext_quiet (s : State) (n : Nat) (h : (s.core n).quiet = true) : s.issueNext n = none := by
  simp only [CoreState.quiet, Bool.and_eq_true, List.isEmpty_iff, decide_eq_true_eq] at h
  unfold State.issueNext
  split
  · rfl
  · have : ¬ 2048 ≤ (s.core n).pc := by omega
    simp [h.1, this]

/-- A core with nothing to issue waits for no engine. -/
theorem State.noteWait_quiet (s : State) (n : Nat) (h : (s.core n).quiet = true) : s.noteWait n = s := by
  simp only [CoreState.quiet, Bool.and_eq_true, List.isEmpty_iff] at h
  unfold State.noteWait State.mediaWait
  simp [h.1]

theorem State.pump_quiet (s : State) (n : Nat) (h : (s.core n).quiet = true) : s.pump n = s := by
  unfold State.pump State.pumpN
  rw [s.issueNext_quiet n h]
  exact s.noteWait_quiet n h

/-! ### Waits and checks see a core, not how it is listed -/

theorem State.appending_setCore (s : State) (n : Nat) (q : List (List Slot)) (st : List Slot) (p x : Nat) :
    (s.setCore n { s.core n with staged := st, issueQ := q }).appending p x = s.appending p x := by
  unfold State.appending
  simp only [State.ctxsOf, State.setCore_ctxs]
  congr 1
  funext y
  congr 1
  congr 1
  funext m
  simp only [State.core_setCore]
  split
  · subst_vars; rfl
  · rfl

theorem State.polderOn_setCore (s : State) (n : Nat) (q : List (List Slot)) (st : List Slot) :
    (s.setCore n { s.core n with staged := st, issueQ := q }).polderOn n = s.polderOn n := by
  simp [State.polderOn]

theorem SlotOp.reads_queue (k : CoreState) (q : List (List Slot)) (st : List Slot) (c : CacheCfg) (o : SlotOp) :
    o.reads { k with staged := st, issueQ := q } c = o.reads k c := by cases o <;> rfl

theorem SlotOp.writes_queue (k : CoreState) (q : List (List Slot)) (st : List Slot) (c : CacheCfg) (o : SlotOp) :
    o.writes { k with staged := st, issueQ := q } c = o.writes k c := by cases o <;> rfl

theorem State.slotHeld_setCore (s : State) (n : Nat) (q : List (List Slot)) (st : List Slot) (x : Slot) :
    (s.setCore n { s.core n with staged := st, issueQ := q }).slotHeld n { s.core n with staged := st, issueQ := q } x
      = s.slotHeld n (s.core n) x := by
  unfold State.slotHeld CoreState.rangeBusy
  simp only [State.polderOn_setCore, SlotOp.reads_queue, SlotOp.writes_queue]
  rfl

theorem State.queueFull_setCore (s : State) (n : Nat) (q : List (List Slot)) (st : List Slot) (x : Slot) :
    (s.setCore n { s.core n with staged := st, issueQ := q }).queueFull n { s.core n with staged := st, issueQ := q } x
      = s.queueFull n (s.core n) x := by
  unfold State.queueFull
  simp only [State.polderOn_setCore]
  cases x.op <;> rfl

theorem State.slotWaits_setCore (s : State) (n : Nat) (q : List (List Slot)) (st : List Slot) (x : Slot) :
    (s.setCore n { s.core n with staged := st, issueQ := q }).slotWaits n { s.core n with staged := st, issueQ := q } x
      = s.slotWaits n (s.core n) x := by
  unfold State.slotWaits
  simp only [State.slotHeld_setCore, State.queueFull_setCore]
  rfl

theorem State.bundleWaits_setCore (s : State) (n : Nat) (q : List (List Slot)) (st : List Slot) (b : List Slot) :
    (s.setCore n { s.core n with staged := st, issueQ := q }).bundleWaits n b = s.bundleWaits n b := by
  unfold State.bundleWaits
  simp only [State.core_setCore_self]
  congr 1
  congr 1
  funext x
  exact s.slotWaits_setCore n q st x

theorem State.issuing_setCore (s : State) (n : Nat) (q : List (List Slot)) (st : List Slot) :
    (s.setCore n { s.core n with staged := st, issueQ := q }).issuing n = s.issuing n := by
  unfold State.issuing
  simp only [State.core_setCore_self, State.ctx_setCore]

/-- The state with a core's record listed, as it reads. -/
theorem State.setCore_self_core (s : State) (n m : Nat) : (s.setCore n (s.core n)).core m = s.core m := by
  rw [State.core_setCore]; split
  · subst_vars; rfl
  · rfl

theorem State.polderOn_listed (s : State) (n : Nat) : (s.setCore n (s.core n)).polderOn n = s.polderOn n := by
  simp [State.polderOn]

theorem State.coreCtx_listed (s : State) (n : Nat) : (s.setCore n (s.core n)).coreCtx n = s.coreCtx n := by
  simp [State.coreCtx]

theorem State.slotFault_listed (s : State) (n : Nat) (x : Slot) (on : Bool) :
    (s.setCore n (s.core n)).slotFault n x on = s.slotFault n x on := by
  obtain ⟨num, pred, pneg, op⟩ := x
  unfold State.slotFault
  simp only [State.core_setCore_self]
  cases op <;> first
    | rfl
    | (simp only [State.kvIssueFault, streamFault, counterFault, putFault, fabricFault, mediaFault,
        State.polderOn_listed, State.coreCtx_listed] <;> rfl)

theorem State.bundleFaults_listed (s : State) (n : Nat) (b : List Slot) :
    (s.setCore n (s.core n)).bundleFaults n b = s.bundleFaults n b := by
  unfold State.bundleFaults
  congr 1
  funext x
  unfold State.slotCause
  simp only [State.slotFault_listed, State.core_setCore_self]

/-! ### The issue of a bundle that arrives whole -/

/-- A bundle that neither waits nor faults takes effect as it arrives. -/
theorem State.stage_issue (s : State) (h : SlotAt) (op : SlotOp) (r : s.Ready h op)
    (hf : s.bundleFaults (coreOf h) [slotOf h op] = [])
    (hq : ((([slotOf h op].filter (fun x => (s.core (coreOf h)).guard x.pred x.pneg)).foldl (fun s' x =>
        s'.effect (coreOf h) (s.core (coreOf h)) (s.core (coreOf h)).pc x) (s.passed (coreOf h))).core
        (coreOf h)).quiet = true) :
    s.stage h op = ([slotOf h op].filter (fun x => (s.core (coreOf h)).guard x.pred x.pneg)).foldl (fun s' x =>
        s'.effect (coreOf h) (s.core (coreOf h)) (s.core (coreOf h)).pc x) (s.passed (coreOf h)) := by
  obtain ⟨hen, his, hst, hqu, hpc, hsl, hla, hfr⟩ := r
  generalize hn : coreOf h = n at *
  have hcn : h.core.toNat = n := hn
  have hctx : (s.core n).ctx.isNone = false := by
    cases hc : (s.core n).ctx with
    | none => simp [State.issuing, hc] at his
    | some c => rfl
  have hk : ({ s.core n with staged := [], issueQ := [] } : CoreState) = s.core n := by
    rw [← hst, ← hqu]
  unfold State.stage
  simp only [hcn, hen, hctx, hsl, hla, hst, hqu, putSlot, Bool.not_true, Bool.or_self, if_true,
    Bool.false_eq_true, if_false, List.nil_append]
  have hb : ({ num := h.slot.toNat, pred := h.pred, pneg := h.pneg, op := op } : Slot) = slotOf h op := rfl
  rw [hb]
  generalize hs1 : s.setCore n { s.core n with staged := [], issueQ := [[slotOf h op]] } = s1
  have hc1 : s1.core n = { s.core n with staged := [], issueQ := [[slotOf h op]] } := by rw [← hs1]; simp
  have hi1 : s1.issuing n = true := by rw [← hs1, State.issuing_setCore]; exact his
  have hw1 : s1.bundleWaits n [slotOf h op] = false := by rw [← hs1, State.bundleWaits_setCore]; exact hfr
  have hd1 : s1.onCore n (fun k => { k with issueQ := [] }) = s.setCore n (s.core n) := by
    rw [← hs1, State.onCore_setCore, hk]
  have hpc' : ¬ 2048 ≤ (s.core n).pc := by omega
  have hnext : s1.issueNext n = some ((s.setCore n (s.core n)).issueBundle n [slotOf h op]) := by
    unfold State.issueNext
    simp only [hi1, Bool.not_true, Bool.false_eq_true, if_false, hc1, hpc', hw1, hd1]
  have hissue : (s.setCore n (s.core n)).issueBundle n [slotOf h op]
      = ([slotOf h op].filter (fun x => (s.core n).guard x.pred x.pneg)).foldl (fun s' x =>
        s'.effect n (s.core n) (s.core n).pc x) (s.passed n) := by
    unfold State.issueBundle
    simp only [State.bundleFaults_listed, hf, List.isEmpty_nil, if_true]
    unfold State.applyBundle
    simp only [State.core_setCore_self, State.onCore_setCore]
    rw [if_pos (by simpa using List.length_filter_le (fun x => (s.core n).guard x.pred x.pneg) [slotOf h op])]
    rfl
  unfold State.pump
  rw [hc1]
  simp only [List.length_cons, List.length_nil]
  rw [State.pumpN, hnext, hissue]
  simp only []
  rw [State.pumpN, State.issueNext_quiet _ _ hq]
  exact State.noteWait_quiet _ _ hq

/-- A bundle whose one slot acts. -/
theorem State.stage_acts (s : State) (h : SlotAt) (op : SlotOp) (a : s.Acts h op)
    (hq : (((s.passed (coreOf h)).effect (coreOf h) (s.core (coreOf h)) (s.core (coreOf h)).pc (slotOf h op)).core
      (coreOf h)).quiet = true) :
    s.stage h op
      = (s.passed (coreOf h)).effect (coreOf h) (s.core (coreOf h)) (s.core (coreOf h)).pc (slotOf h op) := by
  have hg : (s.core (coreOf h)).guard (slotOf h op).pred (slotOf h op).pneg = true := a.guard
  have hf : s.bundleFaults (coreOf h) [slotOf h op] = [] := by
    unfold State.bundleFaults State.slotCause clashes
    simp [hg, a.legal]
  have hfil : [slotOf h op].filter (fun x => (s.core (coreOf h)).guard x.pred x.pneg) = [slotOf h op] := by
    simp [hg]
  have := s.stage_issue h op a.toReady hf
  rw [hfil] at this
  exact this hq

/-! ### What `Gives` takes -/

theorem CoreState.quiet_setG (k : CoreState) (r : BitVec 6) (v : W64) : (k.setG r v).quiet = k.quiet := by
  unfold CoreState.setG; split <;> rfl

theorem CoreState.quiet_setP (k : CoreState) (r : BitVec 4) (v : Bool) : (k.setP r v).quiet = k.quiet := by
  unfold CoreState.setP; split <;> rfl

/-- A ready core is quiet once its bundle has issued. -/
theorem State.Ready.quiet_next {s : State} {h : SlotAt} {op : SlotOp} (r : s.Ready h op) :
    (s.core (coreOf h)).next.quiet = true := by
  have := r.inStore
  simp [CoreState.quiet, CoreState.next, r.queue]
  omega

@[simp] theorem State.core_passed (s : State) (n : Nat) : (s.passed n).core n = (s.core n).next := by
  simp [State.passed, State.coreBump]

/-- The state in which slots act is the given one but for its cores and the count. -/
theorem State.passed_onCore (s : State) (n : Nat) (f : CoreState → CoreState) :
    (s.passed n).onCore n f = { s with cores := ((s.passed n).onCore n f).cores }.coreBump n 4 2 1 := by
  simp [State.passed, State.coreBump, State.bump, State.bumpW, State.onCore, State.setCore]

theorem State.issued_more (s : State) (n : Nat) (f : CoreState → CoreState) (more : State → State)
    (hm : ∀ u, (more u).cores = u.cores) :
    s.Issued (more ((s.passed n).onCore n f)) n (f (s.core n).next) more := by
  have hcore : ∀ m, (more ((s.passed n).onCore n f)).core m = ((s.passed n).onCore n f).core m := by
    intro m; simp [State.core, hm]
  refine ⟨?_, ?_, ?_⟩
  · rw [hcore]; simp
  · intro m hne
    have : n ≠ m := fun e => hne e.symm
    rw [hcore]; simp [State.passed, State.coreBump, State.core_onCore, this]
  · rw [hm]
    exact congrArg more (s.passed_onCore n f)

/-- A slot that changes its own core and, beside that, what `more` says. -/
theorem gives_acts {s : State} {h : SlotAt} {op : SlotOp} {i : Instr} (f : CoreState → CoreState) (more : State → State)
    (a : s.Acts h op) (hi : exec i s = .next (s.stage h op))
    (he : (s.passed (coreOf h)).effect (coreOf h) (s.core (coreOf h)) (s.core (coreOf h)).pc (slotOf h op)
      = more ((s.passed (coreOf h)).onCore (coreOf h) f))
    (hm : ∀ u, (more u).cores = u.cores) (hq : (f (s.core (coreOf h)).next).quiet = true) :
    Gives i s h (f (s.core (coreOf h)).next) more := by
  have hcore : ∀ u : State, ∀ m, (more u).core m = u.core m := by intro u m; simp [State.core, hm]
  refine ⟨_, hi.trans (congrArg _ (s.stage_acts h op a ?_)), ?_⟩
  · rw [he, hcore]; simpa using hq
  · rw [he]; exact s.issued_more _ f more hm

/-- A slot that writes a general register. -/
theorem gives_reg {s : State} {h : SlotAt} {op : SlotOp} {i : Instr} (d : BitVec 6) (v : W64) (a : s.Acts h op)
    (hi : exec i s = .next (s.stage h op))
    (he : (s.passed (coreOf h)).effect (coreOf h) (s.core (coreOf h)) (s.core (coreOf h)).pc (slotOf h op)
      = (s.passed (coreOf h)).putReg (coreOf h) d v) :
    Gives i s h ((s.core (coreOf h)).next.setG d v) :=
  gives_acts (fun k => k.setG d v) id a hi he (fun _ => rfl) (by simpa [CoreState.quiet_setG] using a.quiet_next)

/-- A slot that writes a predicate. -/
theorem gives_pred {s : State} {h : SlotAt} {op : SlotOp} {i : Instr} (d : BitVec 4) (v : Bool) (a : s.Acts h op)
    (hi : exec i s = .next (s.stage h op))
    (he : (s.passed (coreOf h)).effect (coreOf h) (s.core (coreOf h)) (s.core (coreOf h)).pc (slotOf h op)
      = (s.passed (coreOf h)).putPred (coreOf h) d v) :
    Gives i s h ((s.core (coreOf h)).next.setP d v) :=
  gives_acts (fun k => k.setP d v) id a hi he (fun _ => rfl) (by simpa [CoreState.quiet_setP] using a.quiet_next)

/-! ### Slot commands and what they begin -/

/-- A command that is a slot stages it. -/
theorem exec_slot {i : Instr} {h : SlotAt} {op : SlotOp} (e : slotCommand i = some (h, op)) (s : State) :
    exec i s = .next (s.stage h op) := by
  cases i <;> simp [slotCommand] at e <;> obtain ⟨rfl, rfl⟩ := e <;> rfl

/-- The state in which slots act lists the issuing core. -/
theorem State.passed_listed (s : State) (n : Nat) : (s.passed n).onCore n id = s.passed n := by
  show (s.passed n).setCore n ((s.passed n).core n) = _
  rw [State.core_passed]
  simp [State.passed, State.onCore, State.setCore, State.coreBump, State.bump, State.bumpW, tblPut_tblPut]

/-- A slot without an effect of its own. -/
theorem gives_pass {s : State} {h : SlotAt} {op : SlotOp} {i : Instr} (a : s.Acts h op)
    (hi : exec i s = .next (s.stage h op))
    (he : (s.passed (coreOf h)).effect (coreOf h) (s.core (coreOf h)) (s.core (coreOf h)).pc (slotOf h op)
      = s.passed (coreOf h)) : Gives i s h (s.core (coreOf h)).next :=
  gives_acts id id a hi (he.trans (s.passed_listed _).symm) (fun _ => rfl) a.quiet_next

/-- Marks and a core's change do not meet. -/
theorem State.marks_onCore (l : List (Nat × Nat)) (n m : Nat) (f : CoreState → CoreState) (s : State) :
    l.foldl (fun s e => s.mark (coreIndex n e.1) e.2) (s.onCore m f)
      = (l.foldl (fun s e => s.mark (coreIndex n e.1) e.2) s).onCore m f := by
  induction l generalizing s with
  | nil => rfl
  | cons e r ih => exact ih (s.mark (coreIndex n e.1) e.2)

theorem State.marks_cores (l : List (Nat × Nat)) (n : Nat) (s : State) :
    (l.foldl (fun s e => s.mark (coreIndex n e.1) e.2) s).cores = s.cores := by
  induction l generalizing s with
  | nil => rfl
  | cons e r ih => exact (ih (s.mark (coreIndex n e.1) e.2)).trans (by simp [State.mark])

theorem State.marks_nextId (l : List (Nat × Nat)) (n : Nat) (s : State) :
    (l.foldl (fun s e => s.mark (coreIndex n e.1) e.2) s).nextId = s.nextId := by
  induction l generalizing s with
  | nil => rfl
  | cons e r ih => exact (ih (s.mark (coreIndex n e.1) e.2)).trans (by simp [State.mark])

/-- A slot that begins an operation under a tag. -/
theorem gives_begin {s : State} {h : SlotAt} {o : SlotOp} {i : Instr} (tag : BitVec 4) (op : Op) (a : s.Acts h o)
    (hi : exec i s = .next (s.stage h o))
    (he : (s.passed (coreOf h)).effect (coreOf h) (s.core (coreOf h)) (s.core (coreOf h)).pc (slotOf h o)
      = (s.passed (coreOf h)).begin (coreOf h) (slotOf h o) (s.core (coreOf h)).pc (some tag) op
        (o.reads (s.core (coreOf h)) ((s.passed (coreOf h)).cacheCfg ((s.passed (coreOf h)).polderOn (coreOf h))))
        (o.writes (s.core (coreOf h)) ((s.passed (coreOf h)).cacheCfg ((s.passed (coreOf h)).polderOn (coreOf h))))) :
    Gives i s h ((s.core (coreOf h)).next.holding (s.begun h o (some tag.toNat) op)) (State.starts (coreOf h) op) := by
  have hx : (s.passed (coreOf h)).nextId = s.nextId := by simp [State.passed, State.coreBump]
  refine gives_acts (fun k => k.holding (s.begun h o (some tag.toNat) op)) (State.starts (coreOf h) op) a hi ?_
    (fun u => State.marks_cores _ _ u) ?_
  · rw [he]
    simp only [State.begin, State.starts, State.numbered, hx, State.marks_onCore, State.marks_nextId]
    simp only [State.onCore_nextId, State.marks_nextId, hx]
    rfl
  · exact a.quiet_next

end Sys2Proof.Machine
end

