-- ==== Sys2Proof/Laws/Keeps.lean ====
section
/-! SUPPORT. What every operation of the model keeps: the factory record, and the canonical form of memory, of its check
storage, of the work counters and of the tables of cores and contexts. One lemma an operation, in the order of the operations. -/

namespace Sys2Proof.Machine

/-- What every operation keeps. -/
structure Keeps (s t : State) : Prop where
  part : t.part = s.part
  mem : Memory.wf s.mem = true → Memory.wf t.mem = true
  check : Store.wf s.check = true → Store.wf t.check = true
  counters : Store.wf s.counters = true → Store.wf t.counters = true
  cores : rising s.cores = true → rising t.cores = true
  ctxs : rising s.ctxs = true → rising t.ctxs = true

theorem Keeps.refl (s : State) : Keeps s s := ⟨rfl, id, id, id, id, id⟩

theorem Keeps.trans {s t u : State} (h : Keeps s t) (k : Keeps t u) : Keeps s u :=
  ⟨k.part.trans h.part, k.mem ∘ h.mem, k.check ∘ h.check, k.counters ∘ h.counters, k.cores ∘ h.cores, k.ctxs ∘ h.ctxs⟩

/-- An operation that leaves these fields as they were. -/
theorem Keeps.of_eq {s u t : State} (hp : t.part = u.part) (hm : t.mem = u.mem) (hz : t.check = u.check)
    (hc : t.counters = u.counters) (hk : t.cores = u.cores) (hx : t.ctxs = u.ctxs) (h : Keeps s u) : Keeps s t :=
  ⟨hp.trans h.part, fun c => hm ▸ h.mem c, fun c => hz ▸ h.check c, fun c => hc ▸ h.counters c, fun c => hk ▸ h.cores c, fun c => hx ▸ h.ctxs c⟩

/-- An operation that keeps each field's form. -/
theorem Keeps.of_forms {s u t : State} (hp : t.part = u.part) (hm : Memory.wf u.mem = true → Memory.wf t.mem = true)
    (hz : Store.wf u.check = true → Store.wf t.check = true)
    (hc : Store.wf u.counters = true → Store.wf t.counters = true) (hk : rising u.cores = true → rising t.cores = true)
    (hx : rising u.ctxs = true → rising t.ctxs = true) (h : Keeps s u) : Keeps s t :=
  ⟨hp.trans h.part, hm ∘ h.mem, hz ∘ h.check, hc ∘ h.counters, hk ∘ h.cores, hx ∘ h.ctxs⟩

theorem Keeps.of_pair {α : Type} {s t : State} {v : State × α} {y : α} (e : v = (t, y)) (h : Keeps s v.1) : Keeps s t := by
  subst e; exact h

theorem Keeps.of_some {s t : State} {v : Option State} (e : v = some t) (h : ∀ t, v = some t → Keeps s t) : Keeps s t :=
  h t e

theorem Keeps.ite {s t u : State} {c : Prop} [Decidable c] (ht : c → Keeps s t) (hu : ¬c → Keeps s u) :
    Keeps s (if c then t else u) := by
  split
  · exact ht ‹_›
  · exact hu ‹_›

/-- A fold of operations. -/
theorem Keeps.foldl {α : Type} {s : State} {f : State → α → State} (hf : ∀ u x, Keeps s u → Keeps s (f u x)) :
    ∀ (l : List α) {u : State}, Keeps s u → Keeps s (l.foldl f u)
  | [], _, h => h
  | x :: r, u, h => Keeps.foldl hf r (hf u x h)

/-- A fold that carries more beside the state. -/
theorem Keeps.foldl1 {α β : Type} {s : State} {f : State × β → α → State × β}
    (hf : ∀ u x, Keeps s u.1 → Keeps s (f u x).1) :
    ∀ (l : List α) {u : State × β}, Keeps s u.1 → Keeps s (l.foldl f u).1
  | [], _, h => h
  | x :: r, u, h => Keeps.foldl1 hf r (hf u x h)

/-- The same, with the next value under a name of its own: the kernel then compares no two projections. -/
theorem Keeps.foldl1_eq {α β : Type} {s : State} {f : State × β → α → State × β}
    (hf : ∀ u x v, f u x = v → Keeps s u.1 → Keeps s v.1) :
    ∀ (l : List α) {u : State × β}, Keeps s u.1 → Keeps s (l.foldl f u).1
  | [], _, h => h
  | x :: r, u, h => Keeps.foldl1_eq hf r (hf u x _ rfl h)

/-- A fold over a structure that holds the state. -/
theorem Keeps.foldlOn {α β : Type} {s : State} (g : β → State) {f : β → α → β}
    (hf : ∀ u x, Keeps s (g u) → Keeps s (g (f u x))) :
    ∀ (l : List α) {u : β}, Keeps s (g u) → Keeps s (g (l.foldl f u))
  | [], _, h => h
  | x :: r, u, h => Keeps.foldlOn g hf r (hf u x h)

theorem rising_cons {α : Type} (a : Nat) (x : α) (t : List (Nat × α)) :
    rising ((a, x) :: t) = true ↔ (∀ p ∈ t, a < p.1) ∧ rising t = true := by
  induction t generalizing a x with
  | nil => simp [rising]
  | cons y r ih =>
    obtain ⟨b, v⟩ := y
    have e : rising ((a, x) :: (b, v) :: r) = (decide (a < b) && rising ((b, v) :: r)) := rfl
    rw [e, Bool.and_eq_true, decide_eq_true_eq]
    constructor
    · rintro ⟨h, hr⟩
      refine ⟨fun p hp => ?_, hr⟩
      rcases List.mem_cons.1 hp with rfl | hp
      · exact h
      · exact lt_trans h (((ih b v).1 hr).1 p hp)
    · rintro ⟨h, hr⟩
      exact ⟨h (b, v) List.mem_cons_self, hr⟩

theorem mem_tblPut {α : Type} {t : List (Nat × α)} {k : Nat} {x : α} :
    ∀ p ∈ tblPut t k x, p.1 = k ∨ p ∈ t := by
  induction t with
  | nil => intro p hp; simp only [tblPut, List.mem_singleton] at hp; exact Or.inl (by rw [hp])
  | cons y r ih =>
    obtain ⟨a, v⟩ := y
    intro p hp
    simp only [tblPut] at hp
    split at hp
    · rcases List.mem_cons.1 hp with rfl | hp
      · exact Or.inl rfl
      · exact Or.inr hp
    · split at hp
      · rcases List.mem_cons.1 hp with rfl | hp
        · exact Or.inl rfl
        · exact Or.inr (List.mem_cons_of_mem _ hp)
      · rcases List.mem_cons.1 hp with rfl | hp
        · exact Or.inr List.mem_cons_self
        · exact (ih p hp).imp id (List.mem_cons_of_mem _)

/-- A table's numbers still rise once a record is put under a number. -/
theorem rising_tblPut {α : Type} (t : List (Nat × α)) (k : Nat) (x : α) (h : rising t = true) :
    rising (tblPut t k x) = true := by
  induction t with
  | nil => rfl
  | cons y r ih =>
    obtain ⟨a, v⟩ := y
    obtain ⟨ha, hr⟩ := (rising_cons a v r).1 h
    simp only [tblPut]
    split
    · rename_i hk
      refine (rising_cons _ _ _).2 ⟨fun p hp => ?_, h⟩
      rcases List.mem_cons.1 hp with rfl | hp
      · exact hk
      · exact lt_trans hk (ha p hp)
    · split
      · rename_i hk; subst hk; exact (rising_cons _ _ _).2 ⟨ha, hr⟩
      · rename_i h1 h2
        refine (rising_cons _ _ _).2 ⟨fun p hp => ?_, ih hr⟩
        rcases mem_tblPut p hp with e | hp
        · omega
        · exact ha p hp

/-- A table's numbers still rise once its records are changed one by one. -/
theorem rising_map {α : Type} (f : Nat × α → α) (t : List (Nat × α)) (h : rising t = true) :
    rising (t.map (fun x => (x.1, f x))) = true := by
  induction t with
  | nil => rfl
  | cons y r ih =>
    obtain ⟨a, v⟩ := y
    obtain ⟨ha, hr⟩ := (rising_cons a v r).1 h
    refine (rising_cons _ _ _).2 ⟨fun p hp => ?_, ih hr⟩
    obtain ⟨q, hq, rfl⟩ := List.mem_map.1 hp
    exact ha q hq

section Operations

variable {s₀ s : State}

theorem State.setCore_keeps (h : Keeps s₀ s) (n : Nat) (c : CoreState) : Keeps s₀ (s.setCore n c) :=
  Keeps.of_forms (u := s) rfl id id id (rising_tblPut _ n c) id h

theorem State.setCtx_keeps (h : Keeps s₀ s) (n : Nat) (c : Ctx) : Keeps s₀ (s.setCtx n c) :=
  Keeps.of_forms (u := s) rfl id id id id (rising_tblPut _ n c) h

end Operations

end Sys2Proof.Machine
end

