-- ==== Sys2Proof/Laws/KeepsMemory.lean ====
section
/-! SUPPORT. What the operations on memory, the cache's structures, contexts and flags keep (`Keeps`). -/

namespace Sys2Proof.Machine

/-! ### Ops -/

theorem State.onCore_keeps {s₀ : State} {s : State} (h : Keeps s₀ s) (n : ℕ) (f : CoreState → CoreState) :
    Keeps s₀ (State.onCore s n f) := by
  unfold State.onCore
  apply State.setCore_keeps
  with_reducible assumption

theorem State.onCtx_keeps {s₀ : State} {s : State} (h : Keeps s₀ s) (n : ℕ) (f : Ctx → Ctx) :
    Keeps s₀ (State.onCtx s n f) := by
  unfold State.onCtx
  apply State.setCtx_keeps
  with_reducible assumption

theorem State.setPolder_keeps {s₀ : State} {s : State} (h : Keeps s₀ s) (n : ℕ) (p : Polder) :
    Keeps s₀ (State.setPolder s n p) := by
  unfold State.setPolder
  refine Keeps.of_eq (u := s) rfl rfl rfl rfl rfl rfl ?_
  with_reducible assumption

theorem State.onPolder_keeps {s₀ : State} {s : State} (h : Keeps s₀ s) (n : ℕ) (f : Polder → Polder) :
    Keeps s₀ (State.onPolder s n f) := by
  unfold State.onPolder
  apply State.setPolder_keeps
  with_reducible assumption

theorem State.setEngine_keeps {s₀ : State} {s : State} (h : Keeps s₀ s) (n : ℕ) (e : Engine) :
    Keeps s₀ (State.setEngine s n e) := by
  unfold State.setEngine
  refine Keeps.of_eq (u := s) rfl rfl rfl rfl rfl rfl ?_
  with_reducible assumption

theorem State.setPort_keeps {s₀ : State} {s : State} (h : Keeps s₀ s) (n : ℕ) (p : Port) :
    Keeps s₀ (State.setPort s n p) := by
  unfold State.setPort
  refine Keeps.of_eq (u := s) rfl rfl rfl rfl rfl rfl ?_
  with_reducible assumption

theorem State.onPort_keeps {s₀ : State} {s : State} (h : Keeps s₀ s) (n : ℕ) (f : Port → Port) :
    Keeps s₀ (State.onPort s n f) := by
  unfold State.onPort
  apply State.setPort_keeps
  with_reducible assumption

theorem State.setSession_keeps {s₀ : State} {s : State} (h : Keeps s₀ s) (n : ℕ) (x : Session) :
    Keeps s₀ (State.setSession s n x) := by
  unfold State.setSession
  refine Keeps.of_eq (u := s) rfl rfl rfl rfl rfl rfl ?_
  with_reducible assumption

theorem State.usedFree_keeps {s₀ : State} {s : State} (h : Keeps s₀ s) :
    Keeps s₀ (State.usedFree s) := by
  unfold State.usedFree
  refine Keeps.of_eq (u := s) rfl rfl rfl rfl rfl rfl ?_
  with_reducible assumption

theorem State.setEntry_keeps {s₀ : State} {s : State} (h : Keeps s₀ s) (index : ℕ) (sub : ℕ) (v : ℕ) :
    Keeps s₀ (State.setEntry s index sub v) := by
  unfold State.setEntry
  refine Keeps.of_eq (u := s) rfl rfl rfl rfl rfl rfl ?_
  with_reducible assumption

theorem State.mark_keeps {s₀ : State} {s : State} (h : Keeps s₀ s) (index : ℕ) (sub : ℕ) :
    Keeps s₀ (State.mark s index sub) := by
  unfold State.mark
  apply State.setEntry_keeps
  with_reducible assumption

theorem State.setKept_keeps {s₀ : State} {s : State} (h : Keeps s₀ s) (index : ℕ) (sub : ℕ) (v : ℕ) :
    Keeps s₀ (State.setKept s index sub v) := by
  unfold State.setKept
  refine Keeps.of_eq (u := s) rfl rfl rfl rfl rfl rfl ?_
  with_reducible assumption

theorem State.bumpW_keeps {s₀ : State} {s : State} (h : Keeps s₀ s) (w : ℕ) (index : ℕ) (sub : ℕ) (n : ℕ) :
    Keeps s₀ (State.bumpW s w index sub n) := by
  unfold State.bumpW
  extract_lets x1
  clear_value x1
  refine Keeps.of_eq (u := s) rfl rfl rfl rfl rfl rfl ?_
  with_reducible assumption

theorem State.bump_keeps {s₀ : State} {s : State} (h : Keeps s₀ s) (index : ℕ) (sub : ℕ) (n : ℕ) :
    Keeps s₀ (State.bump s index sub n) := by
  unfold State.bump
  split
  · with_reducible assumption
  · apply State.bumpW_keeps
    with_reducible assumption

theorem State.bump32_keeps {s₀ : State} {s : State} (h : Keeps s₀ s) (index : ℕ) (sub : ℕ) :
    Keeps s₀ (State.bump32 s index sub) := by
  unfold State.bump32
  apply State.bumpW_keeps
  with_reducible assumption

theorem State.send_keeps {s₀ : State} {s : State} (h : Keeps s₀ s) (x : Tx) :
    Keeps s₀ (State.send s x) := by
  unfold State.send
  extract_lets x1
  have h1 : Keeps s₀ x1 := by
    unfold x1
    refine Keeps.of_eq (u := s) rfl rfl rfl rfl rfl rfl ?_
    with_reducible assumption
  clear_value x1
  split
  · split
    · apply State.bump_keeps
      apply State.bump_keeps
      with_reducible assumption
    · with_reducible assumption
  · with_reducible assumption

theorem State.event_keeps {s₀ : State} {s : State} (h : Keeps s₀ s) (index : ℕ) (b : ℕ) (n : ℕ) :
    Keeps s₀ (State.event s index b n) := by
  unfold State.event
  split
  · with_reducible assumption
  · refine Keeps.of_eq (u := s) rfl rfl rfl rfl rfl rfl ?_
    with_reducible assumption

theorem State.corrected_keeps {s₀ : State} {s : State} (h : Keeps s₀ s) (cw : ℕ) (syms : List ℕ) :
    Keeps s₀ (State.corrected s cw syms) := by
  unfold State.corrected
  extract_lets x1 x2 x3 x4 x5 x6 x7 x8
  clear_value x1
  clear_value x2
  clear_value x3
  clear_value x4
  have h5 : Keeps s₀ x5 := by
    unfold x5
    apply State.bump_keeps
    apply State.bump_keeps
    with_reducible assumption
  clear_value x5
  have h6 : Keeps s₀ x6 := by
    unfold x6
    apply State.setEntry_keeps
    apply State.setEntry_keeps
    with_reducible assumption
  clear_value x6
  have h7 : Keeps s₀ x7 := by
    unfold x7
    apply State.setEntry_keeps
    with_reducible assumption
  clear_value x7
  have h8 : Keeps s₀ x8 := by
    unfold x8
    apply State.event_keeps
    with_reducible assumption
  clear_value x8
  split
  · apply State.event_keeps
    with_reducible assumption
  · with_reducible assumption

theorem State.poisoned_keeps {s₀ : State} {s : State} (h : Keeps s₀ s) (cw : ℕ) :
    Keeps s₀ (State.poisoned s cw) := by
  unfold State.poisoned
  extract_lets x1 x2
  clear_value x1
  have h2 : Keeps s₀ x2 := by
    unfold x2
    apply State.setEntry_keeps
    apply State.bumpW_keeps
    with_reducible assumption
  clear_value x2
  apply State.event_keeps
  with_reducible assumption

theorem State.readWord_keeps {s₀ : State} {s : State} (h : Keeps s₀ s) (r : Requester) (cw : ℕ) :
    Keeps s₀ (State.readWord s r cw).state := by
  unfold State.readWord
  extract_lets x1 x2 x3 x4 x5 x6 x7
  clear_value x1
  have h2 : Keeps s₀ x2 := by
    unfold x2
    apply State.bump_keeps
    apply State.bump_keeps
    with_reducible assumption
  clear_value x2
  clear_value x3
  clear_value x4
  have h5 : Keeps s₀ x5 := by
    unfold x5
    apply State.usedFree_keeps
    with_reducible assumption
  clear_value x5
  clear_value x6
  clear_value x7
  split
  · with_reducible assumption
  · split
    · dsimp only
      apply State.corrected_keeps
      with_reducible assumption
    · split
      · dsimp only
        apply State.poisoned_keeps
        with_reducible assumption
      · split
        · dsimp only
          apply State.poisoned_keeps
          with_reducible assumption
        · dsimp only
          apply State.corrected_keeps
          apply State.usedFree_keeps
          apply State.usedFree_keeps
          with_reducible assumption

theorem State.writeWord_keeps {s₀ : State} {s : State} (h : Keeps s₀ s) (r : Requester) (cw : ℕ) (data : List Byte) :
    Keeps s₀ (State.writeWord s r cw data) := by
  unfold State.writeWord
  extract_lets x1 x2 x3
  clear_value x1
  have h2 : Keeps s₀ x2 := by
    unfold x2
    apply State.bump_keeps
    apply State.bump_keeps
    with_reducible assumption
  clear_value x2
  clear_value x3
  refine Keeps.of_forms (u := x2) rfl (Store.wf_putCells _ _ _) (Store.wf_putCells _ _ _) id id id ?_
  with_reducible assumption

theorem State.burst_keeps {s₀ : State} {s : State} (h : Keeps s₀ s) (a : ℕ) :
    Keeps s₀ (State.burst s a) := by
  unfold State.burst
  apply State.bump_keeps
  with_reducible assumption

theorem State.readView_keeps {s₀ : State} {s : State} (h : Keeps s₀ s) (r : Requester) (addr : W64) (n : ℕ) :
    Keeps s₀ (State.readView s r addr n).state := by
  unfold State.readView
  extract_lets x1 x2 x3
  clear_value x1
  clear_value x2
  have h3 : Keeps s₀ x3.1 := by
    unfold x3
    refine Keeps.foldl1 (fun x4 x5 x6 => ?_) _ ?_
    · split
      · with_reducible assumption
      · extract_lets x7 x8
        have h7 : Keeps s₀ x7 := by
          unfold x7
          split
          · apply State.burst_keeps
            with_reducible assumption
          · with_reducible assumption
        clear_value x7
        have h8 : Keeps s₀ x8.state := by
          unfold x8
          apply State.readWord_keeps
          with_reducible assumption
        clear_value x8
        with_reducible assumption
    · with_reducible assumption
  clear_value x3
  with_reducible assumption

theorem State.writeView_keeps {s₀ : State} {s : State} (h : Keeps s₀ s) (r : Requester) (addr : W64)
    (bs : List Byte) :
    Keeps s₀ (State.writeView s r addr bs) := by
  unfold State.writeView
  extract_lets x1 x2
  clear_value x1
  clear_value x2
  refine Keeps.foldl (fun x3 x4 x5 => ?_) _ ?_
  · split
    · with_reducible assumption
    · extract_lets x6 x7
      have h6 : Keeps s₀ x6 := by
        unfold x6
        split
        · apply State.burst_keeps
          with_reducible assumption
        · with_reducible assumption
      clear_value x6
      clear_value x7
      apply State.writeWord_keeps
      with_reducible assumption
  · with_reducible assumption

/-! ### Flags -/

theorem State.tally_keeps {s₀ : State} {s : State} (h : Keeps s₀ s) (p : ℕ) (t : Tally) :
    Keeps s₀ (State.tally s p t) := by
  unfold State.tally
  extract_lets x1
  clear_value x1
  apply State.event_keeps
  apply State.event_keeps
  apply State.event_keeps
  apply State.event_keeps
  apply State.event_keeps
  apply State.event_keeps
  with_reducible assumption

theorem State.sendNotice_keeps {s₀ : State} {s : State} (h : Keeps s₀ s) (n : W16) (edition : ℕ) (index : ℕ)
    (flags : W32) :
    Keeps s₀ (State.sendNotice s n edition index flags) := by
  unfold State.sendNotice
  extract_lets x1
  clear_value x1
  apply State.send_keeps
  with_reducible assumption

theorem State.notify_keeps {s₀ : State} {s : State} (h : Keeps s₀ s) (index : ℕ) :
    Keeps s₀ (State.notify s index) := by
  unfold State.notify
  refine Keeps.foldl (fun x1 x2 x3 => ?_) _ ?_
  · apply State.sendNotice_keeps
    with_reducible assumption
  · with_reducible assumption

theorem State.postEvent_keeps {s₀ : State} {s : State} (h : Keeps s₀ s) (index : ℕ) (b : ℕ) (n : ℕ) :
    Keeps s₀ (State.postEvent s index b n) := by
  unfold State.postEvent
  extract_lets x1 x2 x3 x4
  clear_value x1
  have h2 : Keeps s₀ x2 := by
    unfold x2
    apply State.bumpW_keeps
    apply State.setEntry_keeps
    with_reducible assumption
  clear_value x2
  clear_value x3
  have h4 : Keeps s₀ x4 := by
    unfold x4
    split
    · refine Keeps.of_eq (u := x2) rfl rfl rfl rfl rfl rfl ?_
      with_reducible assumption
    · with_reducible assumption
  clear_value x4
  split
  · apply State.notify_keeps
    with_reducible assumption
  · with_reducible assumption

theorem State.postAll_keeps {s₀ : State} {s : State} (h : Keeps s₀ s) :
    Keeps s₀ (State.postAll s) := by
  unfold State.postAll
  refine Keeps.foldl (fun x1 x2 x3 => ?_) _ ?_
  · apply State.postEvent_keeps
    with_reducible assumption
  · refine Keeps.of_eq (u := s) rfl rfl rfl rfl rfl rfl ?_
    with_reducible assumption

/-! ### Cache -/

theorem State.home_keeps {s₀ : State} {s : State} (h : Keeps s₀ s) (p : ℕ) :
    Keeps s₀ (State.home s p).state := by
  unfold State.home
  with_reducible assumption

theorem Home.fetch_keeps {s₀ : State} (h' : Home) (hh' : Keeps s₀ h'.state) (a : W64) :
    Keeps s₀ (Home.fetch h' a).state := by
  unfold Home.fetch
  split
  · extract_lets x1 x2 x3
    clear_value x1
    have h2 : Keeps s₀ x2 := by
      unfold x2
      split
      · with_reducible assumption
      · apply State.burst_keeps
        with_reducible assumption
    clear_value x2
    have h3 : Keeps s₀ x3.state := by
      unfold x3
      apply State.readWord_keeps
      with_reducible assumption
    clear_value x3
    split
    · with_reducible assumption
    · with_reducible assumption
  · with_reducible assumption

theorem Home.fetchAll_keeps {s₀ : State} (h' : Home) (hh' : Keeps s₀ h'.state) (as : List W64) :
    Keeps s₀ (Home.fetchAll h' as).state := by
  unfold Home.fetchAll
  refine Keeps.foldlOn Home.state (fun x1 x2 x3 => ?_) _ ?_
  · apply Home.fetch_keeps
    with_reducible assumption
  · with_reducible assumption

theorem Home.put_keeps {s₀ : State} (h' : Home) (hh' : Keeps s₀ h'.state) (a : W64) (bs : List Byte) :
    Keeps s₀ (Home.put h' a bs).state := by
  unfold Home.put
  extract_lets x1
  have h1 : Keeps s₀ x1.state := by
    unfold x1
    split
    · with_reducible assumption
    · apply Home.fetch_keeps
      with_reducible assumption
  clear_value x1
  split
  · with_reducible assumption
  · with_reducible assumption

theorem Home.poke_keeps {s₀ : State} (h' : Home) (hh' : Keeps s₀ h'.state) (a : W64) (n : ℕ) (v : ℕ) :
    Keeps s₀ (Home.poke h' a n v).state := by
  unfold Home.poke
  apply Home.put_keeps
  with_reducible assumption

theorem Home.setSeqEntry_keeps {s₀ : State} (h' : Home) (hh' : Keeps s₀ h'.state) (q : ℕ) (e : SeqEntry) :
    Keeps s₀ (Home.setSeqEntry h' q e).state := by
  unfold Home.setSeqEntry
  apply Home.put_keeps
  with_reducible assumption

theorem Home.setPtEntry_keeps {s₀ : State} (h' : Home) (hh' : Keeps s₀ h'.state) (a : W64) (page : Option ℕ) :
    Keeps s₀ (Home.setPtEntry h' a page).state := by
  unfold Home.setPtEntry
  apply Home.poke_keeps
  with_reducible assumption

theorem Home.setMeta_keeps {s₀ : State} (h' : Home) (hh' : Keeps s₀ h'.state) (n : ℕ) (refs : ℕ) (pins : ℕ) :
    Keeps s₀ (Home.setMeta h' n refs pins).state := by
  unfold Home.setMeta
  apply Home.poke_keeps
  with_reducible assumption

theorem Home.push_keeps {s₀ : State} (h' : Home) (hh' : Keeps s₀ h'.state) (n : ℕ) :
    Keeps s₀ (Home.push h' n).state := by
  unfold Home.push
  extract_lets x1
  have h1 : Keeps s₀ x1.state := by
    unfold x1
    apply Home.poke_keeps
    with_reducible assumption
  clear_value x1
  with_reducible assumption

theorem Home.pop_keeps {s₀ : State} (h' : Home) (hh' : Keeps s₀ h'.state) :
    Keeps s₀ (Home.pop h').1.state := by
  unfold Home.pop
  extract_lets x1 x2 x3
  clear_value x1
  have h2 : Keeps s₀ x2.state := by
    unfold x2
    apply Home.fetch_keeps
    with_reducible assumption
  clear_value x2
  clear_value x3
  dsimp only
  apply Home.fetch_keeps
  with_reducible assumption

theorem Home.lowered_keeps {s₀ : State} (h' : Home) (hh' : Keeps s₀ h'.state) (n : ℕ) (refs : ℕ) (pins : ℕ) :
    Keeps s₀ (Home.lowered h' n refs pins).state := by
  unfold Home.lowered
  extract_lets x1
  have h1 : Keeps s₀ x1.state := by
    unfold x1
    apply Home.setMeta_keeps
    with_reducible assumption
  clear_value x1
  split
  · apply Home.push_keeps
    with_reducible assumption
  · with_reducible assumption

theorem Home.dropRef_keeps {s₀ : State} (h' : Home) (hh' : Keeps s₀ h'.state) (n : ℕ) :
    Keeps s₀ (Home.dropRef h' n).state := by
  unfold Home.dropRef
  extract_lets x1
  have h1 : Keeps s₀ x1.state := by
    unfold x1
    apply Home.fetch_keeps
    with_reducible assumption
  clear_value x1
  apply Home.lowered_keeps
  with_reducible assumption

theorem Home.addRef_keeps {s₀ : State} (h' : Home) (hh' : Keeps s₀ h'.state) (n : ℕ) :
    Keeps s₀ (Home.addRef h' n).state := by
  unfold Home.addRef
  extract_lets x1
  have h1 : Keeps s₀ x1.state := by
    unfold x1
    apply Home.fetch_keeps
    with_reducible assumption
  clear_value x1
  apply Home.setMeta_keeps
  with_reducible assumption

theorem Home.pin_keeps {s₀ : State} (h' : Home) (hh' : Keeps s₀ h'.state) (n : ℕ) :
    Keeps s₀ (Home.pin h' n).state := by
  unfold Home.pin
  extract_lets x1 x2
  have h1 : Keeps s₀ x1.state := by
    unfold x1
    apply Home.fetch_keeps
    with_reducible assumption
  clear_value x1
  have h2 : Keeps s₀ x2.state := by
    unfold x2
    apply Home.setMeta_keeps
    with_reducible assumption
  clear_value x2
  with_reducible assumption

theorem Home.unpin_keeps {s₀ : State} (h' : Home) (hh' : Keeps s₀ h'.state) (n : ℕ) :
    Keeps s₀ (Home.unpin h' n).state := by
  unfold Home.unpin
  extract_lets x1 x2
  have h1 : Keeps s₀ x1.state := by
    unfold x1
    apply Home.fetch_keeps
    with_reducible assumption
  clear_value x1
  have h2 : Keeps s₀ x2.state := by
    unfold x2
    apply Home.lowered_keeps
    with_reducible assumption
  clear_value x2
  with_reducible assumption

theorem State.setCacheCount_keeps {s₀ : State} {s : State} (h : Keeps s₀ s) (p : ℕ) (sub : ℕ) (v : ℕ) :
    Keeps s₀ (State.setCacheCount s p sub v) := by
  unfold State.setCacheCount
  apply State.setEntry_keeps
  with_reducible assumption

theorem State.setStackDepth_keeps {s₀ : State} {s : State} (h : Keeps s₀ s) (p : ℕ) (d : ℕ) :
    Keeps s₀ (State.setStackDepth s p d) := by
  unfold State.setStackDepth
  extract_lets x1 x2 x3
  clear_value x1
  have h2 : Keeps s₀ x2 := by
    unfold x2
    apply State.setCacheCount_keeps
    apply State.onPolder_keeps
    with_reducible assumption
  clear_value x2
  clear_value x3
  split
  · apply State.event_keeps
    with_reducible assumption
  · with_reducible assumption

theorem Home.rewrite_keeps {s₀ : State} (h' : Home) (hh' : Keeps s₀ h'.state) :
    Keeps s₀ (Home.rewrite h') := by
  unfold Home.rewrite
  refine Keeps.foldl1 (fun x1 x2 x3 => ?_) _ ?_
  · extract_lets x4
    have h4 : Keeps s₀ x4 := by
      unfold x4
      split
      · with_reducible assumption
      · apply State.burst_keeps
        with_reducible assumption
    clear_value x4
    dsimp only
    apply State.writeWord_keeps
    with_reducible assumption
  · with_reducible assumption

theorem Home.close_keeps {s₀ : State} (h' : Home) (hh' : Keeps s₀ h'.state) :
    Keeps s₀ (Home.close h') := by
  unfold Home.close
  split
  · with_reducible assumption
  · extract_lets x1 x2 x3 x4 x5
    clear_value x1
    have h2 : Keeps s₀ x2 := by
      unfold x2
      apply Home.rewrite_keeps
      with_reducible assumption
    clear_value x2
    have h3 : Keeps s₀ x3 := by
      unfold x3
      split
      · with_reducible assumption
      · apply State.setCacheCount_keeps
        with_reducible assumption
    clear_value x3
    have h4 : Keeps s₀ x4 := by
      unfold x4
      split
      · with_reducible assumption
      · apply State.setCacheCount_keeps
        with_reducible assumption
    clear_value x4
    have h5 : Keeps s₀ x5 := by
      unfold x5
      split
      · with_reducible assumption
      · apply State.setStackDepth_keeps
        with_reducible assumption
    clear_value x5
    apply State.bump_keeps
    apply State.bump_keeps
    with_reducible assumption

theorem State.zeroRange_keeps {s₀ : State} {s : State} (h : Keeps s₀ s) (p : ℕ) (base : W64) (n : ℕ) :
    Keeps s₀ (State.zeroRange s p base n) := by
  unfold State.zeroRange
  extract_lets x1 x2
  clear_value x1
  have h2 : Keeps s₀ x2 := by
    unfold x2
    refine Keeps.foldl (fun x3 x4 x5 => ?_) _ ?_
    · split
      · with_reducible assumption
      · extract_lets x6
        clear_value x6
        apply State.bump_keeps
        apply State.bump_keeps
        apply State.burst_keeps
        with_reducible assumption
    · with_reducible assumption
  clear_value x2
  refine Keeps.of_forms (u := x2) rfl (Store.wf_filter _ _) (Store.wf_filter _ _) id id id ?_
  with_reducible assumption

theorem State.initCache_keeps {s₀ : State} {s : State} (h : Keeps s₀ s) (p : ℕ) :
    Keeps s₀ (State.initCache s p) := by
  unfold State.initCache
  extract_lets x1 x2 x3 x4 x5 x6
  clear_value x1
  clear_value x2
  have h3 : Keeps s₀ x3 := by
    unfold x3
    apply State.zeroRange_keeps
    apply State.zeroRange_keeps
    with_reducible assumption
  clear_value x3
  have h4 : Keeps s₀ x4 := by
    unfold x4
    apply State.writeView_keeps
    with_reducible assumption
  clear_value x4
  have h5 : Keeps s₀ x5 := by
    unfold x5
    apply Home.close_keeps
    refine Keeps.foldlOn Home.state (fun x7 x8 x9 => ?_) _ ?_
    · apply Home.poke_keeps
      with_reducible assumption
    · apply State.home_keeps
      with_reducible assumption
  clear_value x5
  have h6 : Keeps s₀ x6 := by
    unfold x6
    apply State.onPolder_keeps
    with_reducible assumption
  clear_value x6
  apply State.setCacheCount_keeps
  apply State.setCacheCount_keeps
  apply State.setCacheCount_keeps
  with_reducible assumption

/-! ### Contexts -/

theorem State.notifyReady_keeps {s₀ : State} {s : State} (h : Keeps s₀ s) (ctx : ℕ) (slot : ℕ) (tag : ℕ) :
    Keeps s₀ (State.notifyReady s ctx slot tag) := by
  unfold State.notifyReady
  refine Keeps.foldl (fun x1 x2 x3 => ?_) _ ?_
  · apply State.send_keeps
    with_reducible assumption
  · with_reducible assumption

theorem State.placeRecord_keeps {s₀ : State} {s : State} (h : Keeps s₀ s) (ctx : ℕ) (u : Unplaced) :
    Keeps s₀ (State.placeRecord s ctx u) := by
  unfold State.placeRecord
  extract_lets x1 x2 x3
  clear_value x1
  clear_value x2
  split
  · unfold x3
    apply State.notifyReady_keeps
    apply State.onCtx_keeps
    with_reducible assumption
  · extract_lets x4 x5 x6 x7 x8 x9 x10 x11 x12 x13 x14 x15 x16
    clear_value x4
    have h5 : Keeps s₀ x5.state := by
      unfold x5
      apply State.readView_keeps
      with_reducible assumption
    clear_value x5
    have h6 : Keeps s₀ x6 := by
      unfold x6
      with_reducible assumption
    clear_value x6
    clear_value x7
    clear_value x8
    clear_value x9
    clear_value x10
    have h11 : Keeps s₀ x11 := by
      unfold x11
      split
      · apply State.usedFree_keeps
        with_reducible assumption
      · with_reducible assumption
    clear_value x11
    clear_value x12
    clear_value x13
    clear_value x14
    clear_value x15
    have h16 : Keeps s₀ x16 := by
      unfold x16
      split
      · apply State.usedFree_keeps
        with_reducible assumption
      · with_reducible assumption
    clear_value x16
    unfold x3
    apply State.notifyReady_keeps
    apply State.onCtx_keeps
    with_reducible assumption

theorem State.completePkg_keeps {s₀ : State} {s : State} (h : Keeps s₀ s) (ctx : ℕ) (u : Unplaced) :
    Keeps s₀ (State.completePkg s ctx u) := by
  unfold State.completePkg
  split
  · apply State.placeRecord_keeps
    with_reducible assumption
  · apply State.onCtx_keeps
    with_reducible assumption

theorem State.placeWaiting_keeps {s₀ : State} {s : State} (h : Keeps s₀ s) (ctx : ℕ) (slot : ℕ) :
    Keeps s₀ (State.placeWaiting s ctx slot) := by
  unfold State.placeWaiting
  split
  · with_reducible assumption
  · apply State.placeRecord_keeps
    apply State.onCtx_keeps
    with_reducible assumption

theorem State.queueWake_keeps {s₀ : State} {s : State} (h : Keeps s₀ s) (core : ℕ) :
    Keeps s₀ (State.queueWake s core) := by
  unfold State.queueWake
  split
  · with_reducible assumption
  · split
    · refine Keeps.of_eq (u := s) rfl rfl rfl rfl rfl rfl ?_
      with_reducible assumption
    · refine Keeps.of_eq (u := s) rfl rfl rfl rfl rfl rfl ?_
      with_reducible assumption

theorem State.requestWake_keeps {s₀ : State} {s : State} (h : Keeps s₀ s) (core : ℕ) :
    Keeps s₀ (State.requestWake s core) := by
  unfold State.requestWake
  extract_lets x1 x2
  clear_value x1
  clear_value x2
  split
  · with_reducible assumption
  · split
    · split
      · with_reducible assumption
      · refine Keeps.of_eq (u := s) rfl rfl rfl rfl rfl rfl ?_
        with_reducible assumption
    · apply State.queueWake_keeps
      with_reducible assumption

theorem State.afterWake_keeps {s₀ : State} {s : State} (h : Keeps s₀ s) (ctx : ℕ) :
    Keeps s₀ (State.afterWake s ctx) := by
  unfold State.afterWake
  extract_lets x1
  clear_value x1
  split
  · apply State.setCtx_keeps
    with_reducible assumption
  · with_reducible assumption

theorem State.preempt_keeps {s₀ : State} {s : State} (h : Keeps s₀ s) (ctx : ℕ) :
    Keeps s₀ (State.preempt s ctx) := by
  unfold State.preempt
  extract_lets x1 x2
  clear_value x1
  have h2 : Keeps s₀ x2 := by
    unfold x2
    refine Keeps.foldl (fun x3 x4 x5 => ?_) _ ?_
    · apply State.onCore_keeps
      with_reducible assumption
    · with_reducible assumption
  clear_value x2
  split
  · apply State.setCtx_keeps
    with_reducible assumption
  · apply State.setCtx_keeps
    with_reducible assumption

theorem State.grant_keeps {s₀ : State} {s : State} (h : Keeps s₀ s) (ctx : ℕ) :
    Keeps s₀ (State.grant s ctx) := by
  unfold State.grant
  extract_lets x1 x2
  clear_value x1
  have h2 : Keeps s₀ x2 := by
    unfold x2
    apply State.setCtx_keeps
    with_reducible assumption
  clear_value x2
  apply State.afterWake_keeps
  refine Keeps.foldl (fun x3 x4 x5 => ?_) _ ?_
  · apply State.requestWake_keeps
    with_reducible assumption
  · with_reducible assumption

theorem State.consider_keeps {s₀ : State} {s : State} (h : Keeps s₀ s) (ctx : ℕ) :
    Keeps s₀ (State.consider s ctx) := by
  unfold State.consider
  split
  · with_reducible assumption
  · extract_lets x1 x2
    clear_value x1
    have h2 : Keeps s₀ x2 := by
      unfold x2
      refine Keeps.foldl (fun x3 x4 x5 => ?_) _ ?_
      · apply State.preempt_keeps
        with_reducible assumption
      · with_reducible assumption
    clear_value x2
    split
    · apply State.grant_keeps
      with_reducible assumption
    · split
      · split
        · apply State.grant_keeps
          with_reducible assumption
        · with_reducible assumption
      · with_reducible assumption

theorem State.schedule_keeps {s₀ : State} {s : State} (h : Keeps s₀ s) (p : ℕ) :
    Keeps s₀ (State.schedule s p) := by
  unfold State.schedule
  extract_lets x1
  clear_value x1
  refine Keeps.foldl (fun x2 x3 x4 => ?_) _ ?_
  · apply State.consider_keeps
    with_reducible assumption
  · with_reducible assumption

theorem State.stampReady_keeps {s₀ : State} {s : State} (h : Keeps s₀ s) (ctx : ℕ) :
    Keeps s₀ (State.stampReady s ctx) := by
  unfold State.stampReady
  extract_lets x1
  have h1 : Keeps s₀ x1 := by
    unfold x1
    apply State.onCtx_keeps
    with_reducible assumption
  clear_value x1
  refine Keeps.of_eq (u := x1) rfl rfl rfl rfl rfl rfl ?_
  with_reducible assumption

theorem State.setMapBit_keeps {s₀ : State} {s : State} (h : Keeps s₀ s) (x : Post) :
    Keeps s₀ (State.setMapBit s x).1 := by
  unfold State.setMapBit
  extract_lets x1 x2 x3 x4 x5 x6
  clear_value x1
  clear_value x2
  have h3 : Keeps s₀ x3 := by
    unfold x3
    apply State.bump_keeps
    with_reducible assumption
  clear_value x3
  clear_value x4
  have h5 : Keeps s₀ x5.state := by
    unfold x5
    apply State.readView_keeps
    with_reducible assumption
  clear_value x5
  clear_value x6
  split
  · with_reducible assumption
  · dsimp only
    apply State.writeView_keeps
    with_reducible assumption

theorem State.abandonFabric_keeps {s₀ : State} {s : State} (h : Keeps s₀ s) (ctx : ℕ) :
    Keeps s₀ (State.abandonFabric s ctx) := by
  unfold State.abandonFabric
  extract_lets x1 x2 x3 x4
  clear_value x1
  clear_value x2
  clear_value x3
  have h4 : Keeps s₀ x4 := by
    unfold x4
    refine Keeps.foldl (fun x5 x6 x7 => ?_) _ ?_
    · split
      · refine Keeps.foldl (fun x8 x9 x10 => ?_) _ ?_
        · apply State.send_keeps
          with_reducible assumption
        · with_reducible assumption
      · with_reducible assumption
    · with_reducible assumption
  clear_value x4
  refine Keeps.of_eq (u := x4) rfl rfl rfl rfl rfl rfl ?_
  with_reducible assumption

theorem State.dropMedia_keeps {s₀ : State} {s : State} (h : Keeps s₀ s) (ctx : ℕ) :
    Keeps s₀ (State.dropMedia s ctx) := by
  unfold State.dropMedia
  refine Keeps.of_eq (u := s) rfl rfl rfl rfl rfl rfl ?_
  with_reducible assumption

theorem State.servePosts_keeps {s₀ : State} {s : State} (h : Keeps s₀ s) (ctx : ℕ) :
    Keeps s₀ (State.servePosts s ctx) := by
  unfold State.servePosts
  extract_lets x1 x2 x3
  clear_value x1
  clear_value x2
  have h3 : Keeps s₀ x3 := by
    unfold x3
    apply State.onPolder_keeps
    with_reducible assumption
  clear_value x3
  refine Keeps.foldl (fun x4 x5 x6 => ?_) _ ?_
  · apply State.setMapBit_keeps
    with_reducible assumption
  · with_reducible assumption

theorem State.leaveCore_keeps {s₀ : State} {s : State} (h : Keeps s₀ s) (ctx : ℕ) (core : ℕ) :
    Keeps s₀ (State.leaveCore s ctx core) := by
  unfold State.leaveCore
  extract_lets x1 x2
  clear_value x1
  clear_value x2
  split
  · apply State.setCore_keeps
    with_reducible assumption
  · split
    · apply State.setCore_keeps
      with_reducible assumption
    · with_reducible assumption

theorem State.dismantle_keeps {s₀ : State} {s : State} (h : Keeps s₀ s) (ctx : ℕ) (code : ℕ) (scope : ℕ) :
    Keeps s₀ (State.dismantle s ctx code scope).1 := by
  unfold State.dismantle
  extract_lets x1 x2 x3 x4 x5 x6 x7 x8 x9 x10 x11 x12
  clear_value x1
  clear_value x2
  have h3 : Keeps s₀ x3 := by
    unfold x3
    apply State.servePosts_keeps
    with_reducible assumption
  clear_value x3
  have h4 : Keeps s₀ x4.state := by
    unfold x4
    refine Keeps.foldlOn Home.state (fun x13 x14 x15 => ?_) _ ?_
    · apply Home.unpin_keeps
      with_reducible assumption
    · apply State.home_keeps
      with_reducible assumption
  clear_value x4
  have h5 : Keeps s₀ x5 := by
    unfold x5
    apply State.onPolder_keeps
    apply Home.close_keeps
    with_reducible assumption
  clear_value x5
  have h6 : Keeps s₀ x6 := by
    unfold x6
    apply State.dropMedia_keeps
    apply State.abandonFabric_keeps
    with_reducible assumption
  clear_value x6
  have h7 : Keeps s₀ x7 := by
    unfold x7
    refine Keeps.foldl (fun x16 x17 x18 => ?_) _ ?_
    · apply State.leaveCore_keeps
      with_reducible assumption
    · with_reducible assumption
  clear_value x7
  clear_value x8
  have h9 : Keeps s₀ x9 := by
    unfold x9
    apply State.setCtx_keeps
    with_reducible assumption
  clear_value x9
  have h10 : Keeps s₀ x10 := by
    unfold x10
    refine Keeps.foldl (fun x19 x20 x21 => ?_) _ ?_
    · apply State.send_keeps
      with_reducible assumption
    · with_reducible assumption
  clear_value x10
  have h11 : Keeps s₀ x11 := by
    unfold x11
    split
    · apply State.completePkg_keeps
      with_reducible assumption
    · with_reducible assumption
  clear_value x11
  have h12 : Keeps s₀ x12 := by
    unfold x12
    refine Keeps.foldl (fun x22 x23 x24 => ?_) _ ?_
    · apply State.completePkg_keeps
      with_reducible assumption
    · with_reducible assumption
  clear_value x12
  split
  · with_reducible assumption
  · dsimp only
    apply State.bump_keeps
    apply State.bump_keeps
    with_reducible assumption

theorem State.zeroCounters_keeps {s₀ : State} {s : State} (h : Keeps s₀ s) (site : ℕ) :
    Keeps s₀ (State.zeroCounters s site) := by
  unfold State.zeroCounters
  refine Keeps.of_forms (u := s) rfl id id (Store.wf_clearCells _ _ _) id id ?_
  with_reducible assumption

theorem State.closeStreams_keeps {s₀ : State} {s : State} (h : Keeps s₀ s) (p : ℕ) :
    Keeps s₀ (State.closeStreams s p) := by
  unfold State.closeStreams
  refine Keeps.of_eq (u := s) rfl rfl rfl rfl rfl rfl ?_
  with_reducible assumption

theorem State.eraseSeals_keeps {s₀ : State} {s : State} (h : Keeps s₀ s) (p : ℕ) :
    Keeps s₀ (State.eraseSeals s p) := by
  unfold State.eraseSeals
  refine Keeps.of_eq (u := s) rfl rfl rfl rfl rfl rfl ?_
  with_reducible assumption

theorem State.writeRecord_keeps {s₀ : State} {s : State} (h : Keeps s₀ s) (ctx : ℕ) :
    Keeps s₀ (State.writeRecord s ctx) := by
  unfold State.writeRecord
  extract_lets x1 x2
  clear_value x1
  clear_value x2
  apply State.writeView_keeps
  apply State.usedFree_keeps
  with_reducible assumption

theorem State.resetPolder_keeps {s₀ : State} {s : State} (h : Keeps s₀ s) (p : ℕ) (code : ℕ) :
    Keeps s₀ (State.resetPolder s p code) := by
  unfold State.resetPolder
  extract_lets x1 x2 x3 x4 x5
  have h1 : Keeps s₀ x1 := by
    unfold x1
    refine Keeps.foldl (fun x6 x7 x8 => ?_) _ ?_
    · apply State.dismantle_keeps
      with_reducible assumption
    · with_reducible assumption
  clear_value x1
  have h2 : Keeps s₀ x2 := by
    unfold x2
    refine Keeps.foldl (fun x9 x10 x11 => ?_) _ ?_
    · apply State.zeroCounters_keeps
      with_reducible assumption
    · with_reducible assumption
  clear_value x2
  have h3 : Keeps s₀ x3 := by
    unfold x3
    split
    · apply State.initCache_keeps
      with_reducible assumption
    · with_reducible assumption
  clear_value x3
  have h4 : Keeps s₀ x4 := by
    unfold x4
    split
    · refine Keeps.foldl (fun x12 x13 x14 => ?_) _ ?_
      · apply State.writeRecord_keeps
        with_reducible assumption
      · with_reducible assumption
    · with_reducible assumption
  clear_value x4
  have h5 : Keeps s₀ x5 := by
    unfold x5
    apply State.eraseSeals_keeps
    apply State.closeStreams_keeps
    with_reducible assumption
  clear_value x5
  apply State.schedule_keeps
  apply State.event_keeps
  apply State.bump32_keeps
  with_reducible assumption

theorem State.teardown_keeps {s₀ : State} {s : State} (h : Keeps s₀ s) (ctx : ℕ) (code : ℕ) (scope : ℕ) :
    Keeps s₀ (State.teardown s ctx code scope) := by
  unfold State.teardown
  extract_lets x1
  have h1 : Keeps s₀ x1.1 := by
    unfold x1
    apply State.dismantle_keeps
    with_reducible assumption
  clear_value x1
  split
  · apply State.resetPolder_keeps
    with_reducible assumption
  · with_reducible assumption

theorem State.faultContext_keeps {s₀ : State} {s : State} (h : Keeps s₀ s) (ctx : ℕ) (code : ℕ) (detail : W64) :
    Keeps s₀ (State.faultContext s ctx code detail) := by
  unfold State.faultContext
  extract_lets x1 x2
  clear_value x1
  have h2 : Keeps s₀ x2 := by
    unfold x2
    apply State.event_keeps
    with_reducible assumption
  clear_value x2
  split
  · apply State.resetPolder_keeps
    with_reducible assumption
  · apply State.schedule_keeps
    apply State.teardown_keeps
    with_reducible assumption

theorem State.recordFault_keeps {s₀ : State} {s : State} (h : Keeps s₀ s) (ctx : ℕ) (x : ℕ × PendingFault) :
    Keeps s₀ (State.recordFault s ctx x) := by
  unfold State.recordFault
  extract_lets x1 x2
  have h2 : Keeps s₀ x2 := by
    unfold x2
    unfold x1
    apply State.setEntry_keeps
    apply State.setEntry_keeps
    apply State.setEntry_keeps
    apply State.setEntry_keeps
    apply State.setEntry_keeps
    apply State.setEntry_keeps
    with_reducible assumption
  clear_value x2
  apply State.event_keeps
  with_reducible assumption

theorem State.takeFault_keeps {s₀ : State} {s : State} (h : Keeps s₀ s) (core : ℕ) (f : PendingFault) :
    Keeps s₀ (State.takeFault s core f) := by
  unfold State.takeFault
  split
  · with_reducible assumption
  · extract_lets x1 x2 x3
    clear_value x1
    clear_value x2
    clear_value x3
    apply State.faultContext_keeps
    refine Keeps.foldl (fun x4 x5 x6 => ?_) _ ?_
    · apply State.recordFault_keeps
      with_reducible assumption
    · with_reducible assumption

theorem State.raise_keeps {s₀ : State} {s : State} (h : Keeps s₀ s) (core : ℕ) (f : PendingFault) :
    Keeps s₀ (State.raise s core f) := by
  unfold State.raise
  apply State.onCore_keeps
  with_reducible assumption

theorem State.atRank_keeps {s₀ : State} {s : State} (h : Keeps s₀ s) (ctx : ℕ) (rank : ℕ)
    (f : CoreState → CoreState) :
    Keeps s₀ (State.atRank s ctx rank f) := by
  unfold State.atRank
  extract_lets x1
  clear_value x1
  split
  · split
    · split
      · apply State.onCore_keeps
        with_reducible assumption
      · with_reducible assumption
    · with_reducible assumption
  · apply State.setCtx_keeps
    with_reducible assumption

theorem State.timingChoice_keeps {s₀ : State} {s : State} (h : Keeps s₀ s) (ctx : ℕ) :
    Keeps s₀ (State.timingChoice s ctx) := by
  unfold State.timingChoice
  apply State.onCtx_keeps
  apply State.bump_keeps
  apply State.bump_keeps
  with_reducible assumption

theorem State.resultChoice_keeps {s₀ : State} {s : State} (h : Keeps s₀ s) (ctx : ℕ) :
    Keeps s₀ (State.resultChoice s ctx) := by
  unfold State.resultChoice
  apply State.onCtx_keeps
  apply State.bump_keeps
  apply State.bump_keeps
  with_reducible assumption

end Sys2Proof.Machine
end

