-- ==== Sys2Proof/Laws/KeepsWalk.lean ====
section
/-! SUPPORT. What walks, streams, drains, attention and the key-value operations keep (`Keeps`). -/

namespace Sys2Proof.Machine

/-! ### Walk -/

theorem Fetch.start_keeps {s₀ : State} {s : State} (h : Keeps s₀ s) :
    Keeps s₀ (Fetch.start s).state := by
  unfold Fetch.start
  with_reducible assumption

theorem Fetch.load_keeps {s₀ : State} (f : Fetch) (hf : Keeps s₀ f.state) (r : Requester) (k : ℕ) (size : ℕ)
    (addr : ℤ) :
    Keeps s₀ (Fetch.load f r k size addr).state := by
  unfold Fetch.load
  extract_lets x1 x2 x3 x4
  clear_value x1
  have h2 : Keeps s₀ x2.state := by
    unfold x2
    split
    · with_reducible assumption
    · with_reducible assumption
  clear_value x2
  clear_value x3
  clear_value x4
  split
  · with_reducible assumption
  · split
    · with_reducible assumption
    · extract_lets x5 x6 x7
      have h5 : Keeps s₀ x5 := by
        unfold x5
        split
        · with_reducible assumption
        · apply State.burst_keeps
          with_reducible assumption
      clear_value x5
      have h6 : Keeps s₀ x6.state := by
        unfold x6
        apply State.readWord_keeps
        with_reducible assumption
      clear_value x6
      have h7 : Keeps s₀ x7.state := by
        unfold x7
        split
        · with_reducible assumption
        · with_reducible assumption
      clear_value x7
      split
      · with_reducible assumption
      · split
        · with_reducible assumption
        · with_reducible assumption

theorem Fetch.visit_keeps {s₀ : State} (f : Fetch) (hf : Keeps s₀ f.state) (r : Requester) (ws : Store 8) (ag : ℕ)
    (w : Walk) (d : Side) (pre : Elt → Option WalkFault) (k : ℕ) :
    Keeps s₀ (Fetch.visit f r ws ag w d pre k).state := by
  unfold Fetch.visit
  extract_lets x1
  clear_value x1
  split
  · with_reducible assumption
  · split
    · with_reducible assumption
    · split
      · with_reducible assumption
      · split
        · with_reducible assumption
        · split
          · with_reducible assumption
          · apply Fetch.load_keeps
            with_reducible assumption

theorem Fetch.run'_keeps {s₀ : State} (r : Requester) (ws : Store 8) (ag : ℕ) (w : Walk) (d : Side)
    (pre : Elt → Option WalkFault) (n k : ℕ) (f : Fetch) (h : Keeps s₀ f.state) :
    Keeps s₀ (Fetch.run' r ws ag w d pre n k f).state := by
  induction n generalizing k f with
  | zero => exact h
  | succ n ih =>
    unfold Fetch.run'
    split
    · with_reducible assumption
    · with_reducible apply ih
      apply Fetch.visit_keeps
      with_reducible assumption

theorem fetchWalk_keeps {s₀ : State} {s : State} (h : Keeps s₀ s) (r : Requester) (ws : Store 8) (ag : ℕ) (w : Walk)
    (d : Side) (pre : Elt → Option WalkFault) :
    Keeps s₀ (fetchWalk s r ws ag w d pre).state := by
  unfold fetchWalk
  apply Fetch.run'_keeps
  apply Fetch.start_keeps
  with_reducible assumption

theorem Collect.start_keeps {s₀ : State} {s : State} (h : Keeps s₀ s) :
    Keeps s₀ (Collect.start s).state := by
  unfold Collect.start
  with_reducible assumption

theorem Collect.flush_keeps {s₀ : State} (c : Collect) (hc : Keeps s₀ c.state) (r : Requester) :
    Keeps s₀ (Collect.flush c r).state := by
  unfold Collect.flush
  split
  · with_reducible assumption
  · split
    · split
      · with_reducible assumption
      · extract_lets x1
        have h1 : Keeps s₀ x1 := by
          unfold x1
          split
          · with_reducible assumption
          · apply State.burst_keeps
            with_reducible assumption
        clear_value x1
        dsimp only
        apply State.writeWord_keeps
        with_reducible assumption
    · with_reducible assumption

theorem Collect.add_keeps {s₀ : State} (c : Collect) (hc : Keeps s₀ c.state) (r : Requester) (addr : ℕ)
    (bs : List Byte) :
    Keeps s₀ (Collect.add c r addr bs).state := by
  unfold Collect.add
  extract_lets x1 x2
  have h1 : Keeps s₀ x1.state := by
    unfold x1
    split
    · apply Collect.flush_keeps
      with_reducible assumption
    · with_reducible assumption
  clear_value x1
  clear_value x2
  with_reducible assumption

theorem Collect.write_keeps {s₀ : State} (c : Collect) (hc : Keeps s₀ c.state) (r : Requester) (ag : ℕ) (k : ℕ)
    (addr : ℤ) (bs : List Byte) :
    Keeps s₀ (Collect.write c r ag k addr bs).1.state := by
  unfold Collect.write
  split
  · dsimp only
    apply Collect.flush_keeps
    with_reducible assumption
  · split
    · with_reducible assumption
    · dsimp only
      apply Collect.add_keeps
      with_reducible assumption

theorem Collect.finish_keeps {s₀ : State} (c : Collect) (hc : Keeps s₀ c.state) (r : Requester) (ag : ℕ) (k : ℕ) :
    Keeps s₀ (Collect.finish c r ag k).1.state := by
  unfold Collect.finish
  split
  · with_reducible assumption
  · dsimp only
    apply Collect.flush_keeps
    with_reducible assumption

theorem State.runLoad_keeps {s₀ : State} {s : State} (h : Keeps s₀ s) (core : ℕ) (p : ℕ) (ag : ℕ) (w : Walk)
    (base : W64) (line : ℕ) :
    Keeps s₀ (State.runLoad s core p ag w base line).state := by
  unfold State.runLoad
  extract_lets x1 x2 x3
  have h2 : Keeps s₀ x2.state := by
    unfold x2
    apply fetchWalk_keeps
    with_reducible assumption
  clear_value x2
  clear_value x3
  dsimp only
  apply State.onCore_keeps
  with_reducible assumption

theorem storeFrom_keeps {s₀ : State} (r : Requester) (ws : Store 8) (ag : ℕ) (w : Walk) (base : W64) (line n k : ℕ)
    (c : Collect) (h : Keeps s₀ c.state) :
    Keeps s₀ (storeFrom r ws ag w base line n k c).1.state := by
  induction n generalizing k c with
  | zero =>
    unfold storeFrom
    apply Collect.finish_keeps
    with_reducible assumption
  | succ n ih =>
    unfold storeFrom
    extract_lets x165 x166 x167 x168
    clear_value x165
    clear_value x166
    clear_value x167
    have h168 : Keeps s₀ x168.1.state := by
      unfold x168
      apply Collect.write_keeps
      with_reducible assumption
    clear_value x168
    split
    · dsimp only
      apply Collect.flush_keeps
      with_reducible assumption
    · split
      · with_reducible apply ih
        with_reducible assumption
      · split
        · dsimp only
          apply Collect.flush_keeps
          with_reducible assumption
        · split
          · dsimp only
            apply Collect.flush_keeps
            with_reducible assumption
          · split
            · with_reducible assumption
            · with_reducible apply ih
              with_reducible assumption

theorem State.runStore_keeps {s₀ : State} {s : State} (h : Keeps s₀ s) (core : ℕ) (p : ℕ) (ag : ℕ) (w : Walk)
    (base : W64) (line : ℕ) :
    Keeps s₀ (State.runStore s core p ag w base line).state := by
  unfold State.runStore
  extract_lets x1
  have h1 : Keeps s₀ x1.1.state := by
    unfold x1
    apply storeFrom_keeps
    apply Collect.start_keeps
    with_reducible assumption
  clear_value x1
  with_reducible assumption

/-! ### KvCache -/

theorem State.kvFault_keeps {s₀ : State} {s : State} (h : Keeps s₀ s) (p : ℕ) (f : KvFault) :
    Keeps s₀ (State.kvFault s p f).1 := by
  unfold State.kvFault
  extract_lets x1 x2 x3
  clear_value x1
  have h2 : Keeps s₀ x2 := by
    unfold x2
    split
    · apply State.usedFree_keeps
      with_reducible assumption
    · with_reducible assumption
  clear_value x2
  have h3 : Keeps s₀ x3 := by
    unfold x3
    apply State.event_keeps
    with_reducible assumption
  clear_value x3
  dsimp only
  split
  · apply State.event_keeps
    with_reducible assumption
  · with_reducible assumption

theorem Home.invalidate_keeps {s₀ : State} (h' : Home) (hh' : Keeps s₀ h'.state) (a : W64) :
    Keeps s₀ (Home.invalidate h' a).state := by
  unfold Home.invalidate
  extract_lets x1
  have h1 : Keeps s₀ x1.state := by
    unfold x1
    apply Home.fetch_keeps
    with_reducible assumption
  clear_value x1
  split
  · with_reducible assumption
  · apply Home.dropRef_keeps
    apply Home.setPtEntry_keeps
    with_reducible assumption

theorem Home.newSeq_keeps {s₀ : State} (h' : Home) (hh' : Keeps s₀ h'.state) (r : SeqReq) (length : ℕ) :
    Keeps s₀ (Home.newSeq h' r length).state := by
  unfold Home.newSeq
  extract_lets x1 x2 x3
  clear_value x1
  have h2 : Keeps s₀ x2.state := by
    unfold x2
    apply Home.setSeqEntry_keeps
    with_reducible assumption
  clear_value x2
  have h3 : Keeps s₀ x3.state := by
    unfold x3
    refine Keeps.foldlOn Home.state (fun x4 x5 x6 => ?_) _ ?_
    · apply Home.put_keeps
      with_reducible assumption
    · with_reducible assumption
  clear_value x3
  with_reducible assumption

theorem Home.seqDo_keeps {s₀ : State} (h' : Home) (hh' : Keeps s₀ h'.state) (r : SeqReq) :
    Keeps s₀ (Home.seqDo h' r).state := by
  unfold Home.seqDo
  extract_lets x1 x2 x3 x4 x5 x6 x7 x8 x9 x10 x11 x12
  clear_value x1
  clear_value x2
  clear_value x3
  clear_value x4
  clear_value x5
  clear_value x6
  have h7 : Keeps s₀ x7.state := by
    unfold x7
    apply Home.fetchAll_keeps
    with_reducible assumption
  clear_value x7
  clear_value x8
  have h9 : Keeps s₀ x9.state := by
    unfold x9
    refine Keeps.foldlOn Home.state (fun x13 x14 x15 => ?_) _ ?_
    · apply Home.invalidate_keeps
      with_reducible assumption
    · with_reducible assumption
  clear_value x9
  have h10 : Keeps s₀ x10.state := by
    unfold x10
    apply Home.setSeqEntry_keeps
    with_reducible assumption
  clear_value x10
  clear_value x11
  have h12 : Keeps s₀ x12.state := by
    unfold x12
    split
    · refine Keeps.foldlOn Home.state (fun x16 x17 x18 => ?_) _ ?_
      · apply Home.invalidate_keeps
        with_reducible assumption
      · with_reducible assumption
    · with_reducible assumption
  clear_value x12
  split
  · apply Home.newSeq_keeps
    with_reducible assumption
  · refine Keeps.foldlOn Home.state (fun x19 x20 x21 => ?_) _ ?_
    · split
      · with_reducible assumption
      · apply Home.addRef_keeps
        apply Home.setPtEntry_keeps
        with_reducible assumption
    · apply Home.newSeq_keeps
      with_reducible assumption
  · with_reducible assumption
  · apply Home.setSeqEntry_keeps
    with_reducible assumption
  · with_reducible assumption

theorem State.seqHome_keeps {s₀ : State} {s : State} (h : Keeps s₀ s) (p : ℕ) (r : SeqReq) :
    Keeps s₀ (State.seqHome s p r).state := by
  unfold State.seqHome
  apply Home.fetchAll_keeps
  apply State.home_keeps
  with_reducible assumption

theorem State.serveSeq_keeps {s₀ : State} {s : State} (h : Keeps s₀ s) (p : ℕ) (r : SeqReq) :
    Keeps s₀ (State.serveSeq s p r).state := by
  unfold State.serveSeq
  extract_lets x1 x2
  have h1 : Keeps s₀ x1.state := by
    unfold x1
    apply State.seqHome_keeps
    with_reducible assumption
  clear_value x1
  have h2 : Keeps s₀ x2.state := by
    unfold x2
    apply Home.seqDo_keeps
    with_reducible assumption
  clear_value x2
  split
  · with_reducible assumption
  · extract_lets x3
    have h3 : Keeps s₀ x3.1 := by
      unfold x3
      apply State.kvFault_keeps
      with_reducible assumption
    clear_value x3
    with_reducible assumption
  · dsimp only
    apply Home.close_keeps
    with_reducible assumption

theorem State.kvHome_keeps {s₀ : State} {s : State} (h : Keeps s₀ s) (p : ℕ) (j : KvJob) :
    Keeps s₀ (State.kvHome s p j).state := by
  unfold State.kvHome
  split
  · apply Home.fetch_keeps
    apply State.home_keeps
    with_reducible assumption
  · apply State.home_keeps
    with_reducible assumption

theorem Home.refuse_keeps {s₀ : State} (h' : Home) (hh' : Keeps s₀ h'.state) (j : KvJob) (f : KvFault) :
    Keeps s₀ (Home.refuse h' j f).state := by
  unfold Home.refuse
  extract_lets x1
  have h1 : Keeps s₀ x1.1 := by
    unfold x1
    apply State.kvFault_keeps
    with_reducible assumption
  clear_value x1
  with_reducible assumption

theorem State.gather_keeps {s₀ : State} {s : State} (h : Keeps s₀ s) (r : Requester) (c : CacheCfg) (j : KvJob)
    (snapshot : ℕ) (put : ℕ → List Byte → State → State) (hput : ∀ y1 y2 y3, Keeps s₀ y3 → Keeps s₀ (put y1 y2 y3))
    (xs : List (ℕ × ℕ × ℕ × ℕ)) :
    Keeps s₀ (State.gather s r c j snapshot put xs).1 := by
  induction xs generalizing s with
  | nil => exact h
  | cons x r ih =>
    unfold State.gather
    extract_lets x101
    clear_value x101
    split
    · split
      · with_reducible assumption
      · extract_lets x102
        have h102 : Keeps s₀ x102.state := by
          unfold x102
          apply State.readView_keeps
          with_reducible assumption
        clear_value x102
        split
        · with_reducible assumption
        · with_reducible apply ih
          apply hput
          with_reducible assumption
    · with_reducible apply ih
      apply hput
      with_reducible assumption

theorem State.kvLoad_keeps {s₀ : State} {s : State} (h : Keeps s₀ s) (core : ℕ) (p : ℕ) (x : KvReq) (j : KvJob) :
    Keeps s₀ (State.kvLoad s core p x j).state := by
  unfold State.kvLoad
  extract_lets x1 x2 x3 x4 x5 x6 x7 x8 x9 x10 x11
  clear_value x1
  have h2 : Keeps s₀ x2.state := by
    unfold x2
    apply State.kvHome_keeps
    with_reducible assumption
  clear_value x2
  clear_value x3
  clear_value x4
  have h5 : Keeps s₀ x5.state := by
    unfold x5
    apply Home.fetchAll_keeps
    with_reducible assumption
  clear_value x5
  clear_value x6
  clear_value x7
  have h8 : Keeps s₀ x8.state := by
    unfold x8
    refine Keeps.foldlOn Home.state (fun x12 x13 x14 => ?_) _ ?_
    · apply Home.pin_keeps
      with_reducible assumption
    · with_reducible assumption
  clear_value x8
  clear_value x9
  have h11 : Keeps s₀ x11.1 := by
    unfold x11
    apply State.gather_keeps
    · apply Home.close_keeps
      with_reducible assumption
    · intro x15
      intro x16
      intro x17
      intro x18
      unfold x10
      apply State.atRank_keeps
      with_reducible assumption
  clear_value x11
  split
  · with_reducible assumption
  · apply Home.refuse_keeps
    with_reducible assumption
  · split
    · with_reducible assumption
    · apply Home.refuse_keeps
      with_reducible assumption
    · split
      · with_reducible assumption
      · with_reducible assumption

theorem Resolving.entry_keeps {s₀ : State} (x : Resolving) (hx : Keeps s₀ x.home.state) (i : ℕ) (a : W64) :
    Keeps s₀ (Resolving.entry x i a).home.state := by
  unfold Resolving.entry
  split
  · extract_lets x1
    have h1 : Keeps s₀ x1.1.state := by
      unfold x1
      apply Home.pop_keeps
      with_reducible assumption
    clear_value x1
    dsimp only
    apply Home.setPtEntry_keeps
    apply Home.setMeta_keeps
    with_reducible assumption
  · split
    · extract_lets x2
      have h2 : Keeps s₀ x2.1.state := by
        unfold x2
        apply Home.pop_keeps
        with_reducible assumption
      clear_value x2
      with_reducible assumption
    · with_reducible assumption

theorem State.kvAppend_keeps {s₀ : State} {s : State} (h : Keeps s₀ s) (p : ℕ) (j : KvJob) :
    Keeps s₀ (State.kvAppend s p j).state := by
  unfold State.kvAppend
  extract_lets x1 x2 x3 x4 x5 x6 x7 x8
  clear_value x1
  have h2 : Keeps s₀ x2.state := by
    unfold x2
    apply State.kvHome_keeps
    with_reducible assumption
  clear_value x2
  clear_value x3
  clear_value x4
  have h5 : Keeps s₀ x5.state := by
    unfold x5
    apply Home.fetchAll_keeps
    with_reducible assumption
  clear_value x5
  have h6 : Keeps s₀ x6.state := by
    unfold x6
    apply Home.fetchAll_keeps
    with_reducible assumption
  clear_value x6
  clear_value x7
  have h8 : Keeps s₀ x8.home.state := by
    unfold x8
    refine Keeps.foldlOn (fun u : Resolving => u.home.state) (fun x9 x10 x11 => ?_) _ ?_
    · apply Resolving.entry_keeps
      with_reducible assumption
    · with_reducible assumption
  clear_value x8
  split
  · with_reducible assumption
  · apply Home.refuse_keeps
    with_reducible assumption
  · split
    · apply Home.refuse_keeps
      with_reducible assumption
    · split
      · with_reducible assumption
      · dsimp only
        refine Keeps.foldl (fun x12 x13 x14 => ?_) _ ?_
        · apply State.zeroRange_keeps
          with_reducible assumption
        · apply Home.close_keeps
          with_reducible assumption

theorem State.cowSwitch_keeps {s₀ : State} {s : State} (h : Keeps s₀ s) (p : ℕ) (a : W64) (old : ℕ) (new : ℕ) :
    Keeps s₀ (State.cowSwitch s p a old new).1 := by
  unfold State.cowSwitch
  extract_lets x1 x2 x3 x4 x5 x6
  clear_value x1
  clear_value x2
  have h3 : Keeps s₀ x3.state := by
    unfold x3
    apply State.readView_keeps
    with_reducible assumption
  clear_value x3
  have h4 : Keeps s₀ x4.state := by
    unfold x4
    apply Home.fetchAll_keeps
    apply State.home_keeps
    apply State.writeView_keeps
    with_reducible assumption
  clear_value x4
  clear_value x5
  have h6 : Keeps s₀ x6.state := by
    unfold x6
    apply Home.dropRef_keeps
    apply Home.setPtEntry_keeps
    apply Home.setMeta_keeps
    with_reducible assumption
  clear_value x6
  split
  · with_reducible assumption
  · split
    · with_reducible assumption
    · dsimp only
      apply State.bump_keeps
      apply Home.close_keeps
      with_reducible assumption

theorem State.kvWrite_keeps {s₀ : State} {s : State} (h : Keeps s₀ s) (core : ℕ) (p : ℕ) (j : KvJob) :
    Keeps s₀ (State.kvWrite s core p j) := by
  unfold State.kvWrite
  extract_lets x1 x2
  clear_value x1
  clear_value x2
  refine Keeps.foldl (fun x3 x4 x5 => ?_) _ ?_
  · split
    · with_reducible assumption
    · apply State.writeView_keeps
      with_reducible assumption
  · with_reducible assumption

theorem State.releasePins_keeps {s₀ : State} {s : State} (h : Keeps s₀ s) (p : ℕ) (pins : List ℕ) :
    Keeps s₀ (State.releasePins s p pins).1 := by
  unfold State.releasePins
  extract_lets x1
  have h1 : Keeps s₀ x1.state := by
    unfold x1
    refine Keeps.foldlOn Home.state (fun x2 x3 x4 => ?_) _ ?_
    · apply Home.unpin_keeps
      with_reducible assumption
    · apply State.home_keeps
      with_reducible assumption
  clear_value x1
  dsimp only
  apply Home.close_keeps
  with_reducible assumption

theorem State.raiseReq_keeps {s₀ : State} {s : State} (h : Keeps s₀ s) (x : KvReq) (f : Option (ℕ × W64)) :
    Keeps s₀ (State.raiseReq s x f) := by
  unfold State.raiseReq
  split
  · with_reducible assumption
  · apply State.atRank_keeps
    with_reducible assumption

theorem State.translate_keeps {s₀ : State} {s : State} (h : Keeps s₀ s) (p : ℕ) (x : KvReq) :
    Keeps s₀ (State.translate s p x) := by
  unfold State.translate
  split
  · with_reducible assumption
  · split
    · with_reducible assumption
    · extract_lets x1
      have h1 : Keeps s₀ x1.state := by
        unfold x1
        split
        · apply State.kvAppend_keeps
          with_reducible assumption
        · apply State.kvLoad_keeps
          with_reducible assumption
      clear_value x1
      apply State.raiseReq_keeps
      apply State.atRank_keeps
      with_reducible assumption

theorem State.unpinFor_keeps {s₀ : State} {s : State} (h : Keeps s₀ s) (p : ℕ) (x : KvReq) :
    Keeps s₀ (State.unpinFor s p x) := by
  unfold State.unpinFor
  split
  · with_reducible assumption
  · split
    · with_reducible assumption
    · extract_lets x1
      have h1 : Keeps s₀ x1.1 := by
        unfold x1
        apply State.releasePins_keeps
        with_reducible assumption
      clear_value x1
      apply State.raiseReq_keeps
      apply State.atRank_keeps
      with_reducible assumption

theorem State.granted_keeps {s₀ : State} {s : State} (h : Keeps s₀ s) (p : ℕ) (r : HomeReq) :
    Keeps s₀ (State.granted s p r) := by
  unfold State.granted
  extract_lets x1
  have h1 : Keeps s₀ x1 := by
    unfold x1
    apply State.onPolder_keeps
    with_reducible assumption
  clear_value x1
  split
  · with_reducible assumption
  · apply State.timingChoice_keeps
    with_reducible assumption

theorem State.answerSeq_keeps {s₀ : State} {s : State} (h : Keeps s₀ s) (p : ℕ) (r : SeqReq) :
    Keeps s₀ (State.answerSeq s p r) := by
  unfold State.answerSeq
  extract_lets x1
  have h1 : Keeps s₀ x1.state := by
    unfold x1
    apply State.serveSeq_keeps
    with_reducible assumption
  clear_value x1
  split
  · apply State.atRank_keeps
    with_reducible assumption
  · apply State.atRank_keeps
    with_reducible assumption

theorem State.drainHome_keeps {s₀ s : State} (h : Keeps s₀ s) (p n : ℕ) :
    Keeps s₀ (State.drainHome p n s) := by
  induction n generalizing s with
  | zero => exact h
  | succ n ih =>
    unfold State.drainHome
    split
    · with_reducible apply ih
      apply State.translate_keeps
      apply State.granted_keeps
      with_reducible assumption
    · with_reducible apply ih
      apply State.unpinFor_keeps
      apply State.granted_keeps
      with_reducible assumption
    · with_reducible assumption

theorem State.askHome_keeps {s₀ : State} {s : State} (h : Keeps s₀ s) (p : ℕ) (r : HomeReq) :
    Keeps s₀ (State.askHome s p r) := by
  unfold State.askHome
  extract_lets x1
  have h1 : Keeps s₀ x1 := by
    unfold x1
    apply State.mark_keeps
    apply State.onPolder_keeps
    with_reducible assumption
  clear_value x1
  apply State.drainHome_keeps
  with_reducible assumption

/-! ### Array -/

theorem readsAt_keeps {s₀ s : State} (h : Keeps s₀ s) (r : Requester) (ws : Store 8) (p : ℕ) (xs : List Read) :
    Keeps s₀ (readsAt r ws p s xs).1 := by
  induction xs generalizing s with
  | nil => exact h
  | cons x r ih =>
    unfold readsAt
    extract_lets x101 x102 x103
    have h102 : Keeps s₀ x102.state := by
      unfold x102
      refine Keeps.foldlOn Fetch.state (fun x104 x105 x106 => ?_) _ ?_
      · apply Fetch.run'_keeps
        with_reducible assumption
      · with_reducible assumption
    clear_value x102
    have h103 : Keeps s₀ x103.1 := by
      unfold x103
      with_reducible apply ih
      with_reducible assumption
    clear_value x103
    split
    · with_reducible assumption
    · with_reducible assumption

theorem lockstep_keeps {s₀ s : State} (h : Keeps s₀ s) (r : Requester) (ws : Store 8) (n p : ℕ) (xs : List Read) :
    Keeps s₀ (lockstep r ws n p s xs).1 := by
  induction n generalizing p s xs with
  | zero => exact h
  | succ n ih =>
    unfold lockstep
    extract_lets x101
    have h101 : Keeps s₀ x101.1 := by
      unfold x101
      apply readsAt_keeps
      with_reducible assumption
    clear_value x101
    split
    · with_reducible assumption
    · with_reducible apply ih
      with_reducible assumption

theorem State.readStream_keeps {s₀ : State} {s : State} (h : Keeps s₀ s) (core : ℕ) (p : ℕ) (edition : ℕ)
    (j : StreamJob) :
    Keeps s₀ (State.readStream s core p edition j).state := by
  unfold State.readStream
  extract_lets x1 x2 x3 x4 x5 x6 x7 x8 x9 x10 x11 x12 x13 x14 x15 x16 x17 x18
  clear_value x1
  clear_value x2
  clear_value x3
  clear_value x4
  clear_value x5
  clear_value x6
  clear_value x7
  clear_value x8
  clear_value x9
  clear_value x10
  clear_value x12
  clear_value x13
  clear_value x14
  clear_value x17
  have h18 : Keeps s₀ x18.1 := by
    unfold x18
    apply lockstep_keeps
    with_reducible assumption
  clear_value x18
  with_reducible assumption

theorem State.runStream_keeps {s₀ : State} {s : State} (h : Keeps s₀ s) (core : ℕ) (j : StreamJob) :
    Keeps s₀ (State.runStream s core j).1 := by
  unfold State.runStream
  extract_lets x1 x2 x3 x4 x5 x6 x7 x8 x9 x10 x11 x12 x13
  clear_value x1
  clear_value x2
  have h3 : Keeps s₀ x3.state := by
    unfold x3
    apply State.readStream_keeps
    with_reducible assumption
  clear_value x3
  clear_value x4
  clear_value x5
  clear_value x6
  clear_value x7
  have h8 : Keeps s₀ x8 := by
    unfold x8
    apply State.setCore_keeps
    with_reducible assumption
  clear_value x8
  have h9 : Keeps s₀ x9 := by
    unfold x9
    apply State.tally_keeps
    with_reducible assumption
  clear_value x9
  clear_value x10
  have h11 : Keeps s₀ x11 := by
    unfold x11
    split
    · apply State.bump_keeps
      with_reducible assumption
    · apply State.bump_keeps
      with_reducible assumption
  clear_value x11
  have h12 : Keeps s₀ x12 := by
    unfold x12
    apply State.bump_keeps
    with_reducible assumption
  clear_value x12
  have h13 : Keeps s₀ x13 := by
    unfold x13
    split
    · apply State.bump_keeps
      with_reducible assumption
    · with_reducible assumption
  clear_value x13
  split
  · with_reducible assumption
  · dsimp only
    split
    · apply State.bump_keeps
      with_reducible assumption
    · with_reducible assumption

theorem Draining.put_keeps {s₀ : State} (x : Draining) (hx : Keeps s₀ x.collect.state) (r : Requester) (ag : ℕ)
    (w : Walk) (o : Out) (bs : List Byte) :
    Keeps s₀ (Draining.put x r ag w o bs).collect.state := by
  unfold Draining.put
  split
  · with_reducible assumption
  · split
    · with_reducible assumption
    · split
      · with_reducible assumption
      · extract_lets x1
        have h1 : Keeps s₀ x1.1.state := by
          unfold x1
          apply Collect.write_keeps
          with_reducible assumption
        clear_value x1
        split
        · with_reducible assumption
        · with_reducible assumption

theorem State.countDrain_keeps {s₀ : State} {s : State} (h : Keeps s₀ s) (core : ℕ) (j : DrainJob) (empty : Bool) :
    Keeps s₀ (State.countDrain s core j empty) := by
  unfold State.countDrain
  extract_lets x1 x2 x3 x4
  have h1 : Keeps s₀ x1 := by
    unfold x1
    apply State.bump_keeps
    with_reducible assumption
  clear_value x1
  have h2 : Keeps s₀ x2 := by
    unfold x2
    split
    · apply State.bump_keeps
      with_reducible assumption
    · with_reducible assumption
  clear_value x2
  have h3 : Keeps s₀ x3 := by
    unfold x3
    split
    · apply State.bump_keeps
      with_reducible assumption
    · with_reducible assumption
  clear_value x3
  have h4 : Keeps s₀ x4 := by
    unfold x4
    split
    · apply State.bump_keeps
      with_reducible assumption
    · with_reducible assumption
  clear_value x4
  split
  · apply State.event_keeps
    with_reducible assumption
  · with_reducible assumption

theorem State.runDrain_keeps {s₀ : State} {s : State} (h : Keeps s₀ s) (core : ℕ) (j : DrainJob) :
    Keeps s₀ (State.runDrain s core j).1 := by
  unfold State.runDrain
  extract_lets x1 x2 x3 x4 x5 x6 x7 x8 x9 x10 x11 x12 x13 x14 x15 x16 x17 x18 x19 x20 x21 x22 x23 x24 x25 x26 x27 x28 x29 x30 x31 x32 x33 x34 x35 x36
  clear_value x1
  clear_value x2
  clear_value x3
  clear_value x4
  clear_value x5
  clear_value x6
  clear_value x7
  clear_value x8
  clear_value x9
  clear_value x10
  have h11 : ∀ z, x11 = some z → Keeps s₀ z.1.state := by
    intro z e
    unfold x11 at e
    obtain ⟨z', -, rfl⟩ := Option.map_eq_some_iff.1 e
    dsimp only
    apply Fetch.run'_keeps
    apply Fetch.start_keeps
    with_reducible assumption
  clear_value x11
  have h12 : Keeps s₀ x12 := by
    unfold x12
    split
    · exact h11 _ rfl
    · with_reducible assumption
  clear_value x12
  clear_value x13
  clear_value x14
  clear_value x15
  clear_value x16
  clear_value x17
  clear_value x18
  have h19 : Keeps s₀ x19.collect.state := by
    unfold x19
    dsimp only
    apply Collect.start_keeps
    with_reducible assumption
  clear_value x19
  have h20 : Keeps s₀ x20.collect.state := by
    unfold x20
    refine Keeps.foldlOn (fun u : Draining => u.collect.state) (fun x37 x38 x39 => ?_) _ ?_
    · apply Draining.put_keeps
      with_reducible assumption
    · with_reducible assumption
  clear_value x20
  have h21 : Keeps s₀ x21.state := by
    unfold x21
    apply Collect.flush_keeps
    with_reducible assumption
  clear_value x21
  clear_value x22
  clear_value x23
  clear_value x24
  clear_value x25
  clear_value x26
  clear_value x27
  clear_value x28
  clear_value x29
  clear_value x30
  clear_value x31
  have h32 : Keeps s₀ x32 := by
    unfold x32
    apply State.onCore_keeps
    with_reducible assumption
  clear_value x32
  have h33 : Keeps s₀ x33 := by
    unfold x33
    refine Keeps.foldl (fun x40 x41 x42 => ?_) _ ?_
    · apply State.bump_keeps
      with_reducible assumption
    · with_reducible assumption
  clear_value x33
  have h34 : Keeps s₀ x34 := by
    unfold x34
    apply State.tally_keeps
    with_reducible assumption
  clear_value x34
  have h35 : Keeps s₀ x35 := by
    unfold x35
    split
    · apply State.bump_keeps
      with_reducible assumption
    · with_reducible assumption
  clear_value x35
  have h36 : Keeps s₀ x36 := by
    unfold x36
    apply State.bump_keeps
    with_reducible assumption
  clear_value x36
  split
  · with_reducible assumption
  · dsimp only
    apply State.countDrain_keeps
    with_reducible assumption

/-! ### Attention -/

theorem stretch_keeps {s₀ s : State} (h : Keeps s₀ s) (f : Fetch) (r : Requester) (ws : Store 8) (ag : ℕ) (w : Walk)
    (pre : Elt → Option WalkFault) (k n : ℕ) :
    Keeps s₀ (stretch f s r ws ag w pre k n).state := by
  unfold stretch
  apply Fetch.run'_keeps
  with_reducible assumption

theorem Pass.takeS_keeps {s₀ : State} (x : Pass) (hx : Keeps s₀ x.state) (r : Requester) (ws : Store 8) (red : Bool)
    (a : AttnWords) (cls : Class) (edition : ℕ) (fa : ℕ) (fb : ℕ) (last : Bool) (j : ℕ) :
    Keeps s₀ (Pass.takeS x r ws red a cls edition fa fb last j).state := by
  unfold Pass.takeS
  extract_lets x1 x2 x3 x4 x5 x6 x7 x8 x9 x10 x11 x12 x13
  clear_value x1
  clear_value x2
  clear_value x3
  have h4 : Keeps s₀ x4.state := by
    unfold x4
    apply stretch_keeps
    with_reducible assumption
  clear_value x4
  clear_value x5
  clear_value x6
  have h7 : Keeps s₀ x7.state := by
    unfold x7
    apply stretch_keeps
    with_reducible assumption
  clear_value x7
  clear_value x8
  have h9 : Keeps s₀ x9.state := by
    unfold x9
    with_reducible assumption
  clear_value x9
  clear_value x10
  clear_value x11
  clear_value x13
  split
  · with_reducible assumption
  · with_reducible assumption

theorem Pass.takePV_keeps {s₀ : State} (x : Pass) (hx : Keeps s₀ x.state) (r : Requester) (ws : Store 8)
    (a : AttnWords) (cls : Class) (edition : ℕ) (j : ℕ) (s' : List (List (W32 × Ev))) (last : Bool) :
    Keeps s₀ (Pass.takePV x r ws a cls edition j s' last).state := by
  unfold Pass.takePV
  extract_lets x1 x2 x3 x4 x5 x6 x7 x8 x9 x10 x11
  clear_value x1
  clear_value x2
  clear_value x3
  have h4 : Keeps s₀ x4.state := by
    unfold x4
    apply stretch_keeps
    with_reducible assumption
  clear_value x4
  clear_value x5
  have h6 : Keeps s₀ x6.state := by
    unfold x6
    with_reducible assumption
  clear_value x6
  clear_value x7
  clear_value x8
  clear_value x9
  clear_value x10
  clear_value x11
  split
  · with_reducible assumption
  · split
    · with_reducible assumption
    · with_reducible assumption

theorem Pass.step_keeps {s₀ : State} (x : Pass) (hx : Keeps s₀ x.state) (r : Requester) (ws : Store 8) (red : Bool)
    (a : AttnWords) (cls : Class) (edition : ℕ) (fa : ℕ) (fb : ℕ) (last : Bool) (j : ℕ) :
    Keeps s₀ (Pass.step x r ws red a cls edition fa fb last j).state := by
  unfold Pass.step
  extract_lets x1 x2
  clear_value x1
  have h2 : Keeps s₀ x2.state := by
    unfold x2
    apply Pass.takeS_keeps
    with_reducible assumption
  clear_value x2
  split
  · apply Pass.takePV_keeps
    with_reducible assumption
  · with_reducible assumption

theorem Pass.skip_keeps {s₀ : State} (x : Pass) (hx : Keeps s₀ x.state) (d : ℕ) (j : ℕ) :
    Keeps s₀ (Pass.skip x d j).state := by
  unfold Pass.skip
  extract_lets x1
  clear_value x1
  split
  · with_reducible assumption
  · with_reducible assumption

theorem Pass.block_keeps {s₀ : State} (x : Pass) (hx : Keeps s₀ x.state) (r : Requester) (ws : Store 8) (red : Bool)
    (a : AttnWords) (cls : Class) (edition : ℕ) (fa : ℕ) (fb : ℕ) (j : ℕ) :
    Keeps s₀ (Pass.block x r ws red a cls edition fa fb j).state := by
  unfold Pass.block
  split
  · with_reducible assumption
  · split
    · apply Pass.step_keeps
      with_reducible assumption
    · apply Pass.skip_keeps
      with_reducible assumption

theorem Pass.finish_keeps {s₀ : State} (x : Pass) (hx : Keeps s₀ x.state) (r : Requester) (ws : Store 8)
    (a : AttnWords) (cls : Class) (edition : ℕ) :
    Keeps s₀ (Pass.finish x r ws a cls edition).state := by
  unfold Pass.finish
  extract_lets x1 x2
  have h1 : Keeps s₀ x1.state := by
    unfold x1
    split
    · apply Pass.takePV_keeps
      with_reducible assumption
    · with_reducible assumption
  clear_value x1
  clear_value x2
  with_reducible assumption

theorem Pass.leave_keeps {s₀ : State} (x : Pass) (hx : Keeps s₀ x.state) (core : ℕ) (p : ℕ) (a : AttnWords)
    (cls : Class) :
    Keeps s₀ (Pass.leave x core p a cls) := by
  unfold Pass.leave
  extract_lets x1 x2 x3 x4
  clear_value x2
  clear_value x3
  have h4 : Keeps s₀ x4 := by
    unfold x4
    apply State.onCore_keeps
    with_reducible assumption
  clear_value x4
  apply State.tally_keeps
  with_reducible assumption

theorem State.runAttn_keeps {s₀ : State} {s : State} (h : Keeps s₀ s) (core : ℕ) (j : StreamJob) :
    Keeps s₀ (State.runAttn s core j).1 := by
  unfold State.runAttn
  extract_lets x1 x2 x3 x4 x5 x6 x7 x8 x9 x10 x11 x12 x13 x14 x15
  clear_value x1
  clear_value x2
  clear_value x3
  clear_value x4
  clear_value x5
  clear_value x6
  clear_value x7
  clear_value x8
  clear_value x9
  have h10 : Keeps s₀ x10.state := by
    unfold x10
    with_reducible assumption
  clear_value x10
  have h11 : Keeps s₀ x11.state := by
    unfold x11
    refine Keeps.foldlOn Pass.state (fun x16 x17 x18 => ?_) _ ?_
    · apply Pass.block_keeps
      with_reducible assumption
    · with_reducible assumption
  clear_value x11
  have h12 : Keeps s₀ x12.state := by
    unfold x12
    apply Pass.finish_keeps
    with_reducible assumption
  clear_value x12
  have h13 : Keeps s₀ x13 := by
    unfold x13
    apply Pass.leave_keeps
    with_reducible assumption
  clear_value x13
  have h14 : Keeps s₀ x14 := by
    unfold x14
    apply State.bump_keeps
    apply State.bump_keeps
    with_reducible assumption
  clear_value x14
  have h15 : Keeps s₀ x15 := by
    unfold x15
    apply State.bump_keeps
    apply State.bump_keeps
    with_reducible assumption
  clear_value x15
  split
  · with_reducible assumption
  · dsimp only
    apply State.bump_keeps
    apply State.bump_keeps
    with_reducible assumption

end Sys2Proof.Machine
end

