-- ==== Sys2Proof/Laws/KeepsUnits.lean ====
section
/-! SUPPORT. What vector operations, sampling, updates, the fabric and the media engines keep (`Keeps`). -/

namespace Sys2Proof.Machine

/-! ### Sampler -/

theorem State.runSample_keeps {s₀ : State} {s : State} (h : Keeps s₀ s) (core : ℕ) (draw : W64) (rng : RngState)
    (line : ℕ) :
    Keeps s₀ (State.runSample s core draw rng line).1 := by
  unfold State.runSample
  extract_lets x1 x2 x3 x4 x5 x6 x7 x8 x9 x10 x11 x12 x13 x14
  clear_value x1
  clear_value x2
  clear_value x3
  clear_value x4
  clear_value x5
  clear_value x6
  clear_value x7
  clear_value x8
  clear_value x9
  clear_value x10
  clear_value x11
  have h12 : Keeps s₀ x12 := by
    unfold x12
    split
    · with_reducible assumption
    · apply State.usedFree_keeps
      apply State.usedFree_keeps
      apply State.usedFree_keeps
      apply State.usedFree_keeps
      with_reducible assumption
  clear_value x12
  have h13 : Keeps s₀ x13 := by
    unfold x13
    apply State.onCore_keeps
    with_reducible assumption
  clear_value x13
  have h14 : Keeps s₀ x14 := by
    unfold x14
    apply State.bump_keeps
    apply State.tally_keeps
    with_reducible assumption
  clear_value x14
  split
  · with_reducible assumption
  · dsimp only
    split
    · with_reducible assumption
    · apply State.event_keeps
      with_reducible assumption

/-! ### Update -/

theorem State.unitReadOf_keeps {s₀ : State} {s : State} (h : Keeps s₀ s) (core : ℕ) (p : ℕ) (a : W64) (n : ℕ)
    (taken : ℕ → Option ℕ) :
    Keeps s₀ (State.unitReadOf s core p a n taken).1 := by
  unfold State.unitReadOf
  split
  · with_reducible assumption
  · split
    · with_reducible assumption
    · extract_lets x1
      have h1 : Keeps s₀ x1.state := by
        unfold x1
        apply State.readView_keeps
        with_reducible assumption
      clear_value x1
      split
      · with_reducible assumption
      · with_reducible assumption

theorem State.unitRead_keeps {s₀ : State} {s : State} (h : Keeps s₀ s) (core : ℕ) (p : ℕ) (a : W64) (n : ℕ) :
    Keeps s₀ (State.unitRead s core p a n).1 := by
  unfold State.unitRead
  apply State.unitReadOf_keeps
  with_reducible assumption

theorem State.readEphemeris_keeps {s₀ : State} {s : State} (h : Keeps s₀ s) (core : ℕ) (p : ℕ) (cx : Ctx)
    (d : UpdateDesc) :
    Keeps s₀ (State.readEphemeris s core p cx d).1 := by
  unfold State.readEphemeris
  split
  · dsimp only
    refine Keeps.of_pair (by assumption) ?_
    apply State.unitRead_keeps
    with_reducible assumption
  · extract_lets x1 x2 x3
    clear_value x1
    clear_value x2
    clear_value x3
    split
    · dsimp only
      refine Keeps.of_pair (by assumption) ?_
      apply State.unitRead_keeps
      with_reducible assumption
    · split
      · dsimp only
        refine Keeps.of_pair (by assumption) ?_
        apply State.unitRead_keeps
        with_reducible assumption
      · split
        · dsimp only
          refine Keeps.of_pair (by assumption) ?_
          apply State.unitRead_keeps
          refine Keeps.of_pair (by assumption) ?_
          apply State.unitRead_keeps
          with_reducible assumption
        · extract_lets x4
          clear_value x4
          split
          · dsimp only
            refine Keeps.of_pair (by assumption) ?_
            apply State.unitRead_keeps
            refine Keeps.of_pair (by assumption) ?_
            apply State.unitRead_keeps
            with_reducible assumption
          · split
            · dsimp only
              refine Keeps.of_pair (by assumption) ?_
              apply State.unitRead_keeps
              refine Keeps.of_pair (by assumption) ?_
              apply State.unitRead_keeps
              with_reducible assumption
            · dsimp only
              refine Keeps.of_pair (by assumption) ?_
              apply State.unitRead_keeps
              refine Keeps.of_pair (by assumption) ?_
              apply State.unitRead_keeps
              with_reducible assumption

theorem State.unitReads_keeps {s₀ : State} {s : State} (h : Keeps s₀ s) (core : ℕ) (p n : ℕ) (live : List ℕ)
    (xs : List (W64 × ℕ)) :
    Keeps s₀ (State.unitReads s core p n live xs).1 := by
  induction xs generalizing s with
  | nil => exact h
  | cons x r ih =>
    obtain ⟨a, size⟩ := x
    unfold State.unitReads
    extract_lets at'
    have h1 := State.unitReadOf_keeps h core p a (wholeWords (size * n)) (fun cw => (live.find? (fun i => at' i / 64 == cw)).map at')
    split
    · rename_i e
      rw [e] at h1
      exact h1
    · rename_i e
      rw [e] at h1
      have h2 := ih h1
      split
      · rename_i e2
        rw [e2] at h2
        exact h2
      · rename_i e2
        rw [e2] at h2
        exact h2

theorem Updating.norm_keeps {s₀ : State} (x : Updating) (hx : Keeps s₀ x.state) (core : ℕ) (p : ℕ) (d : UpdateDesc)
    (e : Ephemeris) (ob1 : W32) (k0 : ℕ) :
    Keeps s₀ (Updating.norm x core p d e ob1 k0).state := by
  unfold Updating.norm
  split
  · with_reducible assumption
  · extract_lets x1 x2 x3
    clear_value x1
    clear_value x2
    clear_value x3
    split
    · dsimp only
      refine Keeps.of_pair (by assumption) ?_
      apply State.unitRead_keeps
      with_reducible assumption
    · extract_lets x4 x5
      clear_value x4
      have h5 : Keeps s₀ x5.state := by
        unfold x5
        dsimp only
        refine Keeps.of_pair (by assumption) ?_
        apply State.unitRead_keeps
        with_reducible assumption
      clear_value x5
      split
      · with_reducible assumption
      · split
        · dsimp only
          refine Keeps.of_pair (by assumption) ?_
          apply State.unitReads_keeps
          with_reducible assumption
        · extract_lets x6
          clear_value x6
          dsimp only
          refine Keeps.of_pair (by assumption) ?_
          apply State.unitReads_keeps
          with_reducible assumption

theorem State.writeRun_keeps {s₀ : State} {s : State} (h : Keeps s₀ s) (core : ℕ) (p : ℕ) (a : W64) (bs : List Byte) :
    Keeps s₀ (State.writeRun s core p a bs).1 := by
  unfold State.writeRun
  extract_lets x1 x2 x3
  clear_value x2
  clear_value x3
  dsimp only
  apply State.writeView_keeps
  with_reducible assumption

theorem State.writeLive_keeps {s₀ : State} {s : State} (h : Keeps s₀ s) (core : ℕ) (p : ℕ) (base : W64) (size : ℕ)
    (bs : List Byte) (live : List ℕ) :
    Keeps s₀ (State.writeLive s core p base size bs live).1 := by
  unfold State.writeLive
  extract_lets x1
  clear_value x1
  refine Keeps.foldl1 (fun x2 x3 x4 => ?_) _ ?_
  · split
    · with_reducible assumption
    · apply State.writeRun_keeps
      with_reducible assumption
  · with_reducible assumption

theorem Updating.apply_keeps {s₀ : State} (x : Updating) (hx : Keeps s₀ x.state) (core : ℕ) (p : ℕ) (d : UpdateDesc)
    (e : Ephemeris) (ob1 : W32) (ob2 : W32) (kf : W32) (k0 : ℕ) :
    Keeps s₀ (Updating.apply x core p d e ob1 ob2 kf k0).state := by
  unfold Updating.apply
  split
  · with_reducible assumption
  · extract_lets x1 x2 x3
    clear_value x1
    clear_value x2
    clear_value x3
    split
    · dsimp only
      refine Keeps.of_pair (by assumption) ?_
      apply State.unitRead_keeps
      with_reducible assumption
    · extract_lets x4 x5
      clear_value x4
      have h5 : Keeps s₀ x5.state := by
        unfold x5
        dsimp only
        refine Keeps.of_pair (by assumption) ?_
        apply State.unitRead_keeps
        with_reducible assumption
      clear_value x5
      split
      · with_reducible assumption
      · split
        · dsimp only
          refine Keeps.of_pair (by assumption) ?_
          apply State.unitReads_keeps
          with_reducible assumption
        · extract_lets x6 x7 x8 x9 x10 x11 x12 x13 x14 x15
          clear_value x6
          clear_value x7
          clear_value x8
          clear_value x9
          clear_value x10
          clear_value x11
          clear_value x12
          have h13 : Keeps s₀ x13.1 := by
            unfold x13
            apply State.writeLive_keeps
            refine Keeps.of_pair (by assumption) ?_
            apply State.unitReads_keeps
            with_reducible assumption
          clear_value x13
          have h14 : Keeps s₀ x14.1 := by
            unfold x14
            split
            · with_reducible assumption
            · apply State.writeLive_keeps
              with_reducible assumption
          clear_value x14
          have h15 : Keeps s₀ x15.1 := by
            unfold x15
            split
            · with_reducible assumption
            · apply State.writeLive_keeps
              with_reducible assumption
          clear_value x15
          with_reducible assumption

theorem Updating.start_keeps {s₀ : State} {s : State} (h : Keeps s₀ s) :
    Keeps s₀ (Updating.start s).state := by
  unfold Updating.start
  with_reducible assumption

theorem State.countUpdate_keeps {s₀ : State} {s : State} (h : Keeps s₀ s) (core : ℕ) (x : Updating)
    (hx : Keeps s₀ x.state) :
    Keeps s₀ (State.countUpdate s core x) := by
  unfold State.countUpdate
  apply State.bump_keeps
  apply State.bump_keeps
  apply State.bump_keeps
  with_reducible assumption

theorem State.writeDesc_keeps {s₀ : State} {s : State} (h : Keeps s₀ s) (core : ℕ) (line : ℕ) (result : ℕ)
    (qexpAmax : Option (ℕ × W32)) (frozen : Option ℕ) :
    Keeps s₀ (State.writeDesc s core line result qexpAmax frozen) := by
  unfold State.writeDesc
  extract_lets x1
  clear_value x1
  apply State.onCore_keeps
  with_reducible assumption

theorem State.runNorm_keeps {s₀ : State} {s : State} (h : Keeps s₀ s) (core : ℕ) (p : ℕ) (cx : Ctx) (line : ℕ)
    (d : UpdateDesc) :
    Keeps s₀ (State.runNorm s core p cx line d).1 := by
  unfold State.runNorm
  split
  · dsimp only
    refine Keeps.of_pair (by assumption) ?_
    apply State.readEphemeris_keeps
    with_reducible assumption
  · extract_lets x1 x2 x3 x4 x5
    clear_value x1
    have h2 : Keeps s₀ x2.state := by
      unfold x2
      refine Keeps.foldlOn Updating.state (fun x6 x7 x8 => ?_) _ ?_
      · apply Updating.norm_keeps
        with_reducible assumption
      · apply Updating.start_keeps
        refine Keeps.of_pair (by assumption) ?_
        apply State.readEphemeris_keeps
        with_reducible assumption
    clear_value x2
    clear_value x3
    have h4 : Keeps s₀ x4 := by
      unfold x4
      apply State.onCore_keeps
      with_reducible assumption
    clear_value x4
    have h5 : Keeps s₀ x5 := by
      unfold x5
      apply State.tally_keeps
      with_reducible assumption
    clear_value x5
    split
    · dsimp only
      apply State.countUpdate_keeps
      · apply State.tally_keeps
        with_reducible assumption
      · with_reducible assumption
    · dsimp only
      apply State.writeDesc_keeps
      apply State.countUpdate_keeps
      · with_reducible assumption
      · with_reducible assumption

theorem Updating.passOver_keeps {s₀ : State} (x : Updating) (hx : Keeps s₀ x.state) (core : ℕ) (p : ℕ)
    (d : UpdateDesc) (k0 : ℕ) :
    Keeps s₀ (Updating.passOver x core p d k0).state := by
  unfold Updating.passOver
  split
  · with_reducible assumption
  · split
    · dsimp only
      refine Keeps.of_pair (by assumption) ?_
      apply State.unitRead_keeps
      with_reducible assumption
    · extract_lets x1
      clear_value x1
      dsimp only
      refine Keeps.of_pair (by assumption) ?_
      apply State.unitRead_keeps
      with_reducible assumption

theorem State.runApply_keeps {s₀ : State} {s : State} (h : Keeps s₀ s) (core : ℕ) (p : ℕ) (cx : Ctx) (line : ℕ)
    (d : UpdateDesc) :
    Keeps s₀ (State.runApply s core p cx line d).1 := by
  unfold State.runApply
  split
  · dsimp only
    refine Keeps.of_pair (by assumption) ?_
    apply State.readEphemeris_keeps
    with_reducible assumption
  · split
    · extract_lets x1 x2
      have h1 : Keeps s₀ x1.state := by
        unfold x1
        refine Keeps.foldlOn Updating.state (fun x3 x4 x5 => ?_) _ ?_
        · apply Updating.passOver_keeps
          with_reducible assumption
        · apply Updating.start_keeps
          refine Keeps.of_pair (by assumption) ?_
          apply State.readEphemeris_keeps
          with_reducible assumption
      clear_value x1
      have h2 : Keeps s₀ x2 := by
        unfold x2
        apply State.countUpdate_keeps
        · with_reducible assumption
        · with_reducible assumption
      clear_value x2
      split
      · with_reducible assumption
      · dsimp only
        apply State.writeDesc_keeps
        apply State.event_keeps
        with_reducible assumption
    · extract_lets x6 x7 x8 x9 x10
      clear_value x6
      clear_value x7
      clear_value x8
      have h9 : Keeps s₀ x9.state := by
        unfold x9
        refine Keeps.foldlOn Updating.state (fun x11 x12 x13 => ?_) _ ?_
        · apply Updating.apply_keeps
          with_reducible assumption
        · apply Updating.start_keeps
          refine Keeps.of_pair (by assumption) ?_
          apply State.readEphemeris_keeps
          with_reducible assumption
      clear_value x9
      have h10 : Keeps s₀ x10 := by
        unfold x10
        apply State.countUpdate_keeps
        · apply State.tally_keeps
          with_reducible assumption
        · with_reducible assumption
      clear_value x10
      split
      · with_reducible assumption
      · dsimp only
        apply State.writeDesc_keeps
        apply State.bump_keeps
        with_reducible assumption

theorem State.runScale_keeps {s₀ : State} {s : State} (h : Keeps s₀ s) (core : ℕ) (p : ℕ) (line : ℕ)
    (d : UpdateDesc) :
    Keeps s₀ (State.runScale s core p line d).1 := by
  unfold State.runScale
  extract_lets x1 x2 x3 x4
  have h1 : Keeps s₀ x1.1 := by
    unfold x1
    split
    · with_reducible assumption
    · apply State.unitRead_keeps
      with_reducible assumption
  clear_value x1
  clear_value x2
  clear_value x3
  clear_value x4
  split
  · with_reducible assumption
  · extract_lets x5 x6 x7 x8 x9 x10 x11 x12 x13
    clear_value x5
    have h6 : Keeps s₀ x6 := by
      unfold x6
      split
      · with_reducible assumption
      · apply State.writeView_keeps
        with_reducible assumption
    clear_value x6
    clear_value x7
    clear_value x8
    clear_value x9
    have h10 : Keeps s₀ x10 := by
      unfold x10
      split
      · apply State.event_keeps
        with_reducible assumption
      · with_reducible assumption
    clear_value x10
    clear_value x11
    have h12 : Keeps s₀ x12 := by
      unfold x12
      split
      · apply State.event_keeps
        with_reducible assumption
      · with_reducible assumption
    clear_value x12
    have h13 : Keeps s₀ x13 := by
      unfold x13
      apply State.bump_keeps
      with_reducible assumption
    clear_value x13
    split
    · with_reducible assumption
    · dsimp only
      apply State.writeDesc_keeps
      with_reducible assumption

theorem State.runUpdate_keeps {s₀ : State} {s : State} (h : Keeps s₀ s) (core : ℕ) (func : ℕ) (line : ℕ)
    (desc : List Byte) :
    Keeps s₀ (State.runUpdate s core func line desc).1 := by
  unfold State.runUpdate
  extract_lets x1 x2 x3 x4
  clear_value x1
  clear_value x2
  clear_value x3
  have h4 : Keeps s₀ x4.1 := by
    unfold x4
    split
    · apply State.runNorm_keeps
      with_reducible assumption
    · apply State.runApply_keeps
      with_reducible assumption
    · apply State.runScale_keeps
      with_reducible assumption
  clear_value x4
  split
  · with_reducible assumption
  · dsimp only
    apply State.bump_keeps
    with_reducible assumption

/-! ### Fabric -/

theorem State.putLink_keeps {s₀ : State} {s : State} (h : Keeps s₀ s) (l : FabricLink) :
    Keeps s₀ (State.putLink s l) := by
  unfold State.putLink
  refine Keeps.of_eq (u := s) rfl rfl rfl rfl rfl rfl ?_
  with_reducible assumption

theorem State.sendHs_keeps {s₀ : State} {s : State} (h : Keeps s₀ s) (path : HsPath) (type : ℕ) (id : W32)
    (bs : List Byte) :
    Keeps s₀ (State.sendHs s path type id bs) := by
  unfold State.sendHs
  refine Keeps.foldl (fun x1 x2 x3 => ?_) _ ?_
  · apply State.send_keeps
    with_reducible assumption
  · with_reducible assumption

theorem State.grantCredits_keeps {s₀ : State} {s : State} (h : Keeps s₀ s) (l : FabricLink) :
    Keeps s₀ (State.grantCredits s l).1 := by
  unfold State.grantCredits
  extract_lets x1
  clear_value x1
  dsimp only
  apply State.send_keeps
  apply State.usedFree_keeps
  with_reducible assumption

theorem State.initiate_keeps {s₀ : State} {s : State} (h : Keeps s₀ s) (peer : W16) :
    Keeps s₀ (State.initiate s peer).1 := by
  unfold State.initiate
  extract_lets x1 x2 x3 x4 x5 x6 x7 x8 x9 x10 x11 x12 x13 x14 x15 x16 x17 x18
  clear_value x1
  clear_value x2
  clear_value x3
  clear_value x4
  clear_value x5
  have h6 : Keeps s₀ x6 := by
    unfold x6
    apply State.usedFree_keeps
    with_reducible assumption
  clear_value x6
  have h7 : Keeps s₀ x7 := by
    unfold x7
    apply State.sendHs_keeps
    refine Keeps.of_eq (u := x6) rfl rfl rfl rfl rfl rfl ?_
    with_reducible assumption
  clear_value x7
  clear_value x8
  clear_value x9
  clear_value x10
  clear_value x11
  clear_value x12
  have h13 : Keeps s₀ x13 := by
    unfold x13
    apply State.usedFree_keeps
    apply State.usedFree_keeps
    apply State.usedFree_keeps
    apply State.usedFree_keeps
    apply State.usedFree_keeps
    with_reducible assumption
  clear_value x13
  clear_value x14
  clear_value x15
  clear_value x16
  have h17 : Keeps s₀ x17 := by
    unfold x17
    apply State.bump_keeps
    apply State.sendHs_keeps
    apply State.usedFree_keeps
    with_reducible assumption
  clear_value x17
  clear_value x18
  split
  · dsimp only
    apply State.bump32_keeps
    with_reducible assumption
  · split
    · dsimp only
      apply State.bump32_keeps
      with_reducible assumption
    · extract_lets x19 x20
      have h19 : Keeps s₀ x19.1 := by
        unfold x19
        apply State.grantCredits_keeps
        apply State.usedFree_keeps
        with_reducible assumption
      clear_value x19
      have h20 : Keeps s₀ x20 := by
        unfold x20
        with_reducible assumption
      clear_value x20
      dsimp only
      refine Keeps.of_eq (u := x20) rfl rfl rfl rfl rfl rfl ?_
      with_reducible assumption

theorem State.reach_keeps {s₀ : State} {s : State} (h : Keeps s₀ s) (peer : W16) :
    Keeps s₀ (State.reach s peer).1 := by
  unfold State.reach
  split
  · with_reducible assumption
  · split
    · with_reducible assumption
    · split
      · with_reducible assumption
      · split
        · dsimp only
          refine Keeps.of_pair (by assumption) ?_
          apply State.initiate_keeps
          with_reducible assumption
        · dsimp only
          refine Keeps.of_pair (by assumption) ?_
          apply State.initiate_keeps
          with_reducible assumption

theorem State.putPkt_keeps {s₀ : State} {s : State} (h : Keeps s₀ s) (k : FabricPkt) :
    Keeps s₀ (State.putPkt s k) := by
  unfold State.putPkt
  refine Keeps.of_eq (u := s) rfl rfl rfl rfl rfl rfl ?_
  with_reducible assumption

theorem State.sendPkt_keeps {s₀ : State} {s : State} (h : Keeps s₀ s) (k : FabricPkt) :
    Keeps s₀ (State.sendPkt s k) := by
  unfold State.sendPkt
  extract_lets x1
  clear_value x1
  apply State.send_keeps
  with_reducible assumption

theorem State.launch_keeps {s₀ : State} {s : State} (h : Keeps s₀ s) (k : FabricPkt) (credit : Bool) :
    Keeps s₀ (State.launch s k credit) := by
  unfold State.launch
  extract_lets x1
  clear_value x1
  apply State.sendPkt_keeps
  apply State.bump_keeps
  apply State.putPkt_keeps
  with_reducible assumption

theorem State.route_keeps {s₀ : State} {s : State} (h : Keeps s₀ s) (l : FabricLink) (k : FabricPkt) :
    Keeps s₀ (State.route s l k).1 := by
  unfold State.route
  extract_lets x1 x2 x3 x4 x5
  clear_value x1
  clear_value x2
  clear_value x3
  clear_value x4
  clear_value x5
  split
  · dsimp only
    apply State.putPkt_keeps
    apply State.timingChoice_keeps
    apply State.usedFree_keeps
    apply State.usedFree_keeps
    with_reducible assumption
  · dsimp only
    apply State.putPkt_keeps
    with_reducible assumption

theorem State.tryPkt_keeps {s₀ : State} {s : State} (h : Keeps s₀ s) (k : FabricPkt) :
    Keeps s₀ (State.tryPkt s k) := by
  unfold State.tryPkt
  split
  · with_reducible assumption
  · extract_lets x1
    have h1 : Keeps s₀ x1.1 := by
      unfold x1
      split
      · with_reducible assumption
      · apply State.route_keeps
        with_reducible assumption
    clear_value x1
    split
    · with_reducible assumption
    · apply State.launch_keeps
      apply State.putLink_keeps
      with_reducible assumption

theorem State.newPkt_keeps {s₀ : State} {s : State} (h : Keeps s₀ s) (o : FabricOp) (peer : W16) (m : FabricMsg) :
    Keeps s₀ (State.newPkt s o peer m) := by
  unfold State.newPkt
  extract_lets x1
  clear_value x1
  apply State.tryPkt_keeps
  refine Keeps.of_eq (u := s) rfl rfl rfl rfl rfl rfl ?_
  with_reducible assumption

theorem State.returnCredit_keeps {s₀ : State} {s : State} (h : Keeps s₀ s) (k : FabricPkt) :
    Keeps s₀ (State.returnCredit s k) := by
  unfold State.returnCredit
  split
  · with_reducible assumption
  · split
    · with_reducible assumption
    · split
      · apply State.launch_keeps
        with_reducible assumption
      · apply State.putLink_keeps
        with_reducible assumption

theorem State.endPkt_keeps {s₀ : State} {s : State} (h : Keeps s₀ s) (k : FabricPkt) :
    Keeps s₀ (State.endPkt s k) := by
  unfold State.endPkt
  apply State.returnCredit_keeps
  refine Keeps.of_eq (u := s) rfl rfl rfl rfl rfl rfl ?_
  with_reducible assumption

theorem State.dropPkts_keeps {s₀ : State} {s : State} (h : Keeps s₀ s) (op : ℕ) :
    Keeps s₀ (State.dropPkts s op) := by
  unfold State.dropPkts
  extract_lets x1
  clear_value x1
  refine Keeps.foldl (fun x2 x3 x4 => ?_) _ ?_
  · apply State.returnCredit_keeps
    with_reducible assumption
  · refine Keeps.of_eq (u := s) rfl rfl rfl rfl rfl rfl ?_
    with_reducible assumption

theorem State.setOp_keeps {s₀ : State} {s : State} (h : Keeps s₀ s) (o : FabricOp) :
    Keeps s₀ (State.setOp s o) := by
  unfold State.setOp
  refine Keeps.of_eq (u := s) rfl rfl rfl rfl rfl rfl ?_
  with_reducible assumption

theorem State.failFabric_keeps {s₀ : State} {s : State} (h : Keeps s₀ s) (o : FabricOp) (code : ℕ) (detail : W64) :
    Keeps s₀ (State.failFabric s o code detail) := by
  unfold State.failFabric
  extract_lets x1
  have h1 : Keeps s₀ x1 := by
    unfold x1
    apply State.dropPkts_keeps
    refine Keeps.of_eq (u := s) rfl rfl rfl rfl rfl rfl ?_
    with_reducible assumption
  clear_value x1
  apply State.atRank_keeps
  with_reducible assumption

theorem State.finishFabric_keeps {s₀ : State} {s : State} (h : Keeps s₀ s) (o : FabricOp) (status : ℕ) :
    Keeps s₀ (State.finishFabric s o status) := by
  unfold State.finishFabric
  apply State.dropPkts_keeps
  apply State.setOp_keeps
  with_reducible assumption

theorem State.closeOp_keeps {s₀ : State} {s : State} (h : Keeps s₀ s) (id : ℕ) :
    Keeps s₀ (State.closeOp s id) := by
  unfold State.closeOp
  split
  · with_reducible assumption
  · split
    · apply State.setOp_keeps
      with_reducible assumption
    · apply State.finishFabric_keeps
      with_reducible assumption

theorem State.sendTo_keeps {s₀ : State} {s : State} (h : Keeps s₀ s) (o : FabricOp) (peer : W16)
    (ms : List FabricMsg) :
    Keeps s₀ (State.sendTo s o peer ms) := by
  unfold State.sendTo
  split
  · apply State.failFabric_keeps
    refine Keeps.of_pair (by assumption) ?_
    apply State.reach_keeps
    with_reducible assumption
  · refine Keeps.foldl (fun x1 x2 x3 => ?_) _ ?_
    · apply State.newPkt_keeps
      with_reducible assumption
    · refine Keeps.of_pair (by assumption) ?_
      apply State.reach_keeps
      with_reducible assumption

theorem State.failPeer_keeps {s₀ : State} {s : State} (h : Keeps s₀ s) (peer : W16) :
    Keeps s₀ (State.failPeer s peer) := by
  unfold State.failPeer
  extract_lets x1 x2
  clear_value x1
  have h2 : Keeps s₀ x2 := by
    unfold x2
    refine Keeps.foldl (fun x3 x4 x5 => ?_) _ ?_
    · apply State.failFabric_keeps
      with_reducible assumption
    · with_reducible assumption
  clear_value x2
  refine Keeps.of_eq (u := x2) rfl rfl rfl rfl rfl rfl ?_
  with_reducible assumption

theorem State.linkOpened_keeps {s₀ : State} {s : State} (h : Keeps s₀ s) (peer : W16) :
    Keeps s₀ (State.linkOpened s peer) := by
  unfold State.linkOpened
  refine Keeps.foldl (fun x1 x2 x3 => ?_) _ ?_
  · apply State.tryPkt_keeps
    with_reducible assumption
  · with_reducible assumption

theorem State.addRelaxed_keeps {s₀ : State} {s : State} (h : Keeps s₀ s) (o : FabricOp) (n : ℕ × ℕ × List W32) :
    Keeps s₀ (State.addRelaxed s o n).1 := by
  unfold State.addRelaxed
  extract_lets x1
  clear_value x1
  split
  · with_reducible assumption
  · extract_lets x2 x3 x4 x5
    clear_value x3
    clear_value x4
    clear_value x5
    dsimp only
    split
    · with_reducible assumption
    · apply State.resultChoice_keeps
      with_reducible assumption

theorem State.writeResult_keeps {s₀ : State} {s : State} (h : Keeps s₀ s) (o : FabricOp) (off : ℕ) (bs : List Byte) :
    Keeps s₀ (State.writeResult s o off bs) := by
  unfold State.writeResult
  apply State.writeView_keeps
  with_reducible assumption

theorem State.sendResult_keeps {s₀ : State} {s : State} (h : Keeps s₀ s) (o : FabricOp) (bs : List Byte) :
    Keeps s₀ (State.sendResult s o bs) := by
  unfold State.sendResult
  split
  · with_reducible assumption
  · extract_lets x1
    clear_value x1
    apply State.closeOp_keeps
    refine Keeps.foldl (fun x2 x3 x4 => ?_) _ ?_
    · split
      · with_reducible assumption
      · apply State.sendTo_keeps
        with_reducible assumption
    · with_reducible assumption

theorem State.rootFormed_keeps {s₀ : State} {s : State} (h : Keeps s₀ s) (o : FabricOp) (xs : List W32) :
    Keeps s₀ (State.rootFormed s o xs) := by
  unfold State.rootFormed
  extract_lets x1 x2
  have h1 : Keeps s₀ x1 := by
    unfold x1
    apply State.tally_keeps
    with_reducible assumption
  clear_value x1
  have h2 : Keeps s₀ x2 := by
    unfold x2
    apply State.writeResult_keeps
    with_reducible assumption
  clear_value x2
  split
  · apply State.sendResult_keeps
    with_reducible assumption
  · apply State.closeOp_keeps
    with_reducible assumption

theorem State.sendNodes_keeps {s₀ : State} {s : State} (h : Keeps s₀ s) (o : FabricOp) :
    Keeps s₀ (State.sendNodes s o) := by
  unfold State.sendNodes
  extract_lets x1 x2 x3
  clear_value x1
  clear_value x2
  have h3 : Keeps s₀ x3 := by
    unfold x3
    apply State.setOp_keeps
    with_reducible assumption
  clear_value x3
  split
  · with_reducible assumption
  · extract_lets x4
    have h4 : Keeps s₀ x4 := by
      unfold x4
      refine Keeps.foldl (fun x5 x6 x7 => ?_) _ ?_
      · split
        · with_reducible assumption
        · extract_lets x8
          clear_value x8
          apply State.sendTo_keeps
          with_reducible assumption
      · with_reducible assumption
    clear_value x4
    split
    · apply State.closeOp_keeps
      apply State.tally_keeps
      with_reducible assumption
    · with_reducible assumption

theorem State.advance_keeps {s₀ : State} {s : State} (h : Keeps s₀ s) (o : FabricOp) :
    Keeps s₀ (State.advance s o) := by
  unfold State.advance
  split
  · split
    · apply State.rootFormed_keeps
      apply State.setOp_keeps
      with_reducible assumption
    · apply State.sendNodes_keeps
      apply State.setOp_keeps
      with_reducible assumption
  · apply State.sendNodes_keeps
    apply State.setOp_keeps
    with_reducible assumption

theorem State.takeNode_keeps {s₀ : State} {s : State} (h : Keeps s₀ s) (o : FabricOp) (n : ℕ × ℕ × List W32) :
    Keeps s₀ (State.takeNode s o n) := by
  unfold State.takeNode
  split
  · apply State.finishFabric_keeps
    with_reducible assumption
  · split
    · extract_lets x1
      have h1 : Keeps s₀ x1.1 := by
        unfold x1
        apply State.addRelaxed_keeps
        with_reducible assumption
      clear_value x1
      apply State.advance_keeps
      with_reducible assumption
    · extract_lets x2
      clear_value x2
      apply State.advance_keeps
      with_reducible assumption

theorem State.takePart_keeps {s₀ : State} {s : State} (h : Keeps s₀ s) (o : FabricOp) (first : ℕ) (count : ℕ)
    (pos : ℕ) (xs : List W32) :
    Keeps s₀ (State.takePart s o first count pos xs) := by
  unfold State.takePart
  extract_lets x1 x2 x3 x4
  clear_value x2
  clear_value x3
  clear_value x4
  split
  · apply State.setOp_keeps
    with_reducible assumption
  · apply State.takeNode_keeps
    apply State.setOp_keeps
    with_reducible assumption

theorem State.takeResult_keeps {s₀ : State} {s : State} (h : Keeps s₀ s) (o : FabricOp) (off : ℕ) (bs : List Byte) :
    Keeps s₀ (State.takeResult s o off bs) := by
  unfold State.takeResult
  extract_lets x1 x2
  clear_value x1
  have h2 : Keeps s₀ x2 := by
    unfold x2
    apply State.writeResult_keeps
    apply State.setOp_keeps
    with_reducible assumption
  clear_value x2
  split
  · with_reducible assumption
  · apply State.finishFabric_keeps
    with_reducible assumption

theorem State.sourceBytes_keeps {s₀ : State} {s : State} (h : Keeps s₀ s) (p : ℕ) (addr : W64) (n : ℕ) :
    Keeps s₀ (State.sourceBytes s p addr n).1 := by
  unfold State.sourceBytes
  split
  · with_reducible assumption
  · extract_lets x1
    have h1 : Keeps s₀ x1.state := by
      unfold x1
      apply State.readView_keeps
      with_reducible assumption
    clear_value x1
    split
    · with_reducible assumption
    · with_reducible assumption

theorem State.startPut_keeps {s₀ : State} {s : State} (h : Keeps s₀ s) (o : FabricOp) (g : Group) :
    Keeps s₀ (State.startPut s o g) := by
  unfold State.startPut
  extract_lets x1 x2 x3 x4 x5
  clear_value x1
  have h2 : Keeps s₀ x2.1 := by
    unfold x2
    apply State.sourceBytes_keeps
    with_reducible assumption
  clear_value x2
  clear_value x3
  have h4 : Keeps s₀ x4 := by
    unfold x4
    with_reducible assumption
  clear_value x4
  have h5 : Keeps s₀ x5 := by
    unfold x5
    apply State.sendTo_keeps
    with_reducible assumption
  clear_value x5
  split
  · split
    · apply State.failFabric_keeps
      with_reducible assumption
    · split
      · apply State.finishFabric_keeps
        apply State.writeView_keeps
        with_reducible assumption
      · apply State.finishFabric_keeps
        apply State.bump_keeps
        with_reducible assumption
  · split
    · split
      · with_reducible assumption
      · apply State.failFabric_keeps
        with_reducible assumption
    · apply State.closeOp_keeps
      with_reducible assumption

theorem State.startReduce_keeps {s₀ : State} {s : State} (h : Keeps s₀ s) (o : FabricOp) :
    Keeps s₀ (State.startReduce s o) := by
  unfold State.startReduce
  extract_lets x1 x2 x3 x4 x5 x6 x7 x8 x9
  clear_value x1
  clear_value x2
  have h3 : Keeps s₀ x3.1 := by
    unfold x3
    apply State.sourceBytes_keeps
    with_reducible assumption
  clear_value x3
  clear_value x5
  clear_value x6
  clear_value x7
  have h8 : Keeps s₀ x8.1 := by
    unfold x8
    refine Keeps.foldl1 (fun x10 x11 x12 => ?_) _ ?_
    · apply State.addRelaxed_keeps
      with_reducible assumption
    · with_reducible assumption
  clear_value x8
  have h9 : Keeps s₀ x9 := by
    unfold x9
    split
    · apply State.advance_keeps
      with_reducible assumption
    · apply State.advance_keeps
      with_reducible assumption
  clear_value x9
  split
  · apply State.failFabric_keeps
    with_reducible assumption
  · split
    · apply State.finishFabric_keeps
      with_reducible assumption
    · refine Keeps.foldl (fun x13 x14 x15 => ?_) _ ?_
      · split
        · split
          · apply State.takePart_keeps
            with_reducible assumption
          · with_reducible assumption
        · with_reducible assumption
      · with_reducible assumption

theorem State.startBroadcast_keeps {s₀ : State} {s : State} (h : Keeps s₀ s) (o : FabricOp) (g : Group) :
    Keeps s₀ (State.startBroadcast s o g) := by
  unfold State.startBroadcast
  split
  · extract_lets x1 x2
    clear_value x1
    clear_value x2
    refine Keeps.foldl (fun x3 x4 x5 => ?_) _ ?_
    · split
      · split
        · apply State.takeResult_keeps
          with_reducible assumption
        · with_reducible assumption
      · with_reducible assumption
    · apply State.setOp_keeps
      with_reducible assumption
  · extract_lets x6
    have h6 : Keeps s₀ x6.1 := by
      unfold x6
      apply State.sourceBytes_keeps
      with_reducible assumption
    clear_value x6
    split
    · apply State.failFabric_keeps
      with_reducible assumption
    · apply State.sendResult_keeps
      apply State.writeResult_keeps
      with_reducible assumption

theorem State.reopenColl_keeps {s₀ : State} {s : State} (h : Keeps s₀ s) (ctx : ℕ) (coll : W64) :
    Keeps s₀ (State.reopenColl s ctx coll) := by
  unfold State.reopenColl
  apply State.onCtx_keeps
  with_reducible assumption

theorem State.startFabric_keeps {s₀ : State} {s : State} (h : Keeps s₀ s) (o : FabricOp) :
    Keeps s₀ (State.startFabric s o) := by
  unfold State.startFabric
  extract_lets x1 x2 x3 x4 x5
  clear_value x2
  have h4 : Keeps s₀ x4 := by
    unfold x4
    refine Keeps.of_eq (u := s) rfl rfl rfl rfl rfl rfl ?_
    with_reducible assumption
  clear_value x4
  have h5 : Keeps s₀ x5 := by
    unfold x5
    split
    · with_reducible assumption
    · apply State.reopenColl_keeps
      with_reducible assumption
  clear_value x5
  split
  · with_reducible assumption
  · refine Keeps.ite (fun _ => ?_) (fun _ => ?_)
    · apply State.failFabric_keeps
      with_reducible assumption
    · split
      · apply State.finishFabric_keeps
        with_reducible assumption
      · split
        · apply State.startPut_keeps
          with_reducible assumption
        · split
          · apply State.startBroadcast_keeps
            with_reducible assumption
          · apply State.startReduce_keeps
            with_reducible assumption

theorem State.early_keeps {s₀ : State} {s : State} (h : Keeps s₀ s) (ctx : ℕ) (coll : W64) :
    Keeps s₀ (State.early s ctx coll).1 := by
  unfold State.early
  split
  · with_reducible assumption
  · split
    · with_reducible assumption
    · extract_lets x1
      clear_value x1
      dsimp only
      refine Keeps.of_eq (u := s) rfl rfl rfl rfl rfl rfl ?_
      with_reducible assumption

theorem State.refuse_keeps {s₀ : State} {s : State} (h : Keeps s₀ s) (src : W16) (packet : ℕ) (p : Option ℕ) :
    Keeps s₀ (State.refuse s src packet p) := by
  unfold State.refuse
  extract_lets x1
  have h1 : Keeps s₀ x1 := by
    unfold x1
    apply State.send_keeps
    with_reducible assumption
  clear_value x1
  split
  · apply State.bump_keeps
    with_reducible assumption
  · with_reducible assumption

theorem State.accept_keeps {s₀ : State} {s : State} (h : Keeps s₀ s) (src : W16) (packet : ℕ) :
    Keeps s₀ (State.accept s src packet) := by
  unfold State.accept
  extract_lets x1
  have h1 : Keeps s₀ x1 := by
    unfold x1
    split
    · with_reducible assumption
    · apply State.putLink_keeps
      with_reducible assumption
  clear_value x1
  apply State.send_keeps
  with_reducible assumption

theorem State.resultArrives_keeps {s₀ : State} {s : State} (h : Keeps s₀ s) (src : W16) (packet : ℕ) (n : ℕ)
    (scope : W16) (coll : W64) (off : ℕ) (bs : List Byte) :
    Keeps s₀ (State.resultArrives s src packet n scope coll off bs) := by
  unfold State.resultArrives
  split
  · apply State.accept_keeps
    with_reducible assumption
  · extract_lets x1 x2
    have h1 : Keeps s₀ x1.1 := by
      unfold x1
      apply State.early_keeps
      with_reducible assumption
    clear_value x1
    clear_value x2
    split
    · split
      · apply State.accept_keeps
        apply State.setOp_keeps
        with_reducible assumption
      · apply State.refuse_keeps
        with_reducible assumption
    · split
      · apply State.refuse_keeps
        with_reducible assumption
      · apply State.accept_keeps
        apply State.takeResult_keeps
        with_reducible assumption

theorem State.nodeArrives_keeps {s₀ : State} {s : State} (h : Keeps s₀ s) (src : W16) (packet : ℕ) (n : ℕ)
    (coll : W64) (first : ℕ) (count : ℕ) (pos : ℕ) (xs : List W32) :
    Keeps s₀ (State.nodeArrives s src packet n coll first count pos xs) := by
  unfold State.nodeArrives
  extract_lets x1 x2 x3
  have h1 : Keeps s₀ x1 := by
    unfold x1
    apply State.accept_keeps
    with_reducible assumption
  clear_value x1
  have h2 : Keeps s₀ x2.1 := by
    unfold x2
    apply State.early_keeps
    with_reducible assumption
  clear_value x2
  clear_value x3
  split
  · with_reducible assumption
  · split
    · apply State.takePart_keeps
      with_reducible assumption
    · apply State.setOp_keeps
      with_reducible assumption

theorem State.forMember_keeps {s₀ : State} {s : State} (h : Keeps s₀ s) (src : W16) (group : W64) (packet : ℕ)
    (sent : List Byte) (arrived : List Byte) (f : ℕ → Ctx → FabricLink → State) (hf : ∀ y1 y2 y3, Keeps s₀
    (f y1 y2 y3)) :
    Keeps s₀ (State.forMember s src group packet sent arrived f) := by
  unfold State.forMember
  split
  · apply State.refuse_keeps
    with_reducible assumption
  · apply State.refuse_keeps
    with_reducible assumption
  · split
    · apply State.send_keeps
      with_reducible assumption
    · split
      · apply State.event_keeps
        with_reducible assumption
      · apply hf

theorem State.fabricArrives_keeps {s₀ : State} {s : State} (h : Keeps s₀ s) (a : FabricPacket) :
    Keeps s₀ (State.fabricArrives s a) := by
  unfold State.fabricArrives
  split
  · apply State.forMember_keeps
    · with_reducible assumption
    · intro x1
      intro x2
      intro x3
      split
      · apply State.accept_keeps
        apply State.writeView_keeps
        with_reducible assumption
      · apply State.refuse_keeps
        with_reducible assumption
  · apply State.forMember_keeps
    · with_reducible assumption
    · intro x4
      intro x5
      intro x6
      apply State.nodeArrives_keeps
      with_reducible assumption
  · apply State.forMember_keeps
    · with_reducible assumption
    · intro x7
      intro x8
      intro x9
      apply State.resultArrives_keeps
      with_reducible assumption
  · split
    · with_reducible assumption
    · extract_lets x10
      have h10 : Keeps s₀ x10 := by
        unfold x10
        apply State.endPkt_keeps
        with_reducible assumption
      clear_value x10
      split
      · with_reducible assumption
      · split
        · apply State.closeOp_keeps
          with_reducible assumption
        · with_reducible assumption
  · split
    · with_reducible assumption
    · extract_lets x11
      have h11 : Keeps s₀ x11 := by
        unfold x11
        apply State.endPkt_keeps
        with_reducible assumption
      clear_value x11
      split
      · with_reducible assumption
      · apply State.finishFabric_keeps
        with_reducible assumption

theorem State.fabricAborts_keeps {s₀ : State} {s : State} (h : Keeps s₀ s) (group : W64) (coll : W64) :
    Keeps s₀ (State.fabricAborts s group coll) := by
  unfold State.fabricAborts
  split
  · with_reducible assumption
  · split
    · with_reducible assumption
    · extract_lets x1 x2
      have h1 : Keeps s₀ x1.1 := by
        unfold x1
        apply State.early_keeps
        with_reducible assumption
      clear_value x1
      clear_value x2
      split
      · apply State.finishFabric_keeps
        with_reducible assumption
      · apply State.setOp_keeps
        with_reducible assumption

theorem State.crcOut_keeps {s₀ : State} {s : State} (h : Keeps s₀ s) (fails : ℕ) :
    Keeps s₀ (State.crcOut s fails) := by
  unfold State.crcOut
  apply State.event_keeps
  with_reducible assumption

theorem State.fabricRto_keeps {s₀ : State} {s : State} (h : Keeps s₀ s) (packet : ℕ) (crcFails : ℕ) :
    Keeps s₀ (State.fabricRto s packet crcFails) := by
  unfold State.fabricRto
  split
  · with_reducible assumption
  · extract_lets x1 x2
    have h1 : Keeps s₀ x1 := by
      unfold x1
      apply State.crcOut_keeps
      with_reducible assumption
    clear_value x1
    clear_value x2
    split
    · apply State.failPeer_keeps
      refine Keeps.of_eq (u := x1) rfl rfl rfl rfl rfl rfl ?_
      with_reducible assumption
    · apply State.sendPkt_keeps
      apply State.bump_keeps
      apply State.putPkt_keeps
      with_reducible assumption

theorem State.fabricEscape_keeps {s₀ : State} {s : State} (h : Keeps s₀ s) (packet : ℕ) :
    Keeps s₀ (State.fabricEscape s packet) := by
  unfold State.fabricEscape
  split
  · with_reducible assumption
  · split
    · with_reducible assumption
    · apply State.launch_keeps
      with_reducible assumption

theorem State.endFabric_keeps {s₀ : State} {s : State} (h : Keeps s₀ s) (o : FabricOp) :
    Keeps s₀ (State.endFabric s o) := by
  unfold State.endFabric
  extract_lets x1 x2 x3 x4
  have h1 : Keeps s₀ x1 := by
    unfold x1
    refine Keeps.of_eq (u := s) rfl rfl rfl rfl rfl rfl ?_
    with_reducible assumption
  clear_value x1
  have h2 : Keeps s₀ x2 := by
    unfold x2
    split
    · apply State.onCtx_keeps
      with_reducible assumption
    · with_reducible assumption
  clear_value x2
  have h3 : Keeps s₀ x3 := by
    unfold x3
    split
    · apply State.bump_keeps
      with_reducible assumption
    · with_reducible assumption
  clear_value x3
  clear_value x4
  apply State.atRank_keeps
  with_reducible assumption

/-! ### Media -/

theorem State.readMarked_keeps {s₀ : State} {s : State} (h : Keeps s₀ s) (r : Requester) (addr : W64) (n : ℕ) :
    Keeps s₀ (State.readMarked s r addr n).1 := by
  unfold State.readMarked
  extract_lets x1 x2 x3
  clear_value x1
  clear_value x2
  have h3 : Keeps s₀ x3.1 := by
    unfold x3
    refine Keeps.foldl1 (fun x4 x5 x6 => ?_) _ ?_
    · split
      · with_reducible assumption
      · extract_lets x7 x8
        have h7 : Keeps s₀ x7 := by
          unfold x7
          split
          · apply State.burst_keeps
            with_reducible assumption
          · with_reducible assumption
        clear_value x7
        have h8 : Keeps s₀ x8.state := by
          unfold x8
          apply State.readWord_keeps
          with_reducible assumption
        clear_value x8
        with_reducible assumption
    · with_reducible assumption
  clear_value x3
  with_reducible assumption

theorem State.readKept_keeps {s₀ : State} {s : State} (h : Keeps s₀ s) (p : ℕ) (o : OpenWords) (k : Config.Kept) :
    Keeps s₀ (State.readKept s p o k).1 := by
  unfold State.readKept
  apply State.readMarked_keeps
  with_reducible assumption

theorem State.onEngine_keeps {s₀ : State} {s : State} (h : Keeps s₀ s) (e : ℕ) (f : Engine → Engine) :
    Keeps s₀ (State.onEngine s e f) := by
  unfold State.onEngine
  apply State.setEngine_keeps
  with_reducible assumption

theorem State.setStream_keeps {s₀ : State} {s : State} (h : Keeps s₀ s) (e : ℕ) (n : ℕ) (x : Stream) :
    Keeps s₀ (State.setStream s e n x) := by
  unfold State.setStream
  apply State.onEngine_keeps
  with_reducible assumption

theorem State.switchOut_keeps {s₀ : State} {s : State} (h : Keeps s₀ s) (e : ℕ) (n : ℕ) :
    Keeps s₀ (State.switchOut s e n) := by
  unfold State.switchOut
  split
  · with_reducible assumption
  · apply State.writeView_keeps
    with_reducible assumption

theorem State.switchIn_keeps {s₀ : State} {s : State} (h : Keeps s₀ s) (e : ℕ) (n : ℕ) :
    Keeps s₀ (State.switchIn s e n) := by
  unfold State.switchIn
  split
  · with_reducible assumption
  · extract_lets x1 x2
    have h1 : Keeps s₀ x1.state := by
      unfold x1
      apply State.readView_keeps
      with_reducible assumption
    clear_value x1
    clear_value x2
    split
    · apply State.setStream_keeps
      with_reducible assumption
    · apply State.setStream_keeps
      apply State.usedFree_keeps
      with_reducible assumption

theorem State.startMedia_keeps {s₀ : State} {s : State} (h : Keeps s₀ s) (e : ℕ) :
    Keeps s₀ (State.startMedia s e) := by
  unfold State.startMedia
  extract_lets x1
  clear_value x1
  split
  · extract_lets x2
    have h2 : Keeps s₀ x2 := by
      unfold x2
      apply State.mark_keeps
      apply State.setEngine_keeps
      with_reducible assumption
    clear_value x2
    split
    · with_reducible assumption
    · split
      · with_reducible assumption
      · apply State.bump_keeps
        apply State.switchIn_keeps
        apply State.switchOut_keeps
        with_reducible assumption
  · with_reducible assumption

theorem JobEnd.fail_keeps {s₀ : State} {s : State} (h : Keeps s₀ s) (status : ℕ) :
    Keeps s₀ (JobEnd.fail s status).state := by
  unfold JobEnd.fail
  with_reducible assumption

theorem State.mediaOpens_keeps {s₀ : State} {s : State} (h : Keeps s₀ s) (e : ℕ) (j : MediaJob) :
    Keeps s₀ (State.mediaOpens s e j).state := by
  unfold State.mediaOpens
  extract_lets x1
  clear_value x1
  split
  · apply JobEnd.fail_keeps
    with_reducible assumption
  · split
    · apply JobEnd.fail_keeps
      with_reducible assumption
    · split
      · apply JobEnd.fail_keeps
        apply State.event_keeps
        with_reducible assumption
      · dsimp only
        apply State.setStream_keeps
        with_reducible assumption

theorem State.writeRows_keeps {s₀ : State} {s : State} (h : Keeps s₀ s) (p : ℕ) (a : W64) (pitch : ℕ) (rows : List
    (List Byte)) :
    Keeps s₀ (State.writeRows s p a pitch rows) := by
  unfold State.writeRows
  refine Keeps.foldl (fun x1 x2 x3 => ?_) _ ?_
  · apply State.writeView_keeps
    with_reducible assumption
  · with_reducible assumption

theorem State.readRefs_keeps {s₀ : State} {s : State} (h : Keeps s₀ s) (p : ℕ) (o : OpenWords) (h' : Config.Head)
    (last : Option Config.Kept) :
    Keeps s₀ (State.readRefs s p o h' last).1 := by
  unfold State.readRefs
  refine Keeps.foldl1 (fun x1 x2 x3 => ?_) _ ?_
  · split
    · extract_lets x4
      have h4 : Keeps s₀ x4.1 := by
        unfold x4
        apply State.readKept_keeps
        with_reducible assumption
      clear_value x4
      with_reducible assumption
    · with_reducible assumption
  · with_reducible assumption

theorem State.conceal_keeps {s₀ : State} {s : State} (h : Keeps s₀ s) (p : ℕ) (o : OpenWords) (h' : Config.Head)
    (good : Option Config.Kept) (lost : List ℕ) :
    Keeps s₀ (State.conceal s p o h' good lost).1 := by
  unfold State.conceal
  split
  · split
    · with_reducible assumption
    · extract_lets x1
      have h1 : Keeps s₀ x1.1 := by
        unfold x1
        apply State.readKept_keeps
        with_reducible assumption
      clear_value x1
      with_reducible assumption
  · with_reducible assumption

theorem State.decodeUnit_keeps {s₀ : State} {s : State} (h : Keeps s₀ s) (p : ℕ) (o : OpenWords) (x : Stream)
    (h' : Config.Head) (unit : List (Option Byte)) :
    Keeps s₀ (State.decodeUnit s p o x h' unit).state := by
  unfold State.decodeUnit
  extract_lets x1 x2 x3 x4 x5 x6 x7 x8 x9 x10
  clear_value x1
  have h2 : Keeps s₀ x2.1 := by
    unfold x2
    apply State.readRefs_keeps
    with_reducible assumption
  clear_value x2
  clear_value x3
  clear_value x5
  clear_value x6
  clear_value x7
  have h8 : Keeps s₀ x8.1 := by
    unfold x8
    apply State.conceal_keeps
    with_reducible assumption
  clear_value x8
  clear_value x9
  clear_value x10
  with_reducible assumption

theorem State.showFrame_keeps {s₀ : State} {s : State} (h : Keeps s₀ s) (p : ℕ) (o : OpenWords) (x : Stream)
    (h' : Config.Head) (unit : List (Option Byte)) (k : Config.Kept) :
    Keeps s₀ (State.showFrame s p o x h' unit k).state := by
  unfold State.showFrame
  extract_lets x1 x2 x3
  have h1 : Keeps s₀ x1.1 := by
    unfold x1
    apply State.readKept_keeps
    with_reducible assumption
  clear_value x1
  clear_value x2
  have h3 : Keeps s₀ x3.1 := by
    unfold x3
    apply State.conceal_keeps
    with_reducible assumption
  clear_value x3
  with_reducible assumption

theorem State.keepDecoded_keeps {s₀ : State} {s : State} (h : Keeps s₀ s) (e : ℕ) (j : MediaJob) (x : Stream)
    (h' : Config.Head) (unit : List (Option Byte)) (slot : ℕ) (d : Decoded) (hd : Keeps s₀ d.state) :
    Keeps s₀ (State.keepDecoded s e j x h' unit slot d) := by
  unfold State.keepDecoded
  extract_lets x1 x2 x3
  clear_value x1
  clear_value x2
  clear_value x3
  split
  · apply State.setStream_keeps
    with_reducible assumption
  · apply State.setStream_keeps
    apply State.writeView_keeps
    with_reducible assumption

theorem State.putPicture_keeps {s₀ : State} {s : State} (h : Keeps s₀ s) (p : ℕ) (o : OpenWords) (j : MediaJob)
    (h' : Config.Head) (pic : List Byte) :
    Keeps s₀ (State.putPicture s p o j h' pic) := by
  unfold State.putPicture
  split
  · apply State.writeView_keeps
    with_reducible assumption
  · apply State.writeRows_keeps
    with_reducible assumption

theorem State.countDecoded_keeps {s₀ : State} {s : State} (h : Keeps s₀ s) (e : ℕ) (p : ℕ) (d : Decoded)
    (hd : Keeps s₀ d.state) :
    Keeps s₀ (State.countDecoded s e p d) := by
  unfold State.countDecoded
  extract_lets x1 x2
  have h1 : Keeps s₀ x1 := by
    unfold x1
    refine Keeps.foldl (fun x3 x4 x5 => ?_) _ ?_
    · apply State.event_keeps
      with_reducible assumption
    · with_reducible assumption
  clear_value x1
  have h2 : Keeps s₀ x2 := by
    unfold x2
    apply State.bump_keeps
    apply State.bump_keeps
    with_reducible assumption
  clear_value x2
  split
  · with_reducible assumption
  · apply State.bump_keeps
    with_reducible assumption

theorem State.mediaDecodes_keeps {s₀ : State} {s : State} (h : Keeps s₀ s) (e : ℕ) (j : MediaJob) (x : Stream) :
    Keeps s₀ (State.mediaDecodes s e j x).state := by
  unfold State.mediaDecodes
  extract_lets x1 x2 x3 x4 x5 x6 x7 x8
  clear_value x1
  clear_value x2
  clear_value x3
  have h5 : Keeps s₀ x5.1 := by
    unfold x5
    apply State.readMarked_keeps
    with_reducible assumption
  clear_value x5
  clear_value x6
  clear_value x7
  have h8 : Keeps s₀ x8.state := by
    unfold x8
    split
    · apply State.showFrame_keeps
      with_reducible assumption
    · apply State.decodeUnit_keeps
      with_reducible assumption
  clear_value x8
  split
  · apply JobEnd.fail_keeps
    with_reducible assumption
  · split
    · apply JobEnd.fail_keeps
      with_reducible assumption
    · split
      · apply JobEnd.fail_keeps
        apply State.event_keeps
        with_reducible assumption
      · split
        · apply JobEnd.fail_keeps
          with_reducible assumption
        · dsimp only
          apply State.countDecoded_keeps
          · apply State.keepDecoded_keeps
            · apply State.putPicture_keeps
              with_reducible assumption
            · with_reducible assumption
          · with_reducible assumption

theorem State.mediaEncodes_keeps {s₀ : State} {s : State} (h : Keeps s₀ s) (e : ℕ) (j : MediaJob) (x : Stream) :
    Keeps s₀ (State.mediaEncodes s e j x).state := by
  unfold State.mediaEncodes
  extract_lets x1 x2 x3 x4 x5 x6 x7 x8 x9 x10 x11 x12 x13 x14 x15 x16 x17 x18 x19 x20 x21 x22
  clear_value x1
  clear_value x2
  clear_value x3
  clear_value x4
  clear_value x5
  clear_value x6
  clear_value x7
  clear_value x8
  clear_value x9
  clear_value x10
  have h11 : Keeps s₀ x11.1 := by
    unfold x11
    apply State.readMarked_keeps
    with_reducible assumption
  clear_value x11
  have h12 : Keeps s₀ x12.1 := by
    unfold x12
    split
    · with_reducible assumption
    · refine Keeps.foldl1 (fun x23 x24 x25 => ?_) _ ?_
      · extract_lets x26
        have h26 : Keeps s₀ x26.1 := by
          unfold x26
          apply State.readMarked_keeps
          with_reducible assumption
        clear_value x26
        with_reducible assumption
      · with_reducible assumption
  clear_value x12
  have h13 : Keeps s₀ x13 := by
    unfold x13
    with_reducible assumption
  clear_value x13
  clear_value x14
  clear_value x15
  have h16 : Keeps s₀ x16 := by
    unfold x16
    apply State.bump_keeps
    with_reducible assumption
  clear_value x16
  have h17 : Keeps s₀ x17.1 := by
    unfold x17
    refine Keeps.foldl1 (fun x27 x28 x29 => ?_) _ ?_
    · extract_lets x30
      have h30 : Keeps s₀ x30.1 := by
        unfold x30
        apply State.readKept_keeps
        with_reducible assumption
      clear_value x30
      with_reducible assumption
    · with_reducible assumption
  clear_value x17
  have h18 : Keeps s₀ x18 := by
    unfold x18
    with_reducible assumption
  clear_value x18
  clear_value x19
  clear_value x20
  clear_value x21
  have h22 : Keeps s₀ x22 := by
    unfold x22
    apply State.writeView_keeps
    with_reducible assumption
  clear_value x22
  split
  · apply JobEnd.fail_keeps
    with_reducible assumption
  · split
    · apply JobEnd.fail_keeps
      with_reducible assumption
    · split
      · apply JobEnd.fail_keeps
        with_reducible assumption
      · split
        · apply JobEnd.fail_keeps
          with_reducible assumption
        · split
          · apply JobEnd.fail_keeps
            apply State.event_keeps
            with_reducible assumption
          · extract_lets x31 x32 x33
            have h31 : Keeps s₀ x31 := by
              unfold x31
              apply State.writeView_keeps
              with_reducible assumption
            clear_value x31
            clear_value x32
            have h33 : Keeps s₀ x33 := by
              unfold x33
              apply State.setStream_keeps
              with_reducible assumption
            clear_value x33
            dsimp only
            apply State.bump_keeps
            with_reducible assumption

theorem State.mediaEnds_keeps {s₀ : State} {s : State} (h : Keeps s₀ s) (e : ℕ) (j : MediaJob) :
    Keeps s₀ (State.mediaEnds s e j).state := by
  unfold State.mediaEnds
  split
  · apply State.mediaOpens_keeps
    with_reducible assumption
  · apply JobEnd.fail_keeps
    with_reducible assumption
  · split
    · apply State.mediaEncodes_keeps
      with_reducible assumption
    · apply State.mediaDecodes_keeps
      with_reducible assumption
  · apply JobEnd.fail_keeps
    with_reducible assumption
  · dsimp only
    apply State.onEngine_keeps
    with_reducible assumption
  · apply JobEnd.fail_keeps
    with_reducible assumption

theorem State.freeWords_keeps {s₀ : State} {s : State} (h : Keeps s₀ s) (j : MediaJob) (decode : Bool) :
    Keeps s₀ (State.freeWords s j decode).1 := by
  unfold State.freeWords
  extract_lets x1 x2
  clear_value x1
  clear_value x2
  split
  · with_reducible assumption
  · split
    · dsimp only
      apply State.usedFree_keeps
      with_reducible assumption
    · dsimp only
      apply State.usedFree_keeps
      apply State.usedFree_keeps
      with_reducible assumption

theorem State.endMedia_keeps {s₀ : State} {s : State} (h : Keeps s₀ s) (e : ℕ) :
    Keeps s₀ (State.endMedia s e) := by
  unfold State.endMedia
  split
  · with_reducible assumption
  · extract_lets x1 x2 x3 x4 x5 x6 x7 x8
    clear_value x1
    have h2 : Keeps s₀ x2 := by
      unfold x2
      apply State.onEngine_keeps
      with_reducible assumption
    clear_value x2
    have h3 : Keeps s₀ x3.state := by
      unfold x3
      apply State.mediaEnds_keeps
      with_reducible assumption
    clear_value x3
    have h4 : Keeps s₀ x4 := by
      unfold x4
      apply State.bump_keeps
      with_reducible assumption
    clear_value x4
    have h5 : Keeps s₀ x5.1 := by
      unfold x5
      split
      · with_reducible assumption
      · apply State.freeWords_keeps
        with_reducible assumption
    clear_value x5
    clear_value x6
    clear_value x7
    have h8 : Keeps s₀ x8 := by
      unfold x8
      apply State.writeView_keeps
      with_reducible assumption
    clear_value x8
    split
    · with_reducible assumption
    · apply State.atRank_keeps
      with_reducible assumption

theorem State.queueMedia_keeps {s₀ : State} {s : State} (h : Keeps s₀ s) (j : MediaJob) :
    Keeps s₀ (State.queueMedia s j) := by
  unfold State.queueMedia
  apply State.onEngine_keeps
  with_reducible assumption

end Sys2Proof.Machine
end

