-- ==== Sys2Proof/Laws/KeepsIssue.lean ====
section
/-! SUPPORT. What the issue of bundles and the ends of operations keep (`Keeps`). -/

namespace Sys2Proof.Machine

/-! ### Effects -/

theorem State.putReg_keeps {s₀ : State} {s : State} (h : Keeps s₀ s) (core : ℕ) (dst : BitVec 6) (v : W64) :
    Keeps s₀ (State.putReg s core dst v) := by
  unfold State.putReg
  apply State.onCore_keeps
  with_reducible assumption

theorem State.putPred_keeps {s₀ : State} {s : State} (h : Keeps s₀ s) (core : ℕ) (dst : BitVec 4) (v : Bool) :
    Keeps s₀ (State.putPred s core dst v) := by
  unfold State.putPred
  apply State.onCore_keeps
  with_reducible assumption

theorem State.coreBump_keeps {s₀ : State} {s : State} (h : Keeps s₀ s) (core : ℕ) (off : ℕ) (sub : ℕ) (n : ℕ) :
    Keeps s₀ (State.coreBump s core off sub n) := by
  unfold State.coreBump
  apply State.bump_keeps
  with_reducible assumption

theorem State.doSys_keeps {s₀ : State} {s : State} (h : Keeps s₀ s) (core : ℕ) (f : SFields) :
    Keeps s₀ (State.doSys s core f) := by
  unfold State.doSys
  extract_lets x1 x2
  clear_value x1
  have h2 : Keeps s₀ x2 := by
    unfold x2
    split
    · apply State.usedFree_keeps
      with_reducible assumption
    · with_reducible assumption
  clear_value x2
  apply State.putReg_keeps
  with_reducible assumption

theorem State.putVec_keeps {s₀ : State} {s : State} (h : Keeps s₀ s) (core : ℕ) (vd : BitVec 6) (r : VResult) :
    Keeps s₀ (State.putVec s core vd r) := by
  unfold State.putVec
  extract_lets x1
  have h1 : Keeps s₀ x1 := by
    unfold x1
    apply State.onCore_keeps
    with_reducible assumption
  clear_value x1
  apply State.coreBump_keeps
  apply State.coreBump_keeps
  apply State.tally_keeps
  with_reducible assumption

theorem State.putSfu_keeps {s₀ : State} {s : State} (h : Keeps s₀ s) (core : ℕ) (f : VFields) (r : VResult) :
    Keeps s₀ (State.putSfu s core f r) := by
  unfold State.putSfu
  apply State.coreBump_keeps
  apply State.putVec_keeps
  with_reducible assumption

theorem State.putRsum_keeps {s₀ : State} {s : State} (h : Keeps s₀ s) (core : ℕ) (f : VFields) (r : VResult) :
    Keeps s₀ (State.putRsum s core f r) := by
  unfold State.putRsum
  apply State.coreBump_keeps
  apply State.putVec_keeps
  with_reducible assumption

theorem State.postGate_keeps {s₀ : State} {s : State} (h : Keeps s₀ s) (core : ℕ) (x : Slot) (bundle : ℕ) (a : ℕ)
    (bit : ℕ) :
    Keeps s₀ (State.postGate s core x bundle a bit) := by
  unfold State.postGate
  extract_lets x1
  clear_value x1
  split
  · split
    · with_reducible assumption
    · apply State.onPolder_keeps
      with_reducible assumption
  · apply State.raise_keeps
    apply State.event_keeps
    with_reducible assumption

theorem State.decide_keeps {s₀ : State} {s : State} (h : Keeps s₀ s) (core : ℕ) (k : CoreState) (x : Slot)
    (f : LFields) (bundle : ℕ) :
    Keeps s₀ (State.decide s core k x f bundle) := by
  unfold State.decide
  split
  · with_reducible assumption
  · extract_lets x1 x2 x3 x4 x5 x6 x7 x8 x9
    clear_value x1
    clear_value x2
    clear_value x3
    clear_value x4
    clear_value x5
    have h6 : Keeps s₀ x6 := by
      unfold x6
      apply State.onCore_keeps
      with_reducible assumption
    clear_value x6
    have h7 : Keeps s₀ x7 := by
      unfold x7
      apply State.onCore_keeps
      with_reducible assumption
    clear_value x7
    have h8 : Keeps s₀ x8 := by
      unfold x8
      apply State.coreBump_keeps
      apply State.coreBump_keeps
      apply State.coreBump_keeps
      apply State.coreBump_keeps
      with_reducible assumption
    clear_value x8
    have h9 : Keeps s₀ x9 := by
      unfold x9
      apply State.event_keeps
      apply State.bump_keeps
      apply State.bump_keeps
      with_reducible assumption
    clear_value x9
    split
    · apply State.postGate_keeps
      with_reducible assumption
    · with_reducible assumption

theorem State.begin_keeps {s₀ : State} {s : State} (h : Keeps s₀ s) (core : ℕ) (x : Slot) (bundle : ℕ) (tag : Option
    (BitVec 4)) (op : Op) (reads : List Range) (writes : List Range) :
    Keeps s₀ (State.begin s core x bundle tag op reads writes) := by
  unfold State.begin
  extract_lets x1 x2 x3
  clear_value x1
  have h2 : Keeps s₀ x2 := by
    unfold x2
    refine Keeps.foldl (fun x4 x5 x6 => ?_) _ ?_
    · apply State.mark_keeps
      with_reducible assumption
    · with_reducible assumption
  clear_value x2
  have h3 : Keeps s₀ x3 := by
    unfold x3
    apply State.onCore_keeps
    with_reducible assumption
  clear_value x3
  refine Keeps.of_eq (u := x3) rfl rfl rfl rfl rfl rfl ?_
  with_reducible assumption

theorem State.raiseAt_keeps {s₀ : State} {s : State} (h : Keeps s₀ s) (core : ℕ) (x : Slot) (bundle : ℕ) (f : Option
    (ℕ × W64)) :
    Keeps s₀ (State.raiseAt s core x bundle f) := by
  unfold State.raiseAt
  split
  · with_reducible assumption
  · apply State.raise_keeps
    with_reducible assumption

theorem State.askCounter_keeps {s₀ : State} {s : State} (h : Keeps s₀ s) (core : ℕ) (k : CoreState) (f : XFields)
    (isSet : Bool) :
    Keeps s₀ (State.askCounter s core k f isSet) := by
  unfold State.askCounter
  extract_lets x1 x2 x3
  clear_value x1
  clear_value x2
  clear_value x3
  apply State.coreBump_keeps
  refine Keeps.of_eq (u := s) rfl rfl rfl rfl rfl rfl ?_
  with_reducible assumption

theorem State.askSeq_keeps {s₀ : State} {s : State} (h : Keeps s₀ s) (core : ℕ) (k : CoreState) (x : Slot)
    (bundle : ℕ) (fn : ℕ) (f : XFields) :
    Keeps s₀ (State.askSeq s core k x bundle fn f) := by
  unfold State.askSeq
  extract_lets x1
  clear_value x1
  apply State.askHome_keeps
  with_reducible assumption

theorem State.doKv_keeps {s₀ : State} {s : State} (h : Keeps s₀ s) (core : ℕ) (k : CoreState) (x : Slot) (f : KFields)
    (op : Op) (bundle : ℕ) :
    Keeps s₀ (State.doKv s core k x f op bundle) := by
  unfold State.doKv
  extract_lets x1 x2
  clear_value x1
  clear_value x2
  apply State.askHome_keeps
  apply State.begin_keeps
  with_reducible assumption

theorem State.doFabric_keeps {s₀ : State} {s : State} (h : Keeps s₀ s) (core : ℕ) (k : CoreState) (x : Slot)
    (f : XFields) (bundle : ℕ) :
    Keeps s₀ (State.doFabric s core k x f bundle) := by
  unfold State.doFabric
  extract_lets x1 x2
  clear_value x1
  clear_value x2
  apply State.startFabric_keeps
  apply State.begin_keeps
  with_reducible assumption

theorem State.doMedia_keeps {s₀ : State} {s : State} (h : Keeps s₀ s) (core : ℕ) (k : CoreState) (x : Slot)
    (f : XFields) (bundle : ℕ) :
    Keeps s₀ (State.doMedia s core k x f bundle) := by
  unfold State.doMedia
  extract_lets x1 x2 x3 x4 x5 x6 x7
  clear_value x1
  clear_value x2
  have h3 : Keeps s₀ x3.state := by
    unfold x3
    apply State.readView_keeps
    with_reducible assumption
  clear_value x3
  clear_value x4
  clear_value x5
  clear_value x6
  have h7 : Keeps s₀ x7 := by
    unfold x7
    apply State.begin_keeps
    with_reducible assumption
  clear_value x7
  split
  · apply State.raiseAt_keeps
    with_reducible assumption
  · apply State.queueMedia_keeps
    with_reducible assumption

theorem State.doWin_keeps {s₀ : State} {s : State} (h : Keeps s₀ s) (core : ℕ) (k : CoreState) (x : Slot) (op : ℕ)
    (f : WFields) (bundle : ℕ) :
    Keeps s₀ (State.doWin s core k x op f bundle) := by
  unfold State.doWin
  extract_lets x1
  clear_value x1
  apply State.coreBump_keeps
  apply State.tally_keeps
  apply State.begin_keeps
  with_reducible assumption

theorem State.doRng_keeps {s₀ : State} {s : State} (h : Keeps s₀ s) (core : ℕ) (k : CoreState) (x : Slot) (rfn : ℕ)
    (f : RFields) :
    Keeps s₀ (State.doRng s core k x rfn f) := by
  unfold State.doRng
  extract_lets x1 x2 x3 x4 x5 x6 x7
  have h1 : Keeps s₀ x1 := by
    unfold x1
    apply State.coreBump_keeps
    with_reducible assumption
  clear_value x1
  clear_value x2
  clear_value x5
  clear_value x6
  clear_value x7
  split
  · apply State.onCore_keeps
    with_reducible assumption
  · unfold x4
    apply State.coreBump_keeps
    unfold x3
    apply State.onCore_keeps
    with_reducible assumption
  · unfold x4
    apply State.coreBump_keeps
    unfold x3
    apply State.onCore_keeps
    with_reducible assumption
  · apply State.tally_keeps
    unfold x4
    apply State.coreBump_keeps
    unfold x3
    apply State.onCore_keeps
    with_reducible assumption
  · apply State.coreBump_keeps
    unfold x3
    apply State.onCore_keeps
    with_reducible assumption
  · apply State.onCore_keeps
    with_reducible assumption
  · apply State.onCore_keeps
    with_reducible assumption

theorem State.doSluice_keeps {s₀ : State} {s : State} (h : Keeps s₀ s) (core : ℕ) (k : CoreState) (x : Slot) (sop : ℕ)
    (f : LFields) (bundle : ℕ) :
    Keeps s₀ (State.doSluice s core k x sop f bundle) := by
  unfold State.doSluice
  split
  · apply State.coreBump_keeps
    apply State.onCore_keeps
    with_reducible assumption
  · apply State.coreBump_keeps
    apply State.coreBump_keeps
    apply State.onCore_keeps
    with_reducible assumption
  · apply State.decide_keeps
    with_reducible assumption
  · apply State.coreBump_keeps
    apply State.onCore_keeps
    with_reducible assumption

theorem State.doCall_keeps {s₀ : State} {s : State} (h : Keeps s₀ s) (core : ℕ) (bundle : ℕ) (f : XFields) :
    Keeps s₀ (State.doCall s core bundle f) := by
  unfold State.doCall
  extract_lets x1 x2 x3
  clear_value x1
  clear_value x2
  have h3 : Keeps s₀ x3 := by
    unfold x3
    split
    · apply State.usedFree_keeps
      with_reducible assumption
    · with_reducible assumption
  clear_value x3
  apply State.onCore_keeps
  with_reducible assumption

theorem State.effect_keeps {s₀ : State} {s : State} (h : Keeps s₀ s) (core : ℕ) (k : CoreState) (bundle : ℕ)
    (x : Slot) :
    Keeps s₀ (State.effect s core k bundle x) := by
  unfold State.effect
  extract_lets x1 x2 x3
  clear_value x1
  clear_value x2
  split
  · apply State.putReg_keeps
    with_reducible assumption
  · apply State.putReg_keeps
    with_reducible assumption
  · apply State.putReg_keeps
    with_reducible assumption
  · apply State.putReg_keeps
    with_reducible assumption
  · apply State.putReg_keeps
    with_reducible assumption
  · apply State.putReg_keeps
    with_reducible assumption
  · apply State.putReg_keeps
    with_reducible assumption
  · apply State.putReg_keeps
    with_reducible assumption
  · apply State.putReg_keeps
    with_reducible assumption
  · apply State.putReg_keeps
    with_reducible assumption
  · apply State.putReg_keeps
    with_reducible assumption
  · apply State.putPred_keeps
    with_reducible assumption
  · apply State.putPred_keeps
    with_reducible assumption
  · apply State.putPred_keeps
    with_reducible assumption
  · apply State.putPred_keeps
    with_reducible assumption
  · apply State.putPred_keeps
    with_reducible assumption
  · apply State.putPred_keeps
    with_reducible assumption
  · apply State.putReg_keeps
    with_reducible assumption
  · apply State.onCore_keeps
    with_reducible assumption
  · apply State.doSys_keeps
    with_reducible assumption
  · split
    · with_reducible assumption
    · apply State.onCore_keeps
      with_reducible assumption
  · unfold x3
    apply State.begin_keeps
    with_reducible assumption
  · unfold x3
    apply State.begin_keeps
    with_reducible assumption
  · with_reducible assumption
  · with_reducible assumption
  · with_reducible assumption
  · with_reducible assumption
  · apply State.doKv_keeps
    with_reducible assumption
  · apply State.doKv_keeps
    with_reducible assumption
  · unfold x3
    apply State.begin_keeps
    with_reducible assumption
  · unfold x3
    apply State.begin_keeps
    with_reducible assumption
  · unfold x3
    apply State.begin_keeps
    with_reducible assumption
  · unfold x3
    apply State.begin_keeps
    with_reducible assumption
  · unfold x3
    apply State.begin_keeps
    with_reducible assumption
  · apply State.putVec_keeps
    with_reducible assumption
  · apply State.putVec_keeps
    with_reducible assumption
  · apply State.putVec_keeps
    with_reducible assumption
  · apply State.putVec_keeps
    with_reducible assumption
  · apply State.putVec_keeps
    with_reducible assumption
  · apply State.putSfu_keeps
    with_reducible assumption
  · apply State.putSfu_keeps
    with_reducible assumption
  · apply State.putVec_keeps
    with_reducible assumption
  · apply State.putVec_keeps
    with_reducible assumption
  · apply State.coreBump_keeps
    apply State.onCore_keeps
    with_reducible assumption
  · apply State.putVec_keeps
    with_reducible assumption
  · apply State.putVec_keeps
    with_reducible assumption
  · apply State.putRsum_keeps
    with_reducible assumption
  · apply State.doWin_keeps
    with_reducible assumption
  · apply State.doSluice_keeps
    with_reducible assumption
  · apply State.doRng_keeps
    with_reducible assumption
  · apply State.onCore_keeps
    with_reducible assumption
  · apply State.onCore_keeps
    with_reducible assumption
  · apply State.doCall_keeps
    with_reducible assumption
  · apply State.onCore_keeps
    with_reducible assumption
  · apply State.onCore_keeps
    with_reducible assumption
  · apply State.askCounter_keeps
    unfold x3
    apply State.begin_keeps
    with_reducible assumption
  · apply State.askCounter_keeps
    unfold x3
    apply State.begin_keeps
    with_reducible assumption
  · unfold x3
    apply State.begin_keeps
    with_reducible assumption
  · unfold x3
    apply State.begin_keeps
    with_reducible assumption
  · unfold x3
    apply State.begin_keeps
    with_reducible assumption
  · apply State.event_keeps
    apply State.onCore_keeps
    with_reducible assumption
  · apply State.askSeq_keeps
    unfold x3
    apply State.begin_keeps
    with_reducible assumption
  · apply State.doFabric_keeps
    with_reducible assumption
  · apply State.doMedia_keeps
    with_reducible assumption

/-! ### Issue -/

theorem State.applyBundle_keeps {s₀ : State} {s : State} (h : Keeps s₀ s) (core : ℕ) (b : List Slot) :
    Keeps s₀ (State.applyBundle s core b) := by
  unfold State.applyBundle
  extract_lets x1 x2 x3 x4
  clear_value x1
  have h2 : Keeps s₀ x2 := by
    unfold x2
    apply State.coreBump_keeps
    apply State.onCore_keeps
    with_reducible assumption
  clear_value x2
  clear_value x3
  have h4 : Keeps s₀ x4 := by
    unfold x4
    refine Keeps.foldl (fun x5 x6 x7 => ?_) _ ?_
    · apply State.effect_keeps
      with_reducible assumption
    · with_reducible assumption
  clear_value x4
  split
  · with_reducible assumption
  · apply State.onCore_keeps
    with_reducible assumption

theorem State.faultAtIssue_keeps {s₀ : State} {s : State} (h : Keeps s₀ s) (core : ℕ) (f : PendingFault) :
    Keeps s₀ (State.faultAtIssue s core f) := by
  unfold State.faultAtIssue
  split
  · with_reducible assumption
  · extract_lets x1
    clear_value x1
    apply State.takeFault_keeps
    refine Keeps.foldl (fun x2 x3 x4 => ?_) _ ?_
    · split
      · with_reducible assumption
      · apply State.raise_keeps
        with_reducible assumption
    · with_reducible assumption

theorem State.issueFault_keeps {s₀ : State} {s : State} (h : Keeps s₀ s) (core : ℕ) (fs : List (ℕ × Cause)) :
    Keeps s₀ (State.issueFault s core fs) := by
  unfold State.issueFault
  split
  · with_reducible assumption
  · apply State.faultAtIssue_keeps
    with_reducible assumption

theorem State.issueBundle_keeps {s₀ : State} {s : State} (h : Keeps s₀ s) (core : ℕ) (b : List Slot) :
    Keeps s₀ (State.issueBundle s core b) := by
  unfold State.issueBundle
  extract_lets x1
  clear_value x1
  split
  · apply State.applyBundle_keeps
    with_reducible assumption
  · apply State.issueFault_keeps
    with_reducible assumption

theorem State.issueNext_keeps {s₀ : State} {s : State} (h : Keeps s₀ s) (core : ℕ) (t : State)
    (e : State.issueNext s core = some t) :
    Keeps s₀ t := by
  unfold State.issueNext at e
  extract_lets k at e
  clear_value k
  split at e
  · cases e
  · split at e
    · cases e
      apply State.faultAtIssue_keeps
      with_reducible assumption
    · split at e
      · cases e
      · split at e
        · cases e
        · cases e
          apply State.issueBundle_keeps
          apply State.onCore_keeps
          with_reducible assumption

theorem State.noteWait_keeps {s₀ : State} {s : State} (h : Keeps s₀ s) (core : ℕ) :
    Keeps s₀ (State.noteWait s core) := by
  unfold State.noteWait
  split
  · extract_lets x101
    clear_value x101
    split
    · with_reducible assumption
    · apply State.setEngine_keeps
      with_reducible assumption
  · with_reducible assumption

theorem State.pumpN_keeps {s₀ : State} {s : State} (h : Keeps s₀ s) (core : ℕ) (n : ℕ) :
    Keeps s₀ (State.pumpN core n s) := by
  induction n generalizing s with
  | zero => exact h
  | succ n ih =>
    unfold State.pumpN
    split
    · exact h
    · exact ih (State.issueNext_keeps h core _ ‹_›)

theorem State.pump_keeps {s₀ : State} {s : State} (h : Keeps s₀ s) (core : ℕ) :
    Keeps s₀ (State.pump s core) := by
  unfold State.pump
  apply State.noteWait_keeps
  apply State.pumpN_keeps
  with_reducible assumption

theorem State.issued_keeps {s₀ : State} {s : State} (h : Keeps s₀ s) (core : ℕ) :
    Keeps s₀ ((State.issueNext s core).getD s) := by
  rcases e : s.issueNext core with _ | u
  · exact h
  · exact State.issueNext_keeps h core u e

theorem State.cycle_keeps {s₀ : State} {s : State} (h : Keeps s₀ s) (cs : List ℕ) :
    Keeps s₀ (State.cycle s cs) := by
  unfold State.cycle
  refine Keeps.foldl (fun t n ht => State.noteWait_keeps (State.issued_keeps ht n) n) _ h

theorem State.cycles_keeps {s₀ : State} {s : State} (h : Keeps s₀ s) (cs : List ℕ) (n : ℕ) :
    Keeps s₀ (State.cycles cs n s) := by
  induction n generalizing s with
  | zero => exact h
  | succ n ih =>
    unfold State.cycles
    split
    · exact ih (State.cycle_keeps h cs)
    · exact h

theorem State.pumpCores_keeps {s₀ : State} {s : State} (h : Keeps s₀ s) (cs : List ℕ) :
    Keeps s₀ (State.pumpCores s cs) := by
  unfold State.pumpCores
  refine Keeps.foldl (fun x1 x2 x3 => ?_) _ ?_
  · apply State.noteWait_keeps
    with_reducible assumption
  · apply State.cycles_keeps
    with_reducible assumption

theorem State.grantPlaces_keeps {s₀ : State} {s : State} (h : Keeps s₀ s) (e n : ℕ) :
    Keeps s₀ (State.grantPlaces e n s) := by
  induction n generalizing s with
  | zero => exact h
  | succ n ih =>
    unfold State.grantPlaces
    extract_lets g
    split
    · exact h
    · split
      · exact h
      · extract_lets t
        have ht : Keeps s₀ t := by
          unfold t
          split
          · exact State.issued_keeps h _
          · exact h
        exact ih (State.setEngine_keeps ht _ _)

theorem State.pumpAll_keeps {s₀ : State} {s : State} (h : Keeps s₀ s) :
    Keeps s₀ (State.pumpAll s) := by
  unfold State.pumpAll
  extract_lets x1
  have h1 : Keeps s₀ x1 := by
    unfold x1
    refine Keeps.foldl (fun x2 x3 x4 => ?_) _ ?_
    · apply State.grantPlaces_keeps
      with_reducible assumption
    · with_reducible assumption
  clear_value x1
  apply State.pumpCores_keeps
  with_reducible assumption

theorem State.stage_keeps {s₀ : State} {s : State} (h : Keeps s₀ s) (h' : SlotAt) (op : SlotOp) :
    Keeps s₀ (State.stage s h' op) := by
  unfold State.stage
  extract_lets x1 x2 x3
  clear_value x1
  clear_value x2
  clear_value x3
  split
  · with_reducible assumption
  · split
    · apply State.pump_keeps
      apply State.setCore_keeps
      with_reducible assumption
    · apply State.setCore_keeps
      with_reducible assumption

/-! ### Complete -/

theorem State.endOp_keeps {s₀ : State} {s : State} (h : Keeps s₀ s) (core : ℕ) (a : AsyncOp) (f : Option (ℕ × W64)) :
    Keeps s₀ (State.endOp s core a f) := by
  unfold State.endOp
  extract_lets x1
  have h1 : Keeps s₀ x1 := by
    unfold x1
    apply State.onCore_keeps
    with_reducible assumption
  clear_value x1
  split
  · apply State.pump_keeps
    with_reducible assumption
  · apply State.raise_keeps
    with_reducible assumption

theorem State.runIload_keeps {s₀ : State} {s : State} (h : Keeps s₀ s) (core : ℕ) (p : ℕ) (addr : W64) (n : ℕ)
    (target : ℕ) :
    Keeps s₀ (State.runIload s core p addr n target).1 := by
  unfold State.runIload
  split
  · dsimp only
    refine Keeps.of_pair (by assumption) ?_
    apply State.unitRead_keeps
    with_reducible assumption
  · extract_lets x1
    clear_value x1
    dsimp only
    apply State.onCore_keeps
    refine Keeps.of_pair (by assumption) ?_
    apply State.unitRead_keeps
    with_reducible assumption

theorem State.runOp_keeps {s₀ : State} {s : State} (h : Keeps s₀ s) (core : ℕ) (op : Op) :
    Keeps s₀ (State.runOp s core op).1 := by
  unfold State.runOp
  extract_lets x1
  clear_value x1
  split
  · extract_lets x2
    have h2 : Keeps s₀ x2.state := by
      unfold x2
      apply State.runLoad_keeps
      with_reducible assumption
    clear_value x2
    with_reducible assumption
  · extract_lets x3
    have h3 : Keeps s₀ x3.state := by
      unfold x3
      apply State.runStore_keeps
      with_reducible assumption
    clear_value x3
    with_reducible assumption
  · split
    · apply State.runAttn_keeps
      with_reducible assumption
    · apply State.runStream_keeps
      with_reducible assumption
  · apply State.runDrain_keeps
    with_reducible assumption
  · apply State.runIload_keeps
    with_reducible assumption
  · apply State.runSample_keeps
    with_reducible assumption
  · apply State.runUpdate_keeps
    with_reducible assumption
  · with_reducible assumption

theorem State.seeing_keeps {s₀ : State} {s : State} {α : Type} (h : Keeps s₀ s) (core : ℕ) (a : AsyncOp)
    (act : State → State × α) (hact : ∀ u, Keeps s₀ u → Keeps s₀ (act u).1) :
    Keeps s₀ (State.seeing s core a act).1 := by
  unfold State.seeing
  split
  · exact hact _ h
  · dsimp only
    exact State.onCore_keeps (hact _ (State.onCore_keeps h core _)) core _

theorem State.finish_keeps {s₀ : State} {s : State} (h : Keeps s₀ s) (core : ℕ) (tag : ℕ) (f : Op → Bool) :
    Keeps s₀ (State.finish s core tag f) := by
  unfold State.finish
  split
  · with_reducible assumption
  · extract_lets x1
    have h1 : Keeps s₀ x1.1 := by
      unfold x1
      apply State.seeing_keeps
      · with_reducible assumption
      · intro x2
        intro x3
        apply State.runOp_keeps
        with_reducible assumption
    clear_value x1
    apply State.endOp_keeps
    apply State.onCore_keeps
    with_reducible assumption

theorem State.finishFirst_keeps {s₀ : State} {s : State} (h : Keeps s₀ s) (core : ℕ) (tag : ℕ) (f : Op → Bool) :
    Keeps s₀ (State.finishFirst s core tag f) := by
  unfold State.finishFirst
  split
  · with_reducible assumption
  · split
    · apply State.finish_keeps
      with_reducible assumption
    · with_reducible assumption

theorem State.deliver_keeps {s₀ : State} {s : State} (h : Keeps s₀ s) (src : ℕ) (a : AsyncOp) (dst : ℕ)
    (b : AsyncOp) :
    Keeps s₀ (State.deliver s src a dst b) := by
  unfold State.deliver
  split
  · split
    · apply State.raise_keeps
      apply State.onCore_keeps
      with_reducible assumption
    · extract_lets x1 x2
      clear_value x1
      have h2 : Keeps s₀ x2 := by
        unfold x2
        apply State.onCore_keeps
        with_reducible assumption
      clear_value x2
      apply State.pumpCores_keeps
      apply State.onCore_keeps
      with_reducible assumption
  · with_reducible assumption

theorem State.exchange_keeps {s₀ : State} {s : State} (h : Keeps s₀ s) (core : ℕ) (tag : ℕ) :
    Keeps s₀ (State.exchange s core tag) := by
  unfold State.exchange
  extract_lets x1
  clear_value x1
  split
  · with_reducible assumption
  · split
    · split
      · with_reducible assumption
      · apply State.deliver_keeps
        with_reducible assumption
    · split
      · with_reducible assumption
      · split
        · split
          · with_reducible assumption
          · split
            · with_reducible assumption
            · apply State.deliver_keeps
              with_reducible assumption
        · with_reducible assumption

theorem State.serveCounter_keeps {s₀ : State} {s : State} (h : Keeps s₀ s) (q : ℕ) :
    Keeps s₀ (State.serveCounter s q) := by
  unfold State.serveCounter
  split
  · with_reducible assumption
  · extract_lets x1 x2 x3 x4 x5 x6
    have h4 : Keeps s₀ x4 := by
      unfold x4
      refine Keeps.of_forms (u := s) rfl id id (Store.wf_putCell _ _ _) id id ?_
      with_reducible assumption
    have h5 : Keeps s₀ x5 := by
      unfold x5
      split
      · apply State.timingChoice_keeps
        with_reducible assumption
      · with_reducible assumption
    split
    · apply State.pump_keeps
      apply State.onCore_keeps
      apply State.setCore_keeps
      with_reducible assumption
    · with_reducible assumption

theorem State.serveHome_keeps {s₀ : State} {s : State} (h : Keeps s₀ s) (p : ℕ) :
    Keeps s₀ (State.serveHome s p) := by
  unfold State.serveHome
  split
  · extract_lets x1
    have h1 : Keeps s₀ x1 := by
      unfold x1
      apply State.answerSeq_keeps
      apply State.granted_keeps
      with_reducible assumption
    clear_value x1
    apply State.pumpAll_keeps
    apply State.drainHome_keeps
    with_reducible assumption
  · with_reducible assumption

theorem State.endKvload_keeps {s₀ : State} {s : State} (h : Keeps s₀ s) (core : ℕ) (tag : ℕ) :
    Keeps s₀ (State.endKvload s core tag) := by
  unfold State.endKvload
  extract_lets x1
  clear_value x1
  split
  · split
    · split
      · apply State.pumpAll_keeps
        apply State.askHome_keeps
        apply State.onCore_keeps
        with_reducible assumption
      · with_reducible assumption
    · with_reducible assumption
  · with_reducible assumption

theorem State.switchCow_keeps {s₀ : State} {s : State} (h : Keeps s₀ s) (core : ℕ) (tag : ℕ) :
    Keeps s₀ (State.switchCow s core tag) := by
  unfold State.switchCow
  split
  · with_reducible assumption
  · split
    · split
      · with_reducible assumption
      · extract_lets x1
        have h1 : Keeps s₀ x1.1 := by
          unfold x1
          apply State.cowSwitch_keeps
          with_reducible assumption
        clear_value x1
        split
        · apply State.endOp_keeps
          with_reducible assumption
        · apply State.onCore_keeps
          with_reducible assumption
    · with_reducible assumption

theorem State.endKvappend_keeps {s₀ : State} {s : State} (h : Keeps s₀ s) (core : ℕ) (tag : ℕ) :
    Keeps s₀ (State.endKvappend s core tag) := by
  unfold State.endKvappend
  split
  · with_reducible assumption
  · split
    · split
      · apply State.pumpAll_keeps
        apply State.endOp_keeps
        apply State.seeing_keeps
        · with_reducible assumption
        · intro x1
          intro x2
          dsimp only
          apply State.kvWrite_keeps
          with_reducible assumption
      · with_reducible assumption
    · with_reducible assumption

theorem State.servePost_keeps {s₀ : State} {s : State} (h : Keeps s₀ s) (p : ℕ) :
    Keeps s₀ (State.servePost s p) := by
  unfold State.servePost
  split
  · with_reducible assumption
  · extract_lets x1
    have h1 : Keeps s₀ x1.1 := by
      unfold x1
      apply State.setMapBit_keeps
      apply State.onPolder_keeps
      with_reducible assumption
    clear_value x1
    split
    · with_reducible assumption
    · apply State.atRank_keeps
      with_reducible assumption

theorem State.endWin_keeps {s₀ : State} {s : State} (h : Keeps s₀ s) (core : ℕ) (pipe : Bool) :
    Keeps s₀ (State.endWin s core pipe) := by
  unfold State.endWin
  split
  · with_reducible assumption
  · split
    · apply State.endOp_keeps
      apply State.coreBump_keeps
      apply State.coreBump_keeps
      apply State.onCore_keeps
      with_reducible assumption
    · with_reducible assumption

theorem State.doneFabric_keeps {s₀ : State} {s : State} (h : Keeps s₀ s) (id : ℕ) :
    Keeps s₀ (State.doneFabric s id) := by
  unfold State.doneFabric
  split
  · with_reducible assumption
  · split
    · apply State.pumpAll_keeps
      apply State.endFabric_keeps
      with_reducible assumption
    · with_reducible assumption

theorem State.releaseBarrier_keeps {s₀ : State} {s : State} (h : Keeps s₀ s) (ctx : ℕ) (scope : Bool) (site : ℕ) :
    Keeps s₀ (State.releaseBarrier s ctx scope site) := by
  unfold State.releaseBarrier
  extract_lets x1
  clear_value x1
  split
  · apply State.pumpCores_keeps
    refine Keeps.foldl (fun x2 x3 x4 => ?_) _ ?_
    · apply State.onCore_keeps
      with_reducible assumption
    · with_reducible assumption
  · with_reducible assumption

theorem State.boundary_keeps {s₀ : State} {s : State} (h : Keeps s₀ s) (core : ℕ) :
    Keeps s₀ (State.boundary s core) := by
  unfold State.boundary
  split
  · with_reducible assumption
  · apply State.takeFault_keeps
    with_reducible assumption

end Sys2Proof.Machine
end

