-- ==== Sys2Proof/Laws/KeepsRequests.lean ====
section
/-! SUPPORT. What packages, dictionary requests and handshakes keep (`Keeps`). -/

namespace Sys2Proof.Machine

/-! ### Packages -/

theorem State.loadPkg_keeps {s₀ : State} {s : State} (h : Keeps s₀ s) (ctx : ℕ) (rank : ℕ) (core : ℕ) (fresh : Bool)
    (x : Pkg) :
    Keeps s₀ (State.loadPkg s ctx rank core fresh x).1 := by
  unfold State.loadPkg
  extract_lets x1 x2
  have h1 : Keeps s₀ x1.state := by
    unfold x1
    apply State.readView_keeps
    with_reducible assumption
  clear_value x1
  clear_value x2
  dsimp only
  apply State.onCore_keeps
  with_reducible assumption

theorem State.startPackage_keeps {s₀ : State} {s : State} (h : Keeps s₀ s) (ctx : ℕ) :
    Keeps s₀ (State.startPackage s ctx) := by
  unfold State.startPackage
  extract_lets x1
  clear_value x1
  split
  · with_reducible assumption
  · split
    · with_reducible assumption
    · extract_lets x2 x3
      have h2 : Keeps s₀ x2.1 := by
        unfold x2
        refine Keeps.foldl1 (fun x4 x5 x6 => ?_) _ ?_
        · extract_lets x7
          have h7 : Keeps s₀ x7.1 := by
            unfold x7
            apply State.loadPkg_keeps
            with_reducible assumption
          clear_value x7
          with_reducible assumption
        · with_reducible assumption
      clear_value x2
      have h3 : Keeps s₀ x3 := by
        unfold x3
        apply State.setCtx_keeps
        with_reducible assumption
      clear_value x3
      split
      · with_reducible assumption
      · apply State.takeFault_keeps
        with_reducible assumption

theorem State.endPackage_keeps {s₀ : State} {s : State} (h : Keeps s₀ s) (ctx : ℕ) :
    Keeps s₀ (State.endPackage s ctx) := by
  unfold State.endPackage
  extract_lets x1 x2
  clear_value x1
  clear_value x2
  split
  · with_reducible assumption
  · split
    · with_reducible assumption
    · extract_lets x3 x4 x5
      have h3 : Keeps s₀ x3 := by
        unfold x3
        apply State.placeRecord_keeps
        with_reducible assumption
      clear_value x3
      have h4 : Keeps s₀ x4 := by
        unfold x4
        refine Keeps.foldl (fun x6 x7 x8 => ?_) _ ?_
        · apply State.onCore_keeps
          with_reducible assumption
        · with_reducible assumption
      clear_value x4
      have h5 : Keeps s₀ x5 := by
        unfold x5
        apply State.onCtx_keeps
        with_reducible assumption
      clear_value x5
      apply State.schedule_keeps
      split
      · with_reducible assumption
      · apply State.stampReady_keeps
        with_reducible assumption

theorem State.holdExpiry_keeps {s₀ : State} {s : State} (h : Keeps s₀ s) (ctx : ℕ) :
    Keeps s₀ (State.holdExpiry s ctx) := by
  unfold State.holdExpiry
  extract_lets x1
  clear_value x1
  split
  · with_reducible assumption
  · split
    · apply State.event_keeps
      with_reducible assumption
    · with_reducible assumption

theorem State.requestPreempt_keeps {s₀ : State} {s : State} (h : Keeps s₀ s) (ctx : ℕ) :
    Keeps s₀ (State.requestPreempt s ctx) := by
  unfold State.requestPreempt
  extract_lets x1
  clear_value x1
  split
  · apply State.preempt_keeps
    with_reducible assumption
  · with_reducible assumption

theorem State.sliceEnd_keeps {s₀ : State} {s : State} (h : Keeps s₀ s) (ctx : ℕ) :
    Keeps s₀ (State.sliceEnd s ctx) := by
  unfold State.sliceEnd
  extract_lets x1 x2 x3
  clear_value x1
  clear_value x2
  clear_value x3
  split
  · apply State.schedule_keeps
    apply State.preempt_keeps
    with_reducible assumption
  · with_reducible assumption

theorem State.capture_keeps {s₀ : State} {s : State} (h : Keeps s₀ s) (core : ℕ) :
    Keeps s₀ (State.capture s core) := by
  unfold State.capture
  extract_lets x1
  clear_value x1
  apply State.onCore_keeps
  apply State.usedFree_keeps
  with_reducible assumption

theorem State.writeImage_keeps {s₀ : State} {s : State} (h : Keeps s₀ s) (p : ℕ) (core : ℕ) (a : W64)
    (k : CoreState) :
    Keeps s₀ (State.writeImage s p core a k) := by
  unfold State.writeImage
  extract_lets x1 x2
  clear_value x1
  clear_value x2
  refine Keeps.foldl (fun x3 x4 x5 => ?_) _ ?_
  · apply State.writeView_keeps
    with_reducible assumption
  · apply State.usedFree_keeps
    with_reducible assumption

theorem State.vacate_keeps {s₀ : State} {s : State} (h : Keeps s₀ s) (core : ℕ) :
    Keeps s₀ (State.vacate s core) := by
  unfold State.vacate
  extract_lets x1 x2
  clear_value x1
  clear_value x2
  apply State.setCore_keeps
  with_reducible assumption

theorem State.readFor_keeps {s₀ : State} {s : State} (h : Keeps s₀ s) (r : Requester) (a : W64) (n : ℕ) (core : ℕ)
    (l : List (ℕ × List Byte)) (bad : Option W64) :
    Keeps s₀ (State.readFor s r a n core l bad).1 := by
  unfold State.readFor
  extract_lets x1
  have h1 : Keeps s₀ x1.state := by
    unfold x1
    apply State.readView_keeps
    with_reducible assumption
  clear_value x1
  with_reducible assumption

theorem State.readImagesFor_keeps {s₀ : State} {s : State} (h : Keeps s₀ s) (p : ℕ) (saveOff : W64) (xs : List
    (ℕ × ℕ)) :
    Keeps s₀ (State.readImagesFor s p saveOff xs).1 := by
  unfold State.readImagesFor
  refine Keeps.foldl1_eq (fun u x v e k => ?_) _ h
  have k2 := State.readFor_keeps k (coreFor p x.1) (imageAddr saveOff x.1) imageBytes x.2 u.2.1 u.2.2
  generalize State.readFor u.1 (coreFor p x.1) (imageAddr saveOff x.1) imageBytes x.2 u.2.1 u.2.2 = w at e k2
  exact e ▸ k2

theorem State.copyImages_keeps {s₀ : State} {s : State} (h : Keeps s₀ s) (p : ℕ) (saveOff : W64) (old : List ℕ)
    (new : List ℕ) :
    Keeps s₀ (State.copyImages s p saveOff old new).1 := by
  unfold State.copyImages
  extract_lets x1
  have h1 : Keeps s₀ x1.1 := by
    unfold x1
    apply State.readImagesFor_keeps
    with_reducible assumption
  clear_value x1
  dsimp only
  refine Keeps.foldl (fun x2 x3 x4 => ?_) _ ?_
  · apply State.writeView_keeps
    with_reducible assumption
  · with_reducible assumption

theorem State.moveNow_keeps {s₀ : State} {s : State} (h : Keeps s₀ s) (ctx : ℕ) (mask : W16) :
    Keeps s₀ (State.moveNow s ctx mask) := by
  unfold State.moveNow
  extract_lets x1 x2 x3 x4 x5
  clear_value x1
  clear_value x2
  clear_value x3
  have h4 : Keeps s₀ x4.1 := by
    unfold x4
    split
    · with_reducible assumption
    · apply State.copyImages_keeps
      with_reducible assumption
  clear_value x4
  have h5 : Keeps s₀ x5 := by
    unfold x5
    apply State.bump32_keeps
    apply State.onCtx_keeps
    with_reducible assumption
  clear_value x5
  split
  · apply State.faultContext_keeps
    with_reducible assumption
  · with_reducible assumption

theorem State.moveContext_keeps {s₀ : State} {s : State} (h : Keeps s₀ s) (ctx : ℕ) (mask : W16) :
    Keeps s₀ (State.moveContext s ctx mask) := by
  unfold State.moveContext
  extract_lets x1 x2
  clear_value x1
  have h2 : Keeps s₀ x2 := by
    unfold x2
    split
    · apply State.preempt_keeps
      with_reducible assumption
    · with_reducible assumption
  clear_value x2
  split
  · with_reducible assumption
  · split
    · apply State.setCtx_keeps
      with_reducible assumption
    · split
      · apply State.preempt_keeps
        apply State.setCtx_keeps
        with_reducible assumption
      · apply State.schedule_keeps
        apply State.moveNow_keeps
        with_reducible assumption

theorem State.saved_keeps {s₀ : State} {s : State} (h : Keeps s₀ s) (ctx : ℕ) :
    Keeps s₀ (State.saved s ctx) := by
  unfold State.saved
  extract_lets x1 x2 x3 x4 x5 x6 x7 x8 x9 x10 x11
  clear_value x1
  clear_value x2
  have h3 : Keeps s₀ x3 := by
    unfold x3
    refine Keeps.foldl (fun x12 x13 x14 => ?_) _ ?_
    · apply State.capture_keeps
      with_reducible assumption
    · with_reducible assumption
  clear_value x3
  clear_value x4
  have h5 : Keeps s₀ x5 := by
    unfold x5
    refine Keeps.foldl (fun x15 x16 x17 => ?_) _ ?_
    · apply State.writeImage_keeps
      with_reducible assumption
    · with_reducible assumption
  clear_value x5
  have h6 : Keeps s₀ x6 := by
    unfold x6
    apply State.writeRecord_keeps
    with_reducible assumption
  clear_value x6
  have h7 : Keeps s₀ x7 := by
    unfold x7
    refine Keeps.foldl (fun x18 x19 x20 => ?_) _ ?_
    · apply State.event_keeps
      apply State.vacate_keeps
      with_reducible assumption
    · with_reducible assumption
  clear_value x7
  have h8 : Keeps s₀ x8 := by
    unfold x8
    apply State.setCtx_keeps
    with_reducible assumption
  clear_value x8
  have h9 : Keeps s₀ x9 := by
    unfold x9
    apply State.bump_keeps
    with_reducible assumption
  clear_value x9
  have h10 : Keeps s₀ x10 := by
    unfold x10
    split
    · apply State.moveNow_keeps
      with_reducible assumption
    · with_reducible assumption
  clear_value x10
  have h11 : Keeps s₀ x11 := by
    unfold x11
    split
    · with_reducible assumption
    · apply State.stampReady_keeps
      with_reducible assumption
  clear_value x11
  split
  · with_reducible assumption
  · apply State.schedule_keeps
    with_reducible assumption

theorem State.probeBytes_keeps {s₀ : State} {s : State} (h : Keeps s₀ s) (r : Requester) (a : W64) (n : ℕ)
    (bad : Option W64) :
    Keeps s₀ (State.probeBytes s r a n bad).1 := by
  unfold State.probeBytes
  extract_lets x1
  have h1 : Keeps s₀ x1.state := by
    unfold x1
    apply State.readView_keeps
    with_reducible assumption
  clear_value x1
  with_reducible assumption

theorem State.readImages_keeps {s₀ : State} {s : State} (h : Keeps s₀ s) (ctx : ℕ) :
    Keeps s₀ (State.readImages s ctx).1 := by
  unfold State.readImages
  extract_lets x1 x2 x3
  clear_value x1
  clear_value x2
  have h3 : Keeps s₀ x3.state := by
    unfold x3
    apply State.readView_keeps
    with_reducible assumption
  clear_value x3
  refine Keeps.foldl1 (fun x4 x5 x6 => ?_) _ ?_
  · apply State.probeBytes_keeps
    with_reducible assumption
  · with_reducible assumption

theorem State.restored_keeps {s₀ : State} {s : State} (h : Keeps s₀ s) (ctx : ℕ) :
    Keeps s₀ (State.restored s ctx) := by
  unfold State.restored
  extract_lets x1 x2 x3 x4 x5 x6 x7
  clear_value x1
  clear_value x2
  have h3 : Keeps s₀ x3.1 := by
    unfold x3
    apply State.readImages_keeps
    with_reducible assumption
  clear_value x3
  clear_value x4
  have h5 : Keeps s₀ x5 := by
    unfold x5
    refine Keeps.foldl (fun x8 x9 x10 => ?_) _ ?_
    · apply State.event_keeps
      apply State.onCore_keeps
      with_reducible assumption
    · with_reducible assumption
  clear_value x5
  have h6 : Keeps s₀ x6 := by
    unfold x6
    apply State.setCtx_keeps
    with_reducible assumption
  clear_value x6
  have h7 : Keeps s₀ x7 := by
    unfold x7
    apply State.bump_keeps
    with_reducible assumption
  clear_value x7
  split
  · with_reducible assumption
  · split
    · apply State.faultContext_keeps
      with_reducible assumption
    · split
      · apply State.preempt_keeps
        with_reducible assumption
      · apply State.pumpCores_keeps
        with_reducible assumption

theorem State.dropCache_keeps {s₀ : State} {s : State} (h : Keeps s₀ s) (p : ℕ) :
    Keeps s₀ (State.dropCache s p) := by
  unfold State.dropCache
  extract_lets x1
  have h1 : Keeps s₀ x1 := by
    unfold x1
    apply State.onPolder_keeps
    with_reducible assumption
  clear_value x1
  apply State.setCacheCount_keeps
  apply State.setCacheCount_keeps
  apply State.setCacheCount_keeps
  with_reducible assumption

theorem State.formPolder_keeps {s₀ : State} {s : State} (h : Keeps s₀ s) (p : ℕ) :
    Keeps s₀ (State.formPolder s p) := by
  unfold State.formPolder
  extract_lets x1 x2 x3 x4
  have h1 : Keeps s₀ x1 := by
    unfold x1
    refine Keeps.of_eq (u := s) rfl rfl rfl rfl rfl rfl ?_
    with_reducible assumption
  clear_value x1
  clear_value x2
  have h3 : Keeps s₀ x3 := by
    unfold x3
    apply State.setEntry_keeps
    apply State.setEntry_keeps
    with_reducible assumption
  clear_value x3
  have h4 : Keeps s₀ x4 := by
    unfold x4
    apply State.onPolder_keeps
    apply State.dropCache_keeps
    with_reducible assumption
  clear_value x4
  apply State.event_keeps
  with_reducible assumption

theorem State.zeroSite_keeps {s₀ : State} {s : State} (h : Keeps s₀ s) (site : ℕ) :
    Keeps s₀ (State.zeroSite s site) := by
  unfold State.zeroSite
  refine Keeps.of_forms (u := s) rfl (Store.wf_clearCells _ _ _) (Store.wf_clearCells _ _ _) id id id ?_
  with_reducible assumption

theorem State.joinSite_keeps {s₀ : State} {s : State} (h : Keeps s₀ s) (site : ℕ) :
    Keeps s₀ (State.joinSite s site) := by
  unfold State.joinSite
  extract_lets x1
  have h1 : Keeps s₀ x1 := by
    unfold x1
    apply State.zeroCounters_keeps
    apply State.zeroSite_keeps
    with_reducible assumption
  clear_value x1
  refine Keeps.of_eq (u := x1) rfl rfl rfl rfl rfl rfl ?_
  with_reducible assumption

theorem State.siteFilled_keeps {s₀ : State} {s : State} (h : Keeps s₀ s) (site : ℕ) :
    Keeps s₀ (State.siteFilled s site) := by
  unfold State.siteFilled
  split
  · with_reducible assumption
  · extract_lets x1 x2 x3 x4
    clear_value x1
    have h2 : Keeps s₀ x2 := by
      unfold x2
      apply State.joinSite_keeps
      with_reducible assumption
    clear_value x2
    clear_value x3
    have h4 : Keeps s₀ x4 := by
      unfold x4
      apply State.onPolder_keeps
      with_reducible assumption
    clear_value x4
    split
    · with_reducible assumption
    · split
      · apply State.formPolder_keeps
        with_reducible assumption
      · with_reducible assumption

theorem State.dropSite_keeps {s₀ : State} {s : State} (h : Keeps s₀ s) (site : ℕ) :
    Keeps s₀ (State.dropSite s site) := by
  unfold State.dropSite
  extract_lets x1
  have h1 : Keeps s₀ x1 := by
    unfold x1
    apply State.zeroSite_keeps
    with_reducible assumption
  clear_value x1
  apply State.setEntry_keeps
  apply State.setEntry_keeps
  apply State.setEntry_keeps
  with_reducible assumption

theorem State.applyMask_keeps {s₀ : State} {s : State} (h : Keeps s₀ s) (p : ℕ) (old : ℕ) (new : ℕ) :
    Keeps s₀ (State.applyMask s p old new) := by
  unfold State.applyMask
  extract_lets x1 x2 x3 x4 x5 x6 x7
  clear_value x1
  clear_value x2
  have h3 : Keeps s₀ x3 := by
    unfold x3
    refine Keeps.foldl (fun x8 x9 x10 => ?_) _ ?_
    · apply State.dropSite_keeps
      with_reducible assumption
    · with_reducible assumption
  clear_value x3
  have h4 : Keeps s₀ x4 := by
    unfold x4
    split
    · with_reducible assumption
    · apply State.closeStreams_keeps
      with_reducible assumption
  clear_value x4
  have h5 : Keeps s₀ x5 := by
    unfold x5
    apply State.eraseSeals_keeps
    with_reducible assumption
  clear_value x5
  clear_value x6
  have h7 : Keeps s₀ x7 := by
    unfold x7
    apply State.onPolder_keeps
    apply State.dropCache_keeps
    with_reducible assumption
  clear_value x7
  split
  · apply State.formPolder_keeps
    with_reducible assumption
  · with_reducible assumption

theorem State.replaceDomain_keeps {s₀ : State} {s : State} (h : Keeps s₀ s) (key : ℕ) (bs : List Byte) :
    Keeps s₀ (State.replaceDomain s key bs) := by
  unfold State.replaceDomain
  extract_lets x1
  clear_value x1
  refine Keeps.of_eq (u := s) rfl rfl rfl rfl rfl rfl ?_
  with_reducible assumption

theorem State.takeSnapshot_keeps {s₀ : State} {s : State} (h : Keeps s₀ s) (p : ℕ) :
    Keeps s₀ (State.takeSnapshot s p) := by
  unfold State.takeSnapshot
  extract_lets x1 x2
  clear_value x1
  have h2 : Keeps s₀ x2 := by
    unfold x2
    apply State.replaceDomain_keeps
    with_reducible assumption
  clear_value x2
  refine Keeps.of_eq (u := x2) rfl rfl rfl rfl rfl rfl ?_
  with_reducible assumption

/-! ### Entries -/

theorem State.readEntry_keeps {s₀ : State} {s : State} (h : Keeps s₀ s) (r : EntryRow) (index : ℕ) (sub : ℕ) :
    Keeps s₀ (State.readEntry s r index sub).1 := by
  unfold State.readEntry
  split
  · with_reducible assumption
  · with_reducible assumption
  · with_reducible assumption
  · split
    · dsimp only
      apply State.usedFree_keeps
      with_reducible assumption
    · dsimp only
      apply State.usedFree_keeps
      with_reducible assumption

/-! ### Writes -/

theorem State.writeRollback_keeps {s₀ : State} {s : State} (h : Keeps s₀ s) (f : Rollback → Rollback) :
    Keeps s₀ (State.writeRollback s f) := by
  unfold State.writeRollback
  extract_lets x1 x2 x3 x4 x5
  clear_value x1
  clear_value x2
  clear_value x3
  clear_value x4
  have h5 : Keeps s₀ x5 := by
    unfold x5
    apply State.setEntry_keeps
    with_reducible assumption
  clear_value x5
  split
  · refine Keeps.of_eq (u := x5) rfl rfl rfl rfl rfl rfl ?_
    with_reducible assumption
  · refine Keeps.of_eq (u := x5) rfl rfl rfl rfl rfl rfl ?_
    with_reducible assumption

theorem State.storeKept_keeps {s₀ : State} {s : State} (h : Keeps s₀ s) :
    Keeps s₀ (State.storeKept s) := by
  unfold State.storeKept
  extract_lets x1 x2
  clear_value x1
  clear_value x2
  split
  · refine Keeps.of_eq (u := s) rfl rfl rfl rfl rfl rfl ?_
    with_reducible assumption
  · refine Keeps.of_eq (u := s) rfl rfl rfl rfl rfl rfl ?_
    with_reducible assumption

theorem State.storeOwner_keeps {s₀ : State} {s : State} (h : Keeps s₀ s) :
    Keeps s₀ (State.storeOwner s) := by
  unfold State.storeOwner
  extract_lets x1 x2
  clear_value x1
  clear_value x2
  split
  · refine Keeps.of_eq (u := s) rfl rfl rfl rfl rfl rfl ?_
    with_reducible assumption
  · refine Keeps.of_eq (u := s) rfl rfl rfl rfl rfl rfl ?_
    with_reducible assumption

theorem State.loadKept_keeps {s₀ : State} {s : State} (h : Keeps s₀ s) :
    Keeps s₀ (State.loadKept s) := by
  unfold State.loadKept
  refine Keeps.of_eq (u := s) rfl rfl rfl rfl rfl rfl ?_
  with_reducible assumption

theorem State.clearFlags_keeps {s₀ : State} {s : State} (h : Keeps s₀ s) (index : ℕ) (mask : ℕ) :
    Keeps s₀ (State.clearFlags s index mask) := by
  unfold State.clearFlags
  extract_lets x1 x2 x3
  clear_value x1
  have h2 : Keeps s₀ x2 := by
    unfold x2
    apply State.postAll_keeps
    with_reducible assumption
  clear_value x2
  clear_value x3
  apply State.setEntry_keeps
  with_reducible assumption

theorem State.enablePort_keeps {s₀ : State} {s : State} (h : Keeps s₀ s) (q : ℕ) (on : Bool) :
    Keeps s₀ (State.enablePort s q on) := by
  unfold State.enablePort
  split
  · apply State.setPort_keeps
    with_reducible assumption
  · split
    · apply State.onPort_keeps
      with_reducible assumption
    · with_reducible assumption

theorem State.store_keeps {s₀ : State} {s : State} (h : Keeps s₀ s) (r : EntryRow) (index : ℕ) (sub : ℕ) (v : ℕ) :
    Keeps s₀ (State.store s r index sub v) := by
  unfold State.store
  split
  · apply State.clearFlags_keeps
    with_reducible assumption
  · extract_lets x1 x2 x3
    clear_value x1
    clear_value x2
    have h3 : Keeps s₀ x3 := by
      unfold x3
      split
      · apply State.setKept_keeps
        with_reducible assumption
      · apply State.setEntry_keeps
        with_reducible assumption
    clear_value x3
    split
    · refine Keeps.of_eq (u := x3) rfl rfl rfl rfl rfl rfl ?_
      with_reducible assumption
    · split
      · split
        · apply State.applyMask_keeps
          with_reducible assumption
        · with_reducible assumption
      · split
        · apply State.enablePort_keeps
          with_reducible assumption
        · with_reducible assumption

theorem State.clearDomain_keeps {s₀ : State} {s : State} (h : Keeps s₀ s) (key : ℕ) (size : ℕ) :
    Keeps s₀ (State.clearDomain s key size) := by
  unfold State.clearDomain
  refine Keeps.of_eq (u := s) rfl rfl rfl rfl rfl rfl ?_
  with_reducible assumption

theorem State.release_keeps {s₀ : State} {s : State} (h : Keeps s₀ s) :
    Keeps s₀ (State.release s) := by
  unfold State.release
  extract_lets x1 x2 x3 x4 x5
  have h1 : Keeps s₀ x1 := by
    unfold x1
    refine Keeps.foldl (fun x6 x7 x8 => ?_) _ ?_
    · refine Keeps.foldl (fun x9 x10 x11 => ?_) _ ?_
      · apply State.teardown_keeps
        with_reducible assumption
      · with_reducible assumption
    · with_reducible assumption
  clear_value x1
  clear_value x2
  have h3 : Keeps s₀ x3 := by
    unfold x3
    refine Keeps.of_eq (u := x1) rfl rfl rfl rfl rfl rfl ?_
    with_reducible assumption
  clear_value x3
  have h4 : Keeps s₀ x4 := by
    unfold x4
    apply State.clearDomain_keeps
    apply State.clearDomain_keeps
    with_reducible assumption
  clear_value x4
  have h5 : Keeps s₀ x5 := by
    unfold x5
    refine Keeps.foldl (fun x12 x13 x14 => ?_) _ ?_
    · apply State.applyMask_keeps
      with_reducible assumption
    · with_reducible assumption
  clear_value x5
  refine Keeps.foldl (fun x15 x16 x17 => ?_) _ ?_
  · apply State.enablePort_keeps
    with_reducible assumption
  · with_reducible assumption

theorem State.clearHist_keeps {s₀ : State} {s : State} (h : Keeps s₀ s) (core : ℕ) :
    Keeps s₀ (State.clearHist s core) := by
  unfold State.clearHist
  refine Keeps.of_eq (u := s) rfl rfl rfl rfl rfl rfl ?_
  with_reducible assumption

theorem State.act_keeps {s₀ : State} {s : State} (h : Keeps s₀ s) (index : ℕ) (sub : ℕ) (v : ℕ) :
    Keeps s₀ (State.act s index sub v) := by
  unfold State.act
  split
  · split
    · apply State.resetPolder_keeps
      with_reducible assumption
    · apply State.requestPreempt_keeps
      with_reducible assumption
    · apply State.schedule_keeps
      apply State.teardown_keeps
      with_reducible assumption
    · apply State.moveContext_keeps
      with_reducible assumption
  · apply State.takeSnapshot_keeps
    with_reducible assumption
  · split
    · apply State.clearHist_keeps
      with_reducible assumption
    · split
      · apply State.initCache_keeps
        with_reducible assumption
      · refine Keeps.of_eq (u := s) rfl rfl rfl rfl rfl rfl ?_
        with_reducible assumption
      · split
        · apply State.writeRollback_keeps
          with_reducible assumption
        · apply State.writeRollback_keeps
          with_reducible assumption
        · apply State.release_keeps
          with_reducible assumption
        · refine Keeps.of_eq (u := s) rfl rfl rfl rfl rfl rfl ?_
          with_reducible assumption
        · with_reducible assumption

theorem State.applyItems_keeps {s₀ : State} {s : State} (h : Keeps s₀ s) (vs : List (ℕ × ℕ)) :
    Keeps s₀ (State.applyItems s vs) := by
  unfold State.applyItems
  extract_lets x1
  refine Keeps.foldl (fun x2 x3 x4 => ?_) _ ?_
  · unfold x1
    extract_lets x5 x6
    clear_value x5
    clear_value x6
    split
    · with_reducible assumption
    · split
      · with_reducible assumption
      · split
        · apply State.act_keeps
          with_reducible assumption
        · apply State.store_keeps
          with_reducible assumption
  · refine Keeps.foldl (fun x7 x8 x9 => ?_) _ ?_
    · unfold x1
      extract_lets x10 x11
      clear_value x10
      clear_value x11
      split
      · with_reducible assumption
      · split
        · with_reducible assumption
        · split
          · apply State.act_keeps
            with_reducible assumption
          · apply State.store_keeps
            with_reducible assumption
    · with_reducible assumption

/-! ### Tsusen -/

theorem State.sayOn_keeps {s₀ : State} {s : State} (h : Keeps s₀ s) (path : MgmtPath) (session : W16) (seq : W16)
    (r : Resp) :
    Keeps s₀ (State.sayOn s path session seq r) := by
  unfold State.sayOn
  extract_lets x1
  clear_value x1
  apply State.send_keeps
  with_reducible assumption

theorem State.sayTo_keeps {s₀ : State} {s : State} (h : Keeps s₀ s) (h' : Hdr) (r : Resp) :
    Keeps s₀ (State.sayTo s h' r) := by
  unfold State.sayTo
  apply State.sayOn_keeps
  with_reducible assumption

theorem State.answer_keeps {s₀ : State} {s : State} (h : Keeps s₀ s) (h' : Hdr) (r : Resp) :
    Keeps s₀ (State.answer s h' r) := by
  unfold State.answer
  extract_lets x1
  have h1 : Keeps s₀ x1 := by
    unfold x1
    split
    · with_reducible assumption
    · apply State.setSession_keeps
      with_reducible assumption
  clear_value x1
  apply State.sayTo_keeps
  with_reducible assumption

theorem State.reply_keeps {s₀ : State} {s : State} (h : Keeps s₀ s) (q : Req) (status : ℕ) (payload : List Byte) :
    Keeps s₀ (State.reply s q status payload) := by
  unfold State.reply
  apply State.answer_keeps
  with_reducible assumption

theorem State.queueNv_keeps {s₀ : State} {s : State} (h : Keeps s₀ s) (place : ℕ) (n : ℕ) (w : NvWork) :
    Keeps s₀ (State.queueNv s place n w) := by
  unfold State.queueNv
  extract_lets x1
  clear_value x1
  refine Keeps.of_eq (u := s) rfl rfl rfl rfl rfl rfl ?_
  with_reducible assumption

theorem State.queueItems_keeps {s₀ : State} {s : State} (h : Keeps s₀ s) (q : Req) (vs : List (ℕ × ℕ))
    (ordinal : Option ℕ) :
    Keeps s₀ (State.queueItems s q vs ordinal) := by
  unfold State.queueItems
  extract_lets x1
  clear_value x1
  apply State.queueNv_keeps
  apply State.usedFree_keeps
  with_reducible assumption

theorem State.recordItem_keeps {s₀ : State} {s : State} (h : Keeps s₀ s) (x : Session) (index : ℕ) (sub : ℕ) :
    Keeps s₀ (State.recordItem s x index sub).1 := by
  unfold State.recordItem
  extract_lets x1
  split
  · with_reducible assumption
  · extract_lets x2
    have h2 : Keeps s₀ x2.1 := by
      unfold x2
      apply State.readEntry_keeps
      with_reducible assumption
    clear_value x2
    with_reducible assumption

theorem State.recordBytes_keeps {s₀ : State} {s : State} (h : Keeps s₀ s) (x : Session) (index : ℕ) :
    Keeps s₀ (State.recordBytes s x index).1 := by
  unfold State.recordBytes
  refine Keeps.foldl1 (fun x1 x2 x3 => ?_) _ ?_
  · extract_lets x4
    have h4 : Keeps s₀ x4.1 := by
      unfold x4
      apply State.recordItem_keeps
      with_reducible assumption
    clear_value x4
    with_reducible assumption
  · with_reducible assumption

theorem State.serveRead_keeps {s₀ : State} {s : State} (h : Keeps s₀ s) (q : Req) (x : Session) (index : ℕ)
    (sub : ℕ) :
    Keeps s₀ (State.serveRead s q x index sub) := by
  unfold State.serveRead
  split
  · apply State.reply_keeps
    with_reducible assumption
  · extract_lets x1
    have h1 : Keeps s₀ x1.1 := by
      unfold x1
      apply State.readEntry_keeps
      with_reducible assumption
    clear_value x1
    apply State.reply_keeps
    with_reducible assumption

theorem State.takeItems_keeps {s₀ : State} {s : State} (h : Keeps s₀ s) (q : Req) (vs : List (ℕ × ℕ)) (batch : Bool) :
    Keeps s₀ (State.takeItems s q vs batch) := by
  unfold State.takeItems
  split
  · apply State.queueItems_keeps
    with_reducible assumption
  · apply State.reply_keeps
    apply State.applyItems_keeps
    with_reducible assumption

theorem State.serveWrite_keeps {s₀ : State} {s : State} (h : Keeps s₀ s) (q : Req) (x : Session) (index : ℕ) (sub : ℕ)
    (data : List Byte) :
    Keeps s₀ (State.serveWrite s q x index sub data) := by
  unfold State.serveWrite
  split
  · apply State.reply_keeps
    with_reducible assumption
  · apply State.takeItems_keeps
    with_reducible assumption

theorem State.serveSegRead_keeps {s₀ : State} {s : State} (h : Keeps s₀ s) (q : Req) (x : Session) (index : ℕ)
    (sub : ℕ) (offset : ℕ) (length : ℕ) (gen : W32) :
    Keeps s₀ (State.serveSegRead s q x index sub offset length gen) := by
  unfold State.serveSegRead
  split
  · apply State.reply_keeps
    with_reducible assumption
  · split
    · apply State.reply_keeps
      with_reducible assumption
    · split
      · apply State.reply_keeps
        with_reducible assumption
      · split
        · apply State.reply_keeps
          with_reducible assumption
        · apply State.reply_keeps
          with_reducible assumption

theorem State.takeDomain_keeps {s₀ : State} {s : State} (h : Keeps s₀ s) (q : Req) (index : ℕ) (sub : ℕ)
    (data : List Byte) :
    Keeps s₀ (State.takeDomain s q index sub data) := by
  unfold State.takeDomain
  split
  · split
    · apply State.reply_keeps
      with_reducible assumption
    · apply State.reply_keeps
      refine Keeps.of_eq (u := s) rfl rfl rfl rfl rfl rfl ?_
      with_reducible assumption
  · split
    · apply State.queueNv_keeps
      with_reducible assumption
    · split
      · apply State.reply_keeps
        with_reducible assumption
      · apply State.queueNv_keeps
        with_reducible assumption

theorem State.setSeg_keeps {s₀ : State} {s : State} (h : Keeps s₀ s) (n : ℕ) (g : Option SegSeq) :
    Keeps s₀ (State.setSeg s n g) := by
  unfold State.setSeg
  split
  · with_reducible assumption
  · apply State.setSession_keeps
    with_reducible assumption

theorem State.serveSegWrite_keeps {s₀ : State} {s : State} (h : Keeps s₀ s) (q : Req) (x : Session) (index : ℕ)
    (sub : ℕ) (offset : ℕ) (last : Bool) (data : List Byte) :
    Keeps s₀ (State.serveSegWrite s q x index sub offset last data) := by
  unfold State.serveSegWrite
  split
  · apply State.reply_keeps
    with_reducible assumption
  · split
    · apply State.reply_keeps
      with_reducible assumption
    · extract_lets x1 x2 x3 x4
      clear_value x1
      clear_value x2
      clear_value x3
      clear_value x4
      split
      · apply State.reply_keeps
        apply State.setSeg_keeps
        with_reducible assumption
      · extract_lets x5
        clear_value x5
        split
        · apply State.reply_keeps
          apply State.setSeg_keeps
          with_reducible assumption
        · split
          · apply State.takeDomain_keeps
            apply State.setSeg_keeps
            with_reducible assumption
          · apply State.reply_keeps
            apply State.setSeg_keeps
            with_reducible assumption

theorem State.serveSubscribe_keeps {s₀ : State} {s : State} (h : Keeps s₀ s) (q : Req) (x : Session) (index : ℕ)
    (on : Bool) :
    Keeps s₀ (State.serveSubscribe s q x index on) := by
  unfold State.serveSubscribe
  split
  · apply State.reply_keeps
    with_reducible assumption
  · split
    · apply State.reply_keeps
      with_reducible assumption
    · extract_lets x1
      clear_value x1
      apply State.reply_keeps
      apply State.setSession_keeps
      with_reducible assumption

theorem State.serveRecord_keeps {s₀ : State} {s : State} (h : Keeps s₀ s) (q : Req) (x : Session) (index : ℕ) :
    Keeps s₀ (State.serveRecord s q x index) := by
  unfold State.serveRecord
  split
  · apply State.reply_keeps
    with_reducible assumption
  · split
    · apply State.reply_keeps
      with_reducible assumption
    · split
      · apply State.reply_keeps
        with_reducible assumption
      · extract_lets x1
        have h1 : Keeps s₀ x1.1 := by
          unfold x1
          apply State.recordBytes_keeps
          with_reducible assumption
        clear_value x1
        apply State.reply_keeps
        with_reducible assumption

theorem State.serveBatch_keeps {s₀ : State} {s : State} (h : Keeps s₀ s) (q : Req) (x : Session)
    (payload : List Byte) :
    Keeps s₀ (State.serveBatch s q x payload) := by
  unfold State.serveBatch
  split
  · apply State.reply_keeps
    with_reducible assumption
  · split
    · apply State.reply_keeps
      with_reducible assumption
    · apply State.reply_keeps
      with_reducible assumption
    · split
      · apply State.reply_keeps
        with_reducible assumption
      · apply State.takeItems_keeps
        with_reducible assumption

theorem State.endSession_keeps {s₀ : State} {s : State} (h : Keeps s₀ s) (n : ℕ) :
    Keeps s₀ (State.endSession s n) := by
  unfold State.endSession
  split
  · with_reducible assumption
  · extract_lets x1 x2
    have h2 : Keeps s₀ x2 := by
      unfold x2
      refine Keeps.of_eq (u := s) rfl rfl rfl rfl rfl rfl ?_
      with_reducible assumption
    clear_value x2
    split
    · apply State.setEntry_keeps
      with_reducible assumption
    · with_reducible assumption

theorem State.serve_keeps {s₀ : State} {s : State} (h : Keeps s₀ s) (q : Req) :
    Keeps s₀ (State.serve s q) := by
  unfold State.serve
  split
  · with_reducible assumption
  · split
    · apply State.serveRead_keeps
      with_reducible assumption
    · apply State.serveWrite_keeps
      with_reducible assumption
    · apply State.serveSegRead_keeps
      with_reducible assumption
    · apply State.serveSegWrite_keeps
      with_reducible assumption
    · apply State.serveSubscribe_keeps
      with_reducible assumption
    · apply State.serveRecord_keeps
      with_reducible assumption
    · apply State.serveBatch_keeps
      with_reducible assumption
    · apply State.endSession_keeps
      apply State.reply_keeps
      with_reducible assumption
    · apply State.reply_keeps
      with_reducible assumption

theorem State.halted_keeps {s₀ : State} {s : State} (h : Keeps s₀ s) (h' : Hdr) (body : Body) :
    Keeps s₀ (State.halted s h' body) := by
  unfold State.halted
  extract_lets x1
  split
  · split
    · split
      · unfold x1
        apply State.sayTo_keeps
        with_reducible assumption
      · extract_lets x2
        have h2 : Keeps s₀ x2.1 := by
          unfold x2
          apply State.readEntry_keeps
          with_reducible assumption
        clear_value x2
        unfold x1
        apply State.sayTo_keeps
        with_reducible assumption
    · unfold x1
      apply State.sayTo_keeps
      with_reducible assumption
  · unfold x1
    apply State.sayTo_keeps
    with_reducible assumption

theorem State.dropInband_keeps {s₀ : State} {s : State} (h : Keeps s₀ s) :
    Keeps s₀ (State.dropInband s) := by
  unfold State.dropInband
  split
  · with_reducible assumption
  · apply State.bump32_keeps
    with_reducible assumption

theorem State.request_keeps {s₀ : State} {s : State} (h : Keeps s₀ s) (h' : Hdr) (asked : Body) :
    Keeps s₀ (State.request s h' asked) := by
  unfold State.request
  extract_lets x1 x2 x3
  clear_value x1
  clear_value x3
  split
  · with_reducible assumption
  · split
    · apply State.dropInband_keeps
      with_reducible assumption
    · split
      · apply State.halted_keeps
        with_reducible assumption
      · split
        · apply State.bump32_keeps
          with_reducible assumption
        · split
          · apply State.bump32_keeps
            with_reducible assumption
          · split
            · apply State.sayTo_keeps
              with_reducible assumption
            · split
              · split
                · unfold x2
                  apply State.sayTo_keeps
                  with_reducible assumption
                · split
                  · with_reducible assumption
                  · split
                    · unfold x2
                      apply State.sayTo_keeps
                      with_reducible assumption
                    · split
                      · refine Keeps.of_eq (u := s) rfl rfl rfl rfl rfl rfl ?_
                        with_reducible assumption
                      · apply State.serve_keeps
                        with_reducible assumption
              · split
                · unfold x2
                  apply State.sayTo_keeps
                  with_reducible assumption
                · split
                  · with_reducible assumption
                  · split
                    · unfold x2
                      apply State.sayTo_keeps
                      with_reducible assumption
                    · split
                      · refine Keeps.of_eq (u := s) rfl rfl rfl rfl rfl rfl ?_
                        with_reducible assumption
                      · apply State.serve_keeps
                        with_reducible assumption

theorem State.commit_keeps {s₀ : State} {s : State} (h : Keeps s₀ s) (a : NvWork) :
    Keeps s₀ (State.commit s a) := by
  unfold State.commit
  split
  · extract_lets x1 x2
    have h1 : Keeps s₀ x1 := by
      unfold x1
      apply State.applyItems_keeps
      with_reducible assumption
    clear_value x1
    have h2 : Keeps s₀ x2 := by
      unfold x2
      split
      · apply State.storeKept_keeps
        with_reducible assumption
      · with_reducible assumption
    clear_value x2
    apply State.reply_keeps
    split
    · apply State.storeOwner_keeps
      with_reducible assumption
    · with_reducible assumption
  · apply State.reply_keeps
    apply State.storeKept_keeps
    apply State.replaceDomain_keeps
    with_reducible assumption
  · extract_lets x3 x4
    clear_value x3
    have h4 : Keeps s₀ x4 := by
      unfold x4
      split
      · refine Keeps.of_eq (u := s) rfl rfl rfl rfl rfl rfl ?_
        with_reducible assumption
      · refine Keeps.of_eq (u := s) rfl rfl rfl rfl rfl rfl ?_
        with_reducible assumption
    clear_value x4
    apply State.reply_keeps
    apply State.replaceDomain_keeps
    with_reducible assumption
  · with_reducible assumption

theorem State.defer_keeps {s₀ : State} {s : State} (h : Keeps s₀ s) (a : NvWork) :
    Keeps s₀ (State.defer s a) := by
  unfold State.defer
  split
  · apply State.reply_keeps
    with_reducible assumption
  · apply State.reply_keeps
    with_reducible assumption
  · apply State.reply_keeps
    with_reducible assumption
  · apply State.reply_keeps
    with_reducible assumption
  · with_reducible assumption

theorem State.measure_keeps {s₀ : State} {s : State} (h : Keeps s₀ s) (x : HoldReading) :
    Keeps s₀ (State.measure s x) := by
  unfold State.measure
  extract_lets x1 x2 x3 x4 x5 x6
  clear_value x1
  clear_value x2
  clear_value x3
  have h4 : Keeps s₀ x4 := by
    unfold x4
    apply State.usedFree_keeps
    apply State.usedFree_keeps
    with_reducible assumption
  clear_value x4
  clear_value x5
  clear_value x6
  apply State.setEntry_keeps
  apply State.setEntry_keeps
  with_reducible assumption

theorem State.ownReading_keeps {s₀ : State} {s : State} (h : Keeps s₀ s) :
    Keeps s₀ (State.ownReading s).1 := by
  unfold State.ownReading
  extract_lets x1 x2 x3
  clear_value x1
  clear_value x2
  clear_value x3
  dsimp only
  apply State.usedFree_keeps
  apply State.usedFree_keeps
  apply State.usedFree_keeps
  with_reducible assumption

theorem State.ownWrite_keeps {s₀ : State} {s : State} (h : Keeps s₀ s) (write : State → State)
    (hwrite : ∀ y1, Keeps s₀ y1 → Keeps s₀ (write y1)) :
    Keeps s₀ (State.ownWrite s write).1 := by
  unfold State.ownWrite
  extract_lets x1 x2 x3
  clear_value x1
  have h2 : Keeps s₀ x2.1 := by
    unfold x2
    apply State.ownReading_keeps
    apply State.usedFree_keeps
    with_reducible assumption
  clear_value x2
  have h3 : Keeps s₀ x3 := by
    unfold x3
    apply State.measure_keeps
    with_reducible assumption
  clear_value x3
  split
  · dsimp only
    apply State.bump_keeps
    apply hwrite
    with_reducible assumption
  · dsimp only
    apply State.event_keeps
    apply State.bump_keeps
    with_reducible assumption

/-! ### Handshakes -/

theorem State.dropHandshake_keeps {s₀ : State} {s : State} (h : Keeps s₀ s) (path : HsPath) (n : W32) :
    Keeps s₀ (State.dropHandshake s path n) := by
  unfold State.dropHandshake
  refine Keeps.of_eq (u := s) rfl rfl rfl rfl rfl rfl ?_
  with_reducible assumption

theorem State.putHandshake_keeps {s₀ : State} {s : State} (h : Keeps s₀ s) (h' : Handshake) :
    Keeps s₀ (State.putHandshake s h') := by
  unfold State.putHandshake
  split
  · refine Keeps.of_eq (u := s) rfl rfl rfl rfl rfl rfl ?_
    with_reducible assumption
  · refine Keeps.of_eq (u := s) rfl rfl rfl rfl rfl rfl ?_
    with_reducible assumption

theorem State.takeH1_keeps {s₀ : State} {s : State} (h : Keeps s₀ s) (h' : Handshake) :
    Keeps s₀ (State.takeH1 s h').1 := by
  unfold State.takeH1
  extract_lets x1 x2 x3 x4 x5 x6
  clear_value x1
  clear_value x2
  have h3 : Keeps s₀ x3 := by
    unfold x3
    apply State.usedFree_keeps
    with_reducible assumption
  clear_value x3
  clear_value x4
  clear_value x5
  have h6 : Keeps s₀ x6 := by
    unfold x6
    apply State.putHandshake_keeps
    with_reducible assumption
  clear_value x6
  split
  · dsimp only
    apply State.bump32_keeps
    apply State.dropHandshake_keeps
    with_reducible assumption
  · split
    · dsimp only
      apply State.dropHandshake_keeps
      with_reducible assumption
    · split
      · dsimp only
        apply State.bump_keeps
        with_reducible assumption
      · dsimp only
        apply State.usedFree_keeps
        refine Keeps.of_eq (u := x6) rfl rfl rfl rfl rfl rfl ?_
        with_reducible assumption

theorem State.h1Fragment_keeps {s₀ : State} {s : State} (h : Keeps s₀ s) (h' : Handshake) (f : Fragment) :
    Keeps s₀ (State.h1Fragment s h' f).1 := by
  unfold State.h1Fragment
  split
  · with_reducible assumption
  · split
    · with_reducible assumption
    · extract_lets x1 x2
      clear_value x1
      have h2 : Keeps s₀ x2.1 := by
        unfold x2
        apply State.takeH1_keeps
        apply State.putHandshake_keeps
        with_reducible assumption
      clear_value x2
      split
      · dsimp only
        apply State.putHandshake_keeps
        with_reducible assumption
      · split
        · dsimp only
          apply State.putHandshake_keeps
          with_reducible assumption
        · with_reducible assumption

theorem State.sendH2_keeps {s₀ : State} {s : State} (h : Keeps s₀ s) (h' : Handshake) :
    Keeps s₀ (State.sendH2 s h') := by
  unfold State.sendH2
  apply State.sendHs_keeps
  with_reducible assumption

theorem State.signNext_keeps {s₀ : State} {s : State} (h : Keeps s₀ s) :
    Keeps s₀ (State.signNext s) := by
  unfold State.signNext
  split
  · with_reducible assumption
  · extract_lets x1
    have h1 : Keeps s₀ x1 := by
      unfold x1
      refine Keeps.of_eq (u := s) rfl rfl rfl rfl rfl rfl ?_
      with_reducible assumption
    clear_value x1
    split
    · with_reducible assumption
    · extract_lets x2 x3 x4
      clear_value x2
      clear_value x3
      have h4 : Keeps s₀ x4 := by
        unfold x4
        apply State.putHandshake_keeps
        with_reducible assumption
      clear_value x4
      split
      · apply State.sendH2_keeps
        with_reducible assumption
      · apply State.sendH2_keeps
        with_reducible assumption
      · with_reducible assumption

theorem State.h3Fragment_keeps {s₀ : State} {s : State} (h : Keeps s₀ s) (h' : Handshake) (f : Fragment) :
    Keeps s₀ (State.h3Fragment s h' f).1 := by
  unfold State.h3Fragment
  extract_lets x1 x2
  clear_value x1
  clear_value x2
  split
  · with_reducible assumption
  · dsimp only
    apply State.putHandshake_keeps
    with_reducible assumption

theorem State.failHandshake_keeps {s₀ : State} {s : State} (h : Keeps s₀ s) (h' : Handshake) :
    Keeps s₀ (State.failHandshake s h') := by
  unfold State.failHandshake
  apply State.bump32_keeps
  apply State.dropHandshake_keeps
  with_reducible assumption

theorem State.ackHandshake_keeps {s₀ : State} {s : State} (h : Keeps s₀ s) (h' : Handshake) (n : W32) (status : ℕ)
    (payload : List Byte) :
    Keeps s₀ (State.ackHandshake s h' n status payload) := by
  unfold State.ackHandshake
  apply State.putHandshake_keeps
  with_reducible assumption

theorem State.negotiated_keeps {s₀ : State} {s : State} (h : Keeps s₀ s) (index : ℕ) (least : ℕ) (h' : Handshake) :
    Keeps s₀ (State.negotiated s index least h').1 := by
  unfold State.negotiated
  split
  · dsimp only
    apply State.bump32_keeps
    with_reducible assumption
  · with_reducible assumption

theorem State.sayOpen_keeps {s₀ : State} {s : State} (h : Keeps s₀ s) (path : MgmtPath) (seq : W16) (type : ℕ)
    (n : W32) (status : ℕ) (payload : List Byte) (offset : optParam ℕ 0) :
    Keeps s₀ (State.sayOpen s path seq type n status payload offset) := by
  unfold State.sayOpen
  apply State.sayOn_keeps
  with_reducible assumption

theorem State.answerOpen_keeps {s₀ : State} (path : MgmtPath) (seq : W16) (n : W32) (r : State × HsStep)
    (hr : Keeps s₀ r.1) :
    Keeps s₀ (State.answerOpen path seq n r) := by
  unfold State.answerOpen
  split
  · apply State.sayOpen_keeps
    with_reducible assumption
  · with_reducible assumption
  · apply State.sayOpen_keeps
    with_reducible assumption
  · apply State.sayOpen_keeps
    with_reducible assumption

theorem State.openH1_keeps {s₀ : State} {s : State} (h : Keeps s₀ s) (path : MgmtPath) (session : W16) (seq : W16)
    (f : Fragment) :
    Keeps s₀ (State.openH1 s path session seq f) := by
  unfold State.openH1
  split
  · split
    · apply State.sayOpen_keeps
      with_reducible assumption
    · split
      · apply State.sayOpen_keeps
        with_reducible assumption
      · extract_lets x1
        clear_value x1
        apply State.answerOpen_keeps
        apply State.h1Fragment_keeps
        with_reducible assumption
  · split
    · with_reducible assumption
    · apply State.answerOpen_keeps
      apply State.h1Fragment_keeps
      with_reducible assumption

theorem State.openRequest_keeps {s₀ : State} {s : State} (h : Keeps s₀ s) (path : MgmtPath) (session : W16)
    (seq : W16) (msg : HsPart) :
    Keeps s₀ (State.openRequest s path session seq msg) := by
  unfold State.openRequest
  split
  · apply State.sayOpen_keeps
    with_reducible assumption
  · split
    · apply State.openH1_keeps
      with_reducible assumption
    · split
      · with_reducible assumption
      · split
        · apply State.sayOpen_keeps
          with_reducible assumption
        · apply State.sayOpen_keeps
          with_reducible assumption

theorem State.beginSession_keeps {s₀ : State} {s : State} (h : Keeps s₀ s) (path : MgmtPath) (seq : W16)
    (h' : Handshake) (keys : Keys) (edition : ℕ) :
    Keeps s₀ (State.beginSession s path seq h' keys edition) := by
  unfold State.beginSession
  split
  · apply State.sayOpen_keeps
    with_reducible assumption
  · extract_lets x1 x2 x3
    clear_value x1
    clear_value x2
    clear_value x3
    apply State.sayOpen_keeps
    apply State.ackHandshake_keeps
    apply State.bump_keeps
    apply State.setSession_keeps
    with_reducible assumption

theorem State.openFinish_keeps {s₀ : State} {s : State} (h : Keeps s₀ s) (path : MgmtPath) (session : W16) (seq : W16)
    (f : Fragment) :
    Keeps s₀ (State.openFinish s path session seq f) := by
  unfold State.openFinish
  split
  · apply State.sayOpen_keeps
    with_reducible assumption
  · split
    · with_reducible assumption
    · split
      · apply State.sayOpen_keeps
        with_reducible assumption
      · split
        · with_reducible assumption
        · split
          · apply State.sayOpen_keeps
            refine Keeps.of_pair (by assumption) ?_
            apply State.h3Fragment_keeps
            with_reducible assumption
          · split
            · apply State.failHandshake_keeps
              refine Keeps.of_pair (by assumption) ?_
              apply State.h3Fragment_keeps
              with_reducible assumption
            · split
              · apply State.sayOpen_keeps
                apply State.ackHandshake_keeps
                refine Keeps.of_pair (by assumption) ?_
                apply State.negotiated_keeps
                refine Keeps.of_pair (by assumption) ?_
                apply State.h3Fragment_keeps
                with_reducible assumption
              · apply State.beginSession_keeps
                refine Keeps.of_pair (by assumption) ?_
                apply State.negotiated_keeps
                refine Keeps.of_pair (by assumption) ?_
                apply State.h3Fragment_keeps
                with_reducible assumption

theorem State.sayHost_keeps {s₀ : State} {s : State} (h : Keeps s₀ s) (type : ℕ) (h' : HostHdr) (status : ℕ)
    (payload : List Byte) :
    Keeps s₀ (State.sayHost s type h' status payload) := by
  unfold State.sayHost
  apply State.send_keeps
  with_reducible assumption

theorem State.answerAssoc_keeps {s₀ : State} (h' : HostHdr) (n : W32) (r : State × HsStep) (hr : Keeps s₀ r.1) :
    Keeps s₀ (State.answerAssoc h' n r) := by
  unfold State.answerAssoc
  extract_lets x1
  clear_value x1
  split
  · apply State.sayHost_keeps
    with_reducible assumption
  · with_reducible assumption
  · apply State.sayHost_keeps
    with_reducible assumption
  · apply State.sayHost_keeps
    with_reducible assumption

theorem State.assocH1_keeps {s₀ : State} {s : State} (h : Keeps s₀ s) (h' : HostHdr) (f : Fragment) :
    Keeps s₀ (State.assocH1 s h' f) := by
  unfold State.assocH1
  split
  · split
    · apply State.sayHost_keeps
      with_reducible assumption
    · split
      · apply State.sayHost_keeps
        with_reducible assumption
      · extract_lets x1
        clear_value x1
        apply State.answerAssoc_keeps
        apply State.h1Fragment_keeps
        with_reducible assumption
  · split
    · with_reducible assumption
    · apply State.answerAssoc_keeps
      apply State.h1Fragment_keeps
      with_reducible assumption

theorem State.assocRequest_keeps {s₀ : State} {s : State} (h : Keeps s₀ s) (h' : HostHdr) (msg : HsPart) :
    Keeps s₀ (State.assocRequest s h' msg) := by
  unfold State.assocRequest
  split
  · with_reducible assumption
  · split
    · apply State.sayHost_keeps
      with_reducible assumption
    · split
      · apply State.assocH1_keeps
        with_reducible assumption
      · split
        · with_reducible assumption
        · split
          · apply State.sayHost_keeps
            with_reducible assumption
          · apply State.sayHost_keeps
            with_reducible assumption

theorem State.beginAssoc_keeps {s₀ : State} {s : State} (h : Keeps s₀ s) (h' : HostHdr) (x : Handshake) (keys : Keys)
    (edition : ℕ) :
    Keeps s₀ (State.beginAssoc s h' x keys edition) := by
  unfold State.beginAssoc
  split
  · apply State.sayHost_keeps
    with_reducible assumption
  · extract_lets x1 x2 x3 x4
    clear_value x1
    clear_value x2
    clear_value x3
    clear_value x4
    apply State.sayHost_keeps
    apply State.ackHandshake_keeps
    apply State.bump_keeps
    refine Keeps.of_eq (u := s) rfl rfl rfl rfl rfl rfl ?_
    with_reducible assumption

theorem State.assocFinish_keeps {s₀ : State} {s : State} (h : Keeps s₀ s) (h' : HostHdr) (f : Fragment) :
    Keeps s₀ (State.assocFinish s h' f) := by
  unfold State.assocFinish
  split
  · with_reducible assumption
  · split
    · apply State.sayHost_keeps
      with_reducible assumption
    · split
      · with_reducible assumption
      · split
        · apply State.sayHost_keeps
          with_reducible assumption
        · split
          · with_reducible assumption
          · split
            · apply State.sayHost_keeps
              refine Keeps.of_pair (by assumption) ?_
              apply State.h3Fragment_keeps
              with_reducible assumption
            · split
              · apply State.failHandshake_keeps
                refine Keeps.of_pair (by assumption) ?_
                apply State.h3Fragment_keeps
                with_reducible assumption
              · split
                · apply State.sayHost_keeps
                  apply State.ackHandshake_keeps
                  refine Keeps.of_pair (by assumption) ?_
                  apply State.negotiated_keeps
                  refine Keeps.of_pair (by assumption) ?_
                  apply State.h3Fragment_keeps
                  with_reducible assumption
                · apply State.beginAssoc_keeps
                  refine Keeps.of_pair (by assumption) ?_
                  apply State.negotiated_keeps
                  refine Keeps.of_pair (by assumption) ?_
                  apply State.h3Fragment_keeps
                  with_reducible assumption

theorem State.openChannel_keeps {s₀ : State} {s : State} (h : Keeps s₀ s) (q : ℕ) (peer : BitVec 48) (keys : Keys) :
    Keeps s₀ (State.openChannel s q peer keys) := by
  unfold State.openChannel
  extract_lets x1
  clear_value x1
  split
  · apply State.setPort_keeps
    with_reducible assumption
  · split
    · with_reducible assumption
    · apply State.setPort_keeps
      with_reducible assumption

theorem State.acceptLink_keeps {s₀ : State} {s : State} (h : Keeps s₀ s) (peer : W16) (h' : Handshake) (keys : Keys) :
    Keeps s₀ (State.acceptLink s peer h' keys) := by
  unfold State.acceptLink
  split
  · apply State.failPeer_keeps
    refine Keeps.of_pair (by assumption) ?_
    apply State.negotiated_keeps
    with_reducible assumption
  · extract_lets x1 x2 x3
    clear_value x1
    have h2 : Keeps s₀ x2.1 := by
      unfold x2
      apply State.grantCredits_keeps
      apply State.usedFree_keeps
      refine Keeps.of_pair (by assumption) ?_
      apply State.negotiated_keeps
      with_reducible assumption
    clear_value x2
    have h3 : Keeps s₀ x3 := by
      unfold x3
      with_reducible assumption
    clear_value x3
    apply State.linkOpened_keeps
    refine Keeps.of_eq (u := x3) rfl rfl rfl rfl rfl rfl ?_
    with_reducible assumption

theorem State.frameH1_keeps {s₀ : State} {s : State} (h : Keeps s₀ s) (path : HsPath) (n : W16) (f : Fragment) :
    Keeps s₀ (State.frameH1 s path n f) := by
  unfold State.frameH1
  split
  · with_reducible assumption
  · extract_lets x1
    clear_value x1
    split
    · apply State.sendH2_keeps
      with_reducible assumption
    · apply State.h1Fragment_keeps
      with_reducible assumption

theorem State.frameH3_keeps {s₀ : State} {s : State} (h : Keeps s₀ s) (path : HsPath) (n : W16) (f : Fragment) :
    Keeps s₀ (State.frameH3 s path n f) := by
  unfold State.frameH3
  split
  · with_reducible assumption
  · split
    · with_reducible assumption
    · split
      · with_reducible assumption
      · split
        · refine Keeps.of_pair (by assumption) ?_
          apply State.h3Fragment_keeps
          with_reducible assumption
        · split
          · apply State.failHandshake_keeps
            refine Keeps.of_pair (by assumption) ?_
            apply State.h3Fragment_keeps
            with_reducible assumption
          · extract_lets x1
            have h1 : Keeps s₀ x1 := by
              unfold x1
              apply State.bump_keeps
              apply State.ackHandshake_keeps
              refine Keeps.of_pair (by assumption) ?_
              apply State.h3Fragment_keeps
              with_reducible assumption
            clear_value x1
            split
            · apply State.openChannel_keeps
              with_reducible assumption
            · apply State.acceptLink_keeps
              with_reducible assumption
            · with_reducible assumption

theorem State.frameH2_keeps {s₀ : State} {s : State} (h : Keeps s₀ s) (path : HsPath) (n : W16) (off : ℕ) :
    Keeps s₀ (State.frameH2 s path n off) := by
  unfold State.frameH2
  split
  · with_reducible assumption
  · split
    · apply State.send_keeps
      with_reducible assumption
    · with_reducible assumption

/-! ### Serving -/

theorem State.answerDiscover_keeps {s₀ : State} {s : State} (h : Keeps s₀ s) (path : MgmtPath) :
    Keeps s₀ (State.answerDiscover s path) := by
  unfold State.answerDiscover
  extract_lets x1
  have h1 : Keeps s₀ x1.1 := by
    unfold x1
    apply State.recordBytes_keeps
    with_reducible assumption
  clear_value x1
  apply State.sayOn_keeps
  with_reducible assumption

theorem State.serveMessage_keeps {s₀ : State} {s : State} (h : Keeps s₀ s) (a : MgmtMsg) :
    Keeps s₀ (State.serveMessage s a) := by
  unfold State.serveMessage
  split
  · apply State.serve_keeps
    with_reducible assumption
  · apply State.answerDiscover_keeps
    with_reducible assumption
  · apply State.openRequest_keeps
    with_reducible assumption
  · apply State.openFinish_keeps
    with_reducible assumption

theorem State.takeMessage_keeps {s₀ : State} {s : State} (h : Keeps s₀ s) (path : MgmtPath) (m : MgmtMsg) :
    Keeps s₀ (State.takeMessage s path m) := by
  unfold State.takeMessage
  split
  · with_reducible assumption
  · split
    · apply State.dropInband_keeps
      with_reducible assumption
    · split
      · refine Keeps.of_eq (u := s) rfl rfl rfl rfl rfl rfl ?_
        with_reducible assumption
      · apply State.serveMessage_keeps
        with_reducible assumption

theorem State.serveWaiting_keeps {s₀ : State} {s : State} (h : Keeps s₀ s) :
    Keeps s₀ (State.serveWaiting s) := by
  unfold State.serveWaiting
  refine Keeps.foldl (fun x1 x2 x3 => ?_) _ ?_
  · split
    · refine Keeps.of_eq (u := x1) rfl rfl rfl rfl rfl rfl ?_
      with_reducible assumption
    · apply State.serveMessage_keeps
      with_reducible assumption
  · refine Keeps.of_eq (u := s) rfl rfl rfl rfl rfl rfl ?_
    with_reducible assumption

theorem State.startBatch_keeps {s₀ : State} {s : State} (h : Keeps s₀ s) (x : HoldReading) :
    Keeps s₀ (State.startBatch s x) := by
  unfold State.startBatch
  split
  · with_reducible assumption
  · split
    · with_reducible assumption
    · extract_lets x1 x2
      clear_value x1
      have h2 : Keeps s₀ x2 := by
        unfold x2
        apply State.measure_keeps
        with_reducible assumption
      clear_value x2
      split
      · refine Keeps.of_eq (u := x2) rfl rfl rfl rfl rfl rfl ?_
        with_reducible assumption
      · apply State.serveWaiting_keeps
        apply State.defer_keeps
        apply State.event_keeps
        apply State.bump_keeps
        refine Keeps.of_eq (u := x2) rfl rfl rfl rfl rfl rfl ?_
        with_reducible assumption

theorem State.endBatch_keeps {s₀ : State} {s : State} (h : Keeps s₀ s) :
    Keeps s₀ (State.endBatch s) := by
  unfold State.endBatch
  split
  · with_reducible assumption
  · extract_lets x1
    have h1 : Keeps s₀ x1 := by
      unfold x1
      apply State.bump_keeps
      refine Keeps.of_eq (u := s) rfl rfl rfl rfl rfl rfl ?_
      with_reducible assumption
    clear_value x1
    split
    · apply State.serveWaiting_keeps
      apply State.commit_keeps
      with_reducible assumption
    · with_reducible assumption

theorem State.stopWrites_keeps {s₀ : State} {s : State} (h : Keeps s₀ s) :
    Keeps s₀ (State.stopWrites s) := by
  unfold State.stopWrites
  split
  · with_reducible assumption
  · extract_lets x1 x2
    have h1 : Keeps s₀ x1 := by
      unfold x1
      refine Keeps.of_eq (u := s) rfl rfl rfl rfl rfl rfl ?_
      with_reducible assumption
    clear_value x1
    have h2 : Keeps s₀ x2 := by
      unfold x2
      apply State.defer_keeps
      with_reducible assumption
    clear_value x2
    split
    · with_reducible assumption
    · apply State.serveWaiting_keeps
      with_reducible assumption

/-! ### Memory's canonical form

Every operation that writes memory, alone. -/

theorem State.writeWord_wf {s : State} (w : Memory.wf s.mem = true) (r : Requester) (cw : Nat) (data : List Byte) :
    Memory.wf (s.writeWord r cw data).mem = true := (State.writeWord_keeps (Keeps.refl s) r cw data).mem w

theorem State.writeWord_check_wf {s : State} (w : Store.wf s.check = true) (r : Requester) (cw : Nat) (data : List Byte) :
    Store.wf (s.writeWord r cw data).check = true := (State.writeWord_keeps (Keeps.refl s) r cw data).check w

theorem State.writeView_wf {s : State} (w : Memory.wf s.mem = true) (r : Requester) (a : W64) (bs : List Byte) :
    Memory.wf (s.writeView r a bs).mem = true := (State.writeView_keeps (Keeps.refl s) r a bs).mem w

theorem State.writeView_check_wf {s : State} (w : Store.wf s.check = true) (r : Requester) (a : W64) (bs : List Byte) :
    Store.wf (s.writeView r a bs).check = true := (State.writeView_keeps (Keeps.refl s) r a bs).check w

theorem State.zeroRange_wf {s : State} (w : Memory.wf s.mem = true) (p : Nat) (base : W64) (n : Nat) :
    Memory.wf (s.zeroRange p base n).mem = true := (State.zeroRange_keeps (Keeps.refl s) p base n).mem w

theorem State.zeroRange_check_wf {s : State} (w : Store.wf s.check = true) (p : Nat) (base : W64) (n : Nat) :
    Store.wf (s.zeroRange p base n).check = true := (State.zeroRange_keeps (Keeps.refl s) p base n).check w

theorem State.zeroSite_wf {s : State} (w : Memory.wf s.mem = true) (site : Nat) :
    Memory.wf (s.zeroSite site).mem = true := (State.zeroSite_keeps (Keeps.refl s) site).mem w

theorem State.zeroSite_check_wf {s : State} (w : Store.wf s.check = true) (site : Nat) :
    Store.wf (s.zeroSite site).check = true := (State.zeroSite_keeps (Keeps.refl s) site).check w

theorem State.dropSite_wf {s : State} (w : Memory.wf s.mem = true) (site : Nat) :
    Memory.wf (s.dropSite site).mem = true := (State.dropSite_keeps (Keeps.refl s) site).mem w

theorem State.dropSite_check_wf {s : State} (w : Store.wf s.check = true) (site : Nat) :
    Store.wf (s.dropSite site).check = true := (State.dropSite_keeps (Keeps.refl s) site).check w

end Sys2Proof.Machine
end

