-- ==== Sys2Proof/Laws/KeepsDevice.lean ====
section
/-! SUPPORT. What host requests, ports, power and boot keep (`Keeps`). -/

namespace Sys2Proof.Machine

/-! ### Host -/

theorem State.onAssoc_keeps {s₀ : State} {s : State} (h : Keeps s₀ s) (type : ℕ) (h' : HostHdr) (n : ℕ)
    (f : Association → State) (hf : ∀ y1, Keeps s₀ (f y1)) :
    Keeps s₀ (State.onAssoc s type h' n f) := by
  unfold State.onAssoc
  split
  · with_reducible assumption
  · split
    · apply State.sayHost_keeps
      with_reducible assumption
    · split
      · with_reducible assumption
      · split
        · apply State.sayHost_keeps
          with_reducible assumption
        · apply hf

theorem State.onContext_keeps {s₀ : State} {s : State} (h : Keeps s₀ s) (type : ℕ) (h' : HostHdr) (ctx : ℕ)
    (a : Association) (f : State) (hf : Keeps s₀ f) :
    Keeps s₀ (State.onContext s type h' ctx a f) := by
  unfold State.onContext
  split
  · apply State.sayHost_keeps
    with_reducible assumption
  · split
    · apply State.sayHost_keeps
      with_reducible assumption
    · with_reducible assumption

theorem State.refuseHost_keeps {s₀ : State} {s : State} (h : Keeps s₀ s) (type : ℕ) (h' : HostHdr) (reason : ℕ) :
    Keeps s₀ (State.refuseHost s type h' reason) := by
  unfold State.refuseHost
  apply State.sayHost_keeps
  with_reducible assumption

theorem State.newContext_keeps {s₀ : State} {s : State} (h : Keeps s₀ s) (a : Association) (ctx : ℕ) (pl : List Byte)
    (cs : ℕ) (me : ℕ) :
    Keeps s₀ (State.newContext s a ctx pl cs me) := by
  unfold State.newContext
  extract_lets x1 x2 x3 x4
  clear_value x1
  clear_value x2
  clear_value x3
  have h4 : Keeps s₀ x4 := by
    unfold x4
    apply State.setCtx_keeps
    with_reducible assumption
  clear_value x4
  refine Keeps.of_eq (u := x4) rfl rfl rfl rfl rfl rfl ?_
  with_reducible assumption

theorem State.offered_keeps {s₀ : State} {s : State} (h : Keeps s₀ s) (index : ℕ) (pl : List Byte) (at' : ℕ) :
    Keeps s₀ (State.offered s index pl at').1 := by
  unfold State.offered
  split
  · dsimp only
    apply State.bump32_keeps
    with_reducible assumption
  · with_reducible assumption

theorem State.ctxOpen_keeps {s₀ : State} {s : State} (h : Keeps s₀ s) (h' : HostHdr) (pl : List Byte) :
    Keeps s₀ (State.ctxOpen s h' pl) := by
  unfold State.ctxOpen
  apply State.onAssoc_keeps
  · with_reducible assumption
  · intro x1
    extract_lets x2 x3 x4 x5
    clear_value x2
    clear_value x3
    have h4 : Keeps s₀ x4.1 := by
      unfold x4
      apply State.offered_keeps
      with_reducible assumption
    clear_value x4
    have h5 : Keeps s₀ x5.1 := by
      unfold x5
      apply State.offered_keeps
      with_reducible assumption
    clear_value x5
    split
    · apply State.sayHost_keeps
      with_reducible assumption
    · apply State.onContext_keeps
      · with_reducible assumption
      · split
        · apply State.sayHost_keeps
          with_reducible assumption
        · split
          · apply State.refuseHost_keeps
            with_reducible assumption
          · split
            · apply State.sayHost_keeps
              apply State.newContext_keeps
              with_reducible assumption
            · apply State.sayHost_keeps
              with_reducible assumption

theorem State.ctxClose_keeps {s₀ : State} {s : State} (h : Keeps s₀ s) (h' : HostHdr) :
    Keeps s₀ (State.ctxClose s h') := by
  unfold State.ctxClose
  apply State.onAssoc_keeps
  · with_reducible assumption
  · intro x1
    apply State.onContext_keeps
    · with_reducible assumption
    · split
      · apply State.sayHost_keeps
        with_reducible assumption
      · apply State.sayHost_keeps
        apply State.schedule_keeps
        apply State.teardown_keeps
        with_reducible assumption

theorem State.endAssoc_keeps {s₀ : State} {s : State} (h : Keeps s₀ s) (n : W32) :
    Keeps s₀ (State.endAssoc s n) :=
  Keeps.of_forms (u := s) rfl id id id id (rising_map _ _) h

theorem State.assocClose_keeps {s₀ : State} {s : State} (h : Keeps s₀ s) (h' : HostHdr) :
    Keeps s₀ (State.assocClose s h') := by
  unfold State.assocClose
  apply State.onAssoc_keeps
  · with_reducible assumption
  · intro x1
    apply State.sayHost_keeps
    apply State.endAssoc_keeps
    with_reducible assumption

theorem State.assocIdle_keeps {s₀ : State} {s : State} (h : Keeps s₀ s) (n : W32) :
    Keeps s₀ (State.assocIdle s n) := by
  unfold State.assocIdle
  apply State.endAssoc_keeps
  with_reducible assumption

theorem State.dropAssembly_keeps {s₀ : State} {s : State} (h : Keeps s₀ s) (ctx : ℕ) (k : ℕ) :
    Keeps s₀ (State.dropAssembly s ctx k) := by
  unfold State.dropAssembly
  apply State.onCtx_keeps
  with_reducible assumption

theorem State.putAssembly_keeps {s₀ : State} {s : State} (h : Keeps s₀ s) (ctx : ℕ) (a : Assembly) :
    Keeps s₀ (State.putAssembly s ctx a) := by
  unfold State.putAssembly
  apply State.onCtx_keeps
  apply State.dropAssembly_keeps
  with_reducible assumption

theorem State.answerPosting_keeps {s₀ : State} {s : State} (h : Keeps s₀ s) (a : Assembly)
    (answer : State → HostHdr → State) (hanswer : ∀ y1 y2, Keeps s₀ y1 → Keeps s₀ (answer y1 y2)) :
    Keeps s₀ (State.answerPosting s a answer) := by
  unfold State.answerPosting
  refine Keeps.foldl (fun x1 x2 x3 => ?_) _ ?_
  · apply hanswer
    with_reducible assumption
  · with_reducible assumption

theorem State.postNext_keeps {s₀ : State} {s : State} (h : Keeps s₀ s) (ctx : ℕ) :
    Keeps s₀ (State.postNext s ctx) := by
  unfold State.postNext
  extract_lets x1
  clear_value x1
  split
  · with_reducible assumption
  · split
    · with_reducible assumption
    · split
      · apply State.answerPosting_keeps
        · apply State.dropAssembly_keeps
          with_reducible assumption
        · intro x2
          intro x3
          intro x4
          apply State.refuseHost_keeps
          with_reducible assumption
      · extract_lets x5
        have h5 : Keeps s₀ x5 := by
          unfold x5
          apply State.onCtx_keeps
          apply State.dropAssembly_keeps
          with_reducible assumption
        clear_value x5
        apply State.answerPosting_keeps
        · apply State.bump_keeps
          with_reducible assumption
        · intro x6
          intro x7
          intro x8
          apply State.sayHost_keeps
          with_reducible assumption

theorem State.postReady_keeps {s₀ : State} {s : State} (h : Keeps s₀ s) (ctx : ℕ) :
    Keeps s₀ (State.postReady s ctx) := by
  unfold State.postReady
  extract_lets x1 x2 x3 x4
  clear_value x1
  have h2 : Keeps s₀ x2 := by
    unfold x2
    refine Keeps.foldl (fun x5 x6 x7 => ?_) _ ?_
    · apply State.postNext_keeps
      with_reducible assumption
    · with_reducible assumption
  clear_value x2
  clear_value x3
  have h4 : Keeps s₀ x4 := by
    unfold x4
    split
    · apply State.stampReady_keeps
      apply State.onCtx_keeps
      with_reducible assumption
    · split
      · apply State.stampReady_keeps
        with_reducible assumption
      · with_reducible assumption
  clear_value x4
  split
  · with_reducible assumption
  · apply State.schedule_keeps
    with_reducible assumption

theorem State.land_keeps {s₀ : State} {s : State} (h : Keeps s₀ s) (p : ℕ) (x : Pkg) (parts : List (ℕ × List Byte)) :
    Keeps s₀ (State.land s p x parts) := by
  unfold State.land
  refine Keeps.foldl (fun x1 x2 x3 => ?_) _ ?_
  · apply State.writeView_keeps
    with_reducible assumption
  · with_reducible assumption

theorem State.checkPkg_keeps {s₀ : State} {s : State} (h : Keeps s₀ s) (ctx : ℕ) (x : Pkg) (bs : List Byte) :
    Keeps s₀ (State.checkPkg s ctx x bs).1 := by
  unfold State.checkPkg
  extract_lets x1 x2
  clear_value x1
  clear_value x2
  split
  · dsimp only
    apply State.event_keeps
    apply State.writeView_keeps
    with_reducible assumption
  · extract_lets x3
    have h3 : Keeps s₀ x3 := by
      unfold x3
      split
      · apply State.writeView_keeps
        with_reducible assumption
      · with_reducible assumption
    clear_value x3
    split
    · dsimp only
      apply State.event_keeps
      with_reducible assumption
    · with_reducible assumption

theorem State.completeAssembly_keeps {s₀ : State} {s : State} (h : Keeps s₀ s) (h' : HostHdr) (ctx : ℕ) (k : ℕ)
    (x : Pkg) (bs : List Byte) :
    Keeps s₀ (State.completeAssembly s h' ctx k x bs) := by
  unfold State.completeAssembly
  split
  · apply State.refuseHost_keeps
    apply State.dropAssembly_keeps
    refine Keeps.of_pair (by assumption) ?_
    apply State.checkPkg_keeps
    with_reducible assumption
  · apply State.postReady_keeps
    apply State.putAssembly_keeps
    refine Keeps.of_pair (by assumption) ?_
    apply State.checkPkg_keeps
    with_reducible assumption

theorem State.takeSegment_keeps {s₀ : State} {s : State} (h : Keeps s₀ s) (h' : HostHdr) (ctx : ℕ) (k : ℕ)
    (bs : List Byte) :
    Keeps s₀ (State.takeSegment s h' ctx k bs) := by
  unfold State.takeSegment
  extract_lets x1 x2 x3 x4
  clear_value x1
  clear_value x2
  clear_value x3
  clear_value x4
  split
  · apply State.sayHost_keeps
    apply State.putAssembly_keeps
    with_reducible assumption
  · split
    · apply State.refuseHost_keeps
      apply State.dropAssembly_keeps
      with_reducible assumption
    · split
      · apply State.sayHost_keeps
        with_reducible assumption
      · split
        · apply State.refuseHost_keeps
          apply State.dropAssembly_keeps
          with_reducible assumption
        · extract_lets x5 x6
          have h5 : Keeps s₀ x5 := by
            unfold x5
            split
            · with_reducible assumption
            · apply State.land_keeps
              with_reducible assumption
          clear_value x5
          have h6 : Keeps s₀ x6 := by
            unfold x6
            apply State.putAssembly_keeps
            with_reducible assumption
          clear_value x6
          split
          · apply State.sayHost_keeps
            with_reducible assumption
          · split
            · apply State.sayHost_keeps
              apply State.putAssembly_keeps
              with_reducible assumption
            · apply State.completeAssembly_keeps
              with_reducible assumption

theorem State.repeatSegment_keeps {s₀ : State} {s : State} (h : Keeps s₀ s) (h' : HostHdr) (ctx : ℕ) (x : Assembly) :
    Keeps s₀ (State.repeatSegment s h' ctx x) := by
  unfold State.repeatSegment
  split
  · apply State.putAssembly_keeps
    with_reducible assumption
  · apply State.sayHost_keeps
    with_reducible assumption

theorem State.submit_keeps {s₀ : State} {s : State} (h : Keeps s₀ s) (h' : HostHdr) (payload : List Byte)
    (arrived : List Byte) :
    Keeps s₀ (State.submit s h' payload arrived) := by
  unfold State.submit
  apply State.onAssoc_keeps
  · with_reducible assumption
  · intro x1
    extract_lets x2 x3 x4
    clear_value x2
    clear_value x3
    clear_value x4
    apply State.onContext_keeps
    · with_reducible assumption
    · split
      · apply State.refuseHost_keeps
        with_reducible assumption
      · split
        · apply State.sayHost_keeps
          with_reducible assumption
        · split
          · apply State.sayHost_keeps
            with_reducible assumption
          · split
            · apply State.sayHost_keeps
              with_reducible assumption
            · split
              · apply State.sayHost_keeps
                apply State.bump_keeps
                apply State.event_keeps
                with_reducible assumption
              · split
                · split
                  · apply State.repeatSegment_keeps
                    with_reducible assumption
                  · apply State.takeSegment_keeps
                    with_reducible assumption
                · apply State.takeSegment_keeps
                  with_reducible assumption

theorem State.assemblyExpiry_keeps {s₀ : State} {s : State} (h : Keeps s₀ s) (ctx : ℕ) (k : ℕ) :
    Keeps s₀ (State.assemblyExpiry s ctx k) := by
  unfold State.assemblyExpiry
  split
  · with_reducible assumption
  · split
    · with_reducible assumption
    · apply State.event_keeps
      apply State.bump_keeps
      apply State.dropAssembly_keeps
      with_reducible assumption

theorem State.resultBytes_keeps {s₀ : State} {s : State} (h : Keeps s₀ s) (p : ℕ) (r : ResultSlot) (off : ℕ) (n : ℕ) :
    Keeps s₀ (State.resultBytes s p r off n).1 := by
  unfold State.resultBytes
  extract_lets x1 x2 x3 x4 x5
  clear_value x1
  clear_value x2
  clear_value x3
  have h4 : Keeps s₀ x4.state := by
    unfold x4
    apply State.readView_keeps
    with_reducible assumption
  clear_value x4
  clear_value x5
  split
  · with_reducible assumption
  · with_reducible assumption

theorem State.resendSegments_keeps {s₀ : State} {s : State} (h : Keeps s₀ s) (p : ℕ) (r : ResultSlot) (off : ℕ)
    (n : ℕ) (fails : List ℕ) :
    Keeps s₀ (State.resendSegments s p r off n fails).1 := by
  unfold State.resendSegments
  extract_lets x1 x2
  clear_value x1
  clear_value x2
  refine Keeps.foldl1 (fun x3 x4 x5 => ?_) _ ?_
  · extract_lets x6 x7 x8
    clear_value x6
    clear_value x7
    have h8 : Keeps s₀ x8 := by
      unfold x8
      apply State.event_keeps
      with_reducible assumption
    clear_value x8
    refine Keeps.foldl1 (fun x9 x10 x11 => ?_) _ ?_
    · extract_lets x12
      have h12 : Keeps s₀ x12.1 := by
        unfold x12
        apply State.resultBytes_keeps
        with_reducible assumption
      clear_value x12
      with_reducible assumption
    · with_reducible assumption
  · with_reducible assumption

theorem State.getResult_keeps {s₀ : State} {s : State} (h : Keeps s₀ s) (h' : HostHdr) :
    Keeps s₀ (State.getResult s h') := by
  unfold State.getResult
  apply State.onAssoc_keeps
  · with_reducible assumption
  · intro x1
    extract_lets x2 x3 x4 x5 x6 x7
    clear_value x2
    clear_value x3
    clear_value x4
    clear_value x5
    clear_value x6
    have h7 : Keeps s₀ x7 := by
      unfold x7
      split
      · apply State.sayHost_keeps
        apply State.bump_keeps
        with_reducible assumption
      · apply State.sayHost_keeps
        apply State.bump_keeps
        with_reducible assumption
    clear_value x7
    apply State.onContext_keeps
    · with_reducible assumption
    · split
      · apply State.sayHost_keeps
        with_reducible assumption
      · split
        · with_reducible assumption
        · split
          · with_reducible assumption
          · split
            · apply State.sayHost_keeps
              with_reducible assumption
            · split
              · apply State.sayHost_keeps
                apply State.event_keeps
                refine Keeps.of_pair (by assumption) ?_
                apply State.resultBytes_keeps
                with_reducible assumption
              · split
                · apply State.sayHost_keeps
                  refine Keeps.of_pair (by assumption) ?_
                  apply State.resendSegments_keeps
                  refine Keeps.of_pair (by assumption) ?_
                  apply State.resultBytes_keeps
                  with_reducible assumption
                · apply State.sayHost_keeps
                  refine Keeps.of_pair (by assumption) ?_
                  apply State.resendSegments_keeps
                  refine Keeps.of_pair (by assumption) ?_
                  apply State.resultBytes_keeps
                  with_reducible assumption

theorem State.releaseSlot_keeps {s₀ : State} {s : State} (h : Keeps s₀ s) (h' : HostHdr) :
    Keeps s₀ (State.releaseSlot s h') := by
  unfold State.releaseSlot
  apply State.onAssoc_keeps
  · with_reducible assumption
  · intro x1
    extract_lets x2 x3 x4
    clear_value x2
    clear_value x3
    have h4 : Keeps s₀ x4 := by
      unfold x4
      apply State.sayHost_keeps
      apply State.bump_keeps
      with_reducible assumption
    clear_value x4
    apply State.onContext_keeps
    · with_reducible assumption
    · split
      · apply State.sayHost_keeps
        with_reducible assumption
      · split
        · with_reducible assumption
        · split
          · with_reducible assumption
          · split
            · apply State.sayHost_keeps
              with_reducible assumption
            · extract_lets x5
              have h5 : Keeps s₀ x5 := by
                unfold x5
                apply State.onCtx_keeps
                with_reducible assumption
              clear_value x5
              apply State.sayHost_keeps
              apply State.placeWaiting_keeps
              with_reducible assumption

theorem State.fabricJoin_keeps {s₀ : State} {s : State} (h : Keeps s₀ s) (h' : HostHdr) (pl : List Byte) :
    Keeps s₀ (State.fabricJoin s h' pl) := by
  unfold State.fabricJoin
  apply State.onAssoc_keeps
  · with_reducible assumption
  · intro x1
    extract_lets x2 x3 x4 x5
    clear_value x2
    clear_value x3
    clear_value x4
    clear_value x5
    apply State.onContext_keeps
    · with_reducible assumption
    · split
      · apply State.sayHost_keeps
        with_reducible assumption
      · split
        · apply State.refuseHost_keeps
          with_reducible assumption
        · apply State.sayHost_keeps
          apply State.onCtx_keeps
          with_reducible assumption

/-! ### Ports -/

theorem State.linkUp_keeps {s₀ : State} {s : State} (h : Keeps s₀ s) (q : ℕ) (peer : ℕ) :
    Keeps s₀ (State.linkUp s q peer) := by
  unfold State.linkUp
  extract_lets x1
  clear_value x1
  split
  · with_reducible assumption
  · split
    · with_reducible assumption
    · extract_lets x2
      have h2 : Keeps s₀ x2 := by
        unfold x2
        apply State.setPort_keeps
        with_reducible assumption
      clear_value x2
      split
      · with_reducible assumption
      · apply State.event_keeps
        with_reducible assumption

theorem State.linkLost_keeps {s₀ : State} {s : State} (h : Keeps s₀ s) (q : ℕ) :
    Keeps s₀ (State.linkLost s q) := by
  unfold State.linkLost
  extract_lets x1
  clear_value x1
  split
  · with_reducible assumption
  · apply State.event_keeps
    apply State.setPort_keeps
    with_reducible assumption

theorem State.negotiationFailed_keeps {s₀ : State} {s : State} (h : Keeps s₀ s) (q : ℕ) :
    Keeps s₀ (State.negotiationFailed s q) := by
  unfold State.negotiationFailed
  extract_lets x1
  clear_value x1
  split
  · apply State.setPort_keeps
    with_reducible assumption
  · with_reducible assumption

theorem State.anRetry_keeps {s₀ : State} {s : State} (h : Keeps s₀ s) (q : ℕ) :
    Keeps s₀ (State.anRetry s q) := by
  unfold State.anRetry
  extract_lets x1
  clear_value x1
  split
  · apply State.setPort_keeps
    with_reducible assumption
  · with_reducible assumption

theorem State.dropFrame_keeps {s₀ : State} {s : State} (h : Keeps s₀ s) (q : ℕ) :
    Keeps s₀ (State.dropFrame s q) := by
  unfold State.dropFrame
  apply State.bump_keeps
  with_reducible assumption

theorem State.frameInner_keeps {s₀ : State} {s : State} (h : Keeps s₀ s) (q : ℕ) (a : FrameInner) :
    Keeps s₀ (State.frameInner s q a) := by
  unfold State.frameInner
  split
  · split
    · apply State.send_keeps
      with_reducible assumption
    · with_reducible assumption
  · split
    · apply State.send_keeps
      with_reducible assumption
    · with_reducible assumption
  · apply State.dropFrame_keeps
    with_reducible assumption
  · split
    · apply State.dropInband_keeps
      with_reducible assumption
    · with_reducible assumption
  · with_reducible assumption

theorem State.acceptFrame_keeps {s₀ : State} {s : State} (h : Keeps s₀ s) (q : ℕ) (len : ℕ) (inner : FrameInner) :
    Keeps s₀ (State.acceptFrame s q len inner) := by
  unfold State.acceptFrame
  extract_lets x1
  have h1 : Keeps s₀ x1 := by
    unfold x1
    apply State.frameInner_keeps
    with_reducible assumption
  clear_value x1
  split
  · with_reducible assumption
  · apply State.bump_keeps
    apply State.bump_keeps
    with_reducible assumption

theorem State.macsecFrame_keeps {s₀ : State} {s : State} (h : Keeps s₀ s) (q : ℕ) (len : ℕ) (ch : ℕ) (pn : W64)
    (icvOk : Bool) (newKey : Bool) (inner : FrameInner) :
    Keeps s₀ (State.macsecFrame s q len ch pn icvOk newKey inner) := by
  unfold State.macsecFrame
  extract_lets x1
  clear_value x1
  split
  · apply State.event_keeps
    with_reducible assumption
  · split
    · apply State.event_keeps
      with_reducible assumption
    · split
      · apply State.event_keeps
        with_reducible assumption
      · apply State.acceptFrame_keeps
        apply State.setPort_keeps
        with_reducible assumption

theorem State.frameReceive_keeps {s₀ : State} {s : State} (h : Keeps s₀ s) (q : ℕ) (f : Frame) :
    Keeps s₀ (State.frameReceive s q f) := by
  unfold State.frameReceive
  split
  · with_reducible assumption
  · extract_lets x1
    have h1 : Keeps s₀ x1 := by
      unfold x1
      apply State.event_keeps
      apply State.bump_keeps
      with_reducible assumption
    clear_value x1
    split
    · apply State.event_keeps
      apply State.dropFrame_keeps
      with_reducible assumption
    · split
      · apply State.dropFrame_keeps
        with_reducible assumption
      · split
        · apply State.event_keeps
          with_reducible assumption
        · apply State.bump_keeps
          apply State.bump_keeps
          with_reducible assumption
        · apply State.macsecFrame_keeps
          with_reducible assumption

theorem State.rekey_keeps {s₀ : State} {s : State} (h : Keeps s₀ s) (q : ℕ) (ch : ℕ) :
    Keeps s₀ (State.rekey s q ch) := by
  unfold State.rekey
  extract_lets x1
  clear_value x1
  split
  · apply State.event_keeps
    apply State.setPort_keeps
    with_reducible assumption
  · with_reducible assumption

theorem State.mgmtLink_keeps {s₀ : State} {s : State} (h : Keeps s₀ s) (up : Bool) :
    Keeps s₀ (State.mgmtLink s up) := by
  unfold State.mgmtLink
  split
  · apply State.setEntry_keeps
    with_reducible assumption
  · with_reducible assumption

theorem State.beacon_keeps {s₀ : State} {s : State} (h : Keeps s₀ s) :
    Keeps s₀ (State.beacon s) := by
  unfold State.beacon
  split
  · refine Keeps.of_eq (u := s) rfl rfl rfl rfl rfl rfl ?_
    with_reducible assumption
  · with_reducible assumption

/-! ### Power -/

theorem State.railsOff_keeps {s₀ : State} {s : State} (h : Keeps s₀ s) :
    Keeps s₀ (State.railsOff s) := by
  unfold State.railsOff
  refine Keeps.of_forms (u := s) rfl (fun _ => rfl) (fun _ => rfl) (fun _ => rfl) (fun _ => rfl) (fun _ => rfl) ?_
  with_reducible assumption

theorem State.trip_keeps {s₀ : State} {s : State} (h : Keeps s₀ s) (site : ℕ) (sensor : ℕ) :
    Keeps s₀ (State.trip s site sensor) := by
  unfold State.trip
  split
  · with_reducible assumption
  · extract_lets x1 x2 x3 x4
    have h1 : Keeps s₀ x1 := by
      unfold x1
      apply State.railsOff_keeps
      with_reducible assumption
    clear_value x1
    have h2 : Keeps s₀ x2 := by
      unfold x2
      apply State.setKept_keeps
      apply State.setKept_keeps
      with_reducible assumption
    clear_value x2
    have h3 : Keeps s₀ x3 := by
      unfold x3
      apply State.ownWrite_keeps
      · with_reducible assumption
      · intro x5
        intro x6
        apply State.storeKept_keeps
        with_reducible assumption
    clear_value x3
    clear_value x4
    refine Keeps.of_eq (u := x3) rfl rfl rfl rfl rfl rfl ?_
    with_reducible assumption

theorem State.refreshChannel_keeps {s₀ : State} {s : State} (h : Keeps s₀ s) (site : ℕ) (ch : ℕ) :
    Keeps s₀ (State.refreshChannel s site ch) := by
  unfold State.refreshChannel
  split
  · with_reducible assumption
  · apply State.bump_keeps
    with_reducible assumption

theorem State.setRefresh_keeps {s₀ : State} {s : State} (h : Keeps s₀ s) (site : ℕ) (t : W32) :
    Keeps s₀ (State.setRefresh s site t) := by
  unfold State.setRefresh
  extract_lets x1
  clear_value x1
  split
  · split
    · with_reducible assumption
    · apply State.event_keeps
      apply State.setEntry_keeps
      with_reducible assumption
  · split
    · apply State.setEntry_keeps
      with_reducible assumption
    · with_reducible assumption

theorem State.setThrottle_keeps {s₀ : State} {s : State} (h : Keeps s₀ s) (site : ℕ) (t : W32) :
    Keeps s₀ (State.setThrottle s site t) := by
  unfold State.setThrottle
  extract_lets x1 x2 x3 x4 x5 x6 x7 x8
  clear_value x1
  clear_value x2
  clear_value x3
  clear_value x4
  clear_value x5
  clear_value x6
  have h7 : Keeps s₀ x7 := by
    unfold x7
    apply State.setEntry_keeps
    with_reducible assumption
  clear_value x7
  have h8 : Keeps s₀ x8 := by
    unfold x8
    split
    · with_reducible assumption
    · refine Keeps.foldl (fun x9 x10 x11 => ?_) _ ?_
      · apply State.mark_keeps
        with_reducible assumption
      · with_reducible assumption
  clear_value x8
  split
  · apply State.event_keeps
    with_reducible assumption
  · with_reducible assumption

theorem State.tempReading_keeps {s₀ : State} {s : State} (h : Keeps s₀ s) (site : ℕ) (ds : List W32) :
    Keeps s₀ (State.tempReading s site ds) := by
  unfold State.tempReading
  split
  · with_reducible assumption
  · extract_lets x1 x2 x3 x4 x5 x6
    clear_value x1
    clear_value x2
    clear_value x3
    have h4 : Keeps s₀ x4 := by
      unfold x4
      apply State.setEntry_keeps
      with_reducible assumption
    clear_value x4
    have h5 : Keeps s₀ x5 := by
      unfold x5
      split
      · apply State.setEntry_keeps
        with_reducible assumption
      · with_reducible assumption
    clear_value x5
    have h6 : Keeps s₀ x6 := by
      unfold x6
      apply State.setThrottle_keeps
      apply State.setRefresh_keeps
      with_reducible assumption
    clear_value x6
    split
    · apply State.trip_keeps
      with_reducible assumption
    · with_reducible assumption

theorem State.siteReadings_keeps {s₀ : State} {s : State} (h : Keeps s₀ s) (r : PowerReading) (site : ℕ) :
    Keeps s₀ (State.siteReadings s r site) := by
  unfold State.siteReadings
  extract_lets x1 x2
  clear_value x1
  unfold x2
  split
  · apply State.setEntry_keeps
    split
    · apply State.setEntry_keeps
      split
      · apply State.setEntry_keeps
        with_reducible assumption
      · with_reducible assumption
    · split
      · apply State.setEntry_keeps
        with_reducible assumption
      · with_reducible assumption
  · split
    · apply State.setEntry_keeps
      split
      · apply State.setEntry_keeps
        with_reducible assumption
      · with_reducible assumption
    · split
      · apply State.setEntry_keeps
        with_reducible assumption
      · with_reducible assumption

theorem State.siteStep_keeps {s₀ : State} {s : State} (h : Keeps s₀ s) (r : PowerReading) (device : ℕ) (site : ℕ) :
    Keeps s₀ (State.siteStep s r device site) := by
  unfold State.siteStep
  extract_lets x1 x2 x3 x4 x5 x6
  clear_value x1
  clear_value x2
  clear_value x3
  have h4 : Keeps s₀ x4 := by
    unfold x4
    apply State.setEntry_keeps
    with_reducible assumption
  clear_value x4
  have h5 : Keeps s₀ x5 := by
    unfold x5
    split
    · apply State.event_keeps
      with_reducible assumption
    · with_reducible assumption
  clear_value x5
  clear_value x6
  split
  · apply State.setEntry_keeps
    split
    · with_reducible assumption
    · apply State.mark_keeps
      with_reducible assumption
  · with_reducible assumption

theorem State.evaluate_keeps {s₀ : State} {s : State} (h : Keeps s₀ s) (r : PowerReading) :
    Keeps s₀ (State.evaluate s r) := by
  unfold State.evaluate
  split
  · with_reducible assumption
  · extract_lets x1 x2 x3 x4 x5 x6 x7 x8 x9 x10 x11 x12 x13 x14
    have h1 : Keeps s₀ x1 := by
      unfold x1
      apply State.setEntry_keeps
      apply State.setEntry_keeps
      apply State.setEntry_keeps
      with_reducible assumption
    clear_value x1
    have h2 : Keeps s₀ x2 := by
      unfold x2
      refine Keeps.foldl (fun x15 x16 x17 => ?_) _ ?_
      · apply State.siteReadings_keeps
        with_reducible assumption
      · with_reducible assumption
    clear_value x2
    clear_value x3
    clear_value x4
    clear_value x5
    clear_value x6
    clear_value x7
    clear_value x8
    clear_value x9
    have h10 : Keeps s₀ x10 := by
      unfold x10
      apply State.setEntry_keeps
      with_reducible assumption
    clear_value x10
    have h11 : Keeps s₀ x11 := by
      unfold x11
      refine Keeps.of_eq (u := x10) rfl rfl rfl rfl rfl rfl ?_
      with_reducible assumption
    clear_value x11
    have h12 : Keeps s₀ x12 := by
      unfold x12
      refine Keeps.foldl (fun x18 x19 x20 => ?_) _ ?_
      · apply State.siteStep_keeps
        with_reducible assumption
      · with_reducible assumption
    clear_value x12
    have h13 : Keeps s₀ x13 := by
      unfold x13
      split
      · apply State.event_keeps
        with_reducible assumption
      · with_reducible assumption
    clear_value x13
    have h14 : Keeps s₀ x14 := by
      unfold x14
      split
      · apply State.event_keeps
        with_reducible assumption
      · with_reducible assumption
    clear_value x14
    split
    · apply State.trip_keeps
      with_reducible assumption
    · with_reducible assumption

theorem State.reachRun_keeps {s₀ : State} {s : State} (h : Keeps s₀ s) (core : ℕ) :
    Keeps s₀ (State.reachRun s core) := by
  unfold State.reachRun
  extract_lets x1 x2
  have h1 : Keeps s₀ x1 := by
    unfold x1
    apply State.onCore_keeps
    with_reducible assumption
  clear_value x1
  have h2 : Keeps s₀ x2 := by
    unfold x2
    split
    · apply State.mark_keeps
      with_reducible assumption
    · with_reducible assumption
  clear_value x2
  refine Keeps.foldl (fun x3 x4 x5 => ?_) _ ?_
  · apply State.afterWake_keeps
    with_reducible assumption
  · with_reducible assumption

theorem State.admitCore_keeps {s₀ : State} {s : State} (h : Keeps s₀ s) (core : ℕ) :
    Keeps s₀ (State.admitCore s core) := by
  unfold State.admitCore
  extract_lets x1
  have h1 : Keeps s₀ x1 := by
    unfold x1
    apply State.bump_keeps
    with_reducible assumption
  clear_value x1
  split
  · apply State.reachRun_keeps
    with_reducible assumption
  · apply State.onCore_keeps
    with_reducible assumption
  · with_reducible assumption

theorem State.wakeWindow_keeps {s₀ : State} {s : State} (h : Keeps s₀ s) :
    Keeps s₀ (State.wakeWindow s) := by
  unfold State.wakeWindow
  extract_lets x1 x2 x3 x4
  clear_value x1
  clear_value x2
  clear_value x3
  have h4 : Keeps s₀ x4 := by
    unfold x4
    refine Keeps.of_eq (u := s) rfl rfl rfl rfl rfl rfl ?_
    with_reducible assumption
  clear_value x4
  refine Keeps.foldl (fun x5 x6 x7 => ?_) _ ?_
  · apply State.admitCore_keeps
    with_reducible assumption
  · with_reducible assumption

theorem State.napWakeDone_keeps {s₀ : State} {s : State} (h : Keeps s₀ s) (core : ℕ) :
    Keeps s₀ (State.napWakeDone s core) := by
  unfold State.napWakeDone
  split
  · apply State.reachRun_keeps
    with_reducible assumption
  · with_reducible assumption

theorem State.siteStart_keeps {s₀ : State} {s : State} (h : Keeps s₀ s) :
    Keeps s₀ (State.siteStart s) := by
  unfold State.siteStart
  split
  · with_reducible assumption
  · apply State.setEntry_keeps
    refine Keeps.of_eq (u := s) rfl rfl rfl rfl rfl rfl ?_
    with_reducible assumption

theorem State.siteSettled_keeps {s₀ : State} {s : State} (h : Keeps s₀ s) (site : ℕ) :
    Keeps s₀ (State.siteSettled s site) := by
  unfold State.siteSettled
  extract_lets x1 x2 x3
  clear_value x1
  clear_value x2
  have h3 : Keeps s₀ x3 := by
    unfold x3
    apply State.setEntry_keeps
    apply State.setEntry_keeps
    split
    · with_reducible assumption
    · apply State.mark_keeps
      with_reducible assumption
  clear_value x3
  split
  · with_reducible assumption
  · refine Keeps.foldl (fun x4 x5 x6 => ?_) _ ?_
    · apply State.queueWake_keeps
      apply State.onCore_keeps
      with_reducible assumption
    · with_reducible assumption

theorem State.wakeTimeout_keeps {s₀ : State} {s : State} (h : Keeps s₀ s) (ctx : ℕ) :
    Keeps s₀ (State.wakeTimeout s ctx) := by
  unfold State.wakeTimeout
  extract_lets x1
  clear_value x1
  split
  · apply State.faultContext_keeps
    apply State.event_keeps
    with_reducible assumption
  · with_reducible assumption

theorem State.napEntry_keeps {s₀ : State} {s : State} (h : Keeps s₀ s) (core : ℕ) :
    Keeps s₀ (State.napEntry s core) := by
  unfold State.napEntry
  split
  · apply State.onCore_keeps
    with_reducible assumption
  · with_reducible assumption

theorem State.sleepEntry_keeps {s₀ : State} {s : State} (h : Keeps s₀ s) (site : ℕ) :
    Keeps s₀ (State.sleepEntry s site) := by
  unfold State.sleepEntry
  extract_lets x1 x2 x3
  clear_value x1
  clear_value x2
  clear_value x3
  split
  · with_reducible assumption
  · split
    · refine Keeps.foldl (fun x4 x5 x6 => ?_) _ ?_
      · apply State.onCore_keeps
        with_reducible assumption
      · apply State.setEntry_keeps
        with_reducible assumption
    · split
      · refine Keeps.foldl (fun x7 x8 x9 => ?_) _ ?_
        · apply State.preempt_keeps
          with_reducible assumption
        · with_reducible assumption
      · with_reducible assumption

theorem State.afterReset_keeps {s₀ : State} {s : State} (h : Keeps s₀ s) (supply : Supply) :
    Keeps s₀ (State.afterReset s supply) :=
  ⟨h.part, fun _ => rfl, fun _ => rfl, fun _ => rfl, fun _ => rfl, fun _ => rfl⟩

theorem State.doReset_keeps {s₀ : State} {s : State} (h : Keeps s₀ s) :
    Keeps s₀ (State.doReset s) := by
  unfold State.doReset
  apply State.afterReset_keeps
  with_reducible assumption

theorem State.resetPin_keeps {s₀ : State} {s : State} (h : Keeps s₀ s) :
    Keeps s₀ (State.resetPin s) := by
  unfold State.resetPin
  split
  · refine Keeps.of_eq (u := s) rfl rfl rfl rfl rfl rfl ?_
    with_reducible assumption
  · apply State.doReset_keeps
    with_reducible assumption

theorem State.batchDone_keeps {s₀ : State} {s : State} (h : Keeps s₀ s) :
    Keeps s₀ (State.batchDone s) := by
  unfold State.batchDone
  extract_lets x1 x2
  have h1 : Keeps s₀ x1 := by
    unfold x1
    apply State.endBatch_keeps
    with_reducible assumption
  clear_value x1
  have h2 : Keeps s₀ x2 := by
    unfold x2
    split
    · with_reducible assumption
    · refine Keeps.of_eq (u := x1) rfl rfl rfl rfl rfl rfl ?_
      with_reducible assumption
  clear_value x2
  split
  · apply State.doReset_keeps
    with_reducible assumption
  · with_reducible assumption

theorem State.vaonUp_keeps {s₀ : State} {s : State} (h : Keeps s₀ s) :
    Keeps s₀ (State.vaonUp s) := by
  unfold State.vaonUp
  split
  · with_reducible assumption
  · apply State.afterReset_keeps
    with_reducible assumption

theorem State.powerGood_keeps {s₀ : State} {s : State} (h : Keeps s₀ s) :
    Keeps s₀ (State.powerGood s) := by
  unfold State.powerGood
  split
  · refine Keeps.of_eq (u := s) rfl rfl rfl rfl rfl rfl ?_
    with_reducible assumption
  · with_reducible assumption

theorem State.inputLoss_keeps {s₀ : State} {s : State} (h : Keeps s₀ s) (vaonOff : Bool) :
    Keeps s₀ (State.inputLoss s vaonOff) := by
  unfold State.inputLoss
  split
  · with_reducible assumption
  · extract_lets x1 x2 x3 x4 x5 x6
    have h1 : Keeps s₀ x1 := by
      unfold x1
      apply State.railsOff_keeps
      apply State.event_keeps
      with_reducible assumption
    clear_value x1
    clear_value x2
    have h3 : Keeps s₀ x3 := by
      unfold x3
      apply State.stopWrites_keeps
      refine Keeps.of_eq (u := x1) rfl rfl rfl rfl rfl rfl ?_
      with_reducible assumption
    clear_value x3
    clear_value x4
    have h5 : Keeps s₀ x5 := by
      unfold x5
      refine Keeps.of_eq (u := x3) rfl rfl rfl rfl rfl rfl ?_
      with_reducible assumption
    clear_value x5
    clear_value x6
    split
    · with_reducible assumption
    · split
      · refine Keeps.of_eq (u := x5) rfl rfl rfl rfl rfl rfl ?_
        with_reducible assumption
      · apply State.doReset_keeps
        with_reducible assumption

theorem State.inputLow_keeps {s₀ : State} {s : State} (h : Keeps s₀ s) :
    Keeps s₀ (State.inputLow s) := by
  unfold State.inputLow
  split
  · apply State.event_keeps
    with_reducible assumption
  · with_reducible assumption

/-! ### Boot -/

theorem State.setMode_keeps {s₀ : State} {s : State} (h : Keeps s₀ s) (m : ℕ) :
    Keeps s₀ (State.setMode s m) := by
  unfold State.setMode
  apply State.setEntry_keeps
  with_reducible assumption

theorem State.attempt_keeps {s₀ : State} {s : State} (h : Keeps s₀ s) :
    Keeps s₀ (State.attempt s).1 := by
  unfold State.attempt
  extract_lets x1
  clear_value x1
  split
  · with_reducible assumption
  · split
    · split
      · dsimp only
        refine Keeps.of_pair (by assumption) ?_
        apply State.ownWrite_keeps
        · with_reducible assumption
        · intro x2
          intro x3
          apply State.writeRollback_keeps
          with_reducible assumption
      · dsimp only
        refine Keeps.of_pair (by assumption) ?_
        apply State.ownWrite_keeps
        · with_reducible assumption
        · intro x4
          intro x5
          apply State.writeRollback_keeps
          with_reducible assumption
    · dsimp only
      apply State.event_keeps
      apply State.ownWrite_keeps
      · with_reducible assumption
      · intro x6
        intro x7
        apply State.writeRollback_keeps
        with_reducible assumption

theorem State.runImage_keeps {s₀ : State} {s : State} (h : Keeps s₀ s) (slot : ℕ) :
    Keeps s₀ (State.runImage s slot) := by
  unfold State.runImage
  extract_lets x1 x2
  clear_value x1
  unfold x2
  apply State.setEntry_keeps
  apply State.setEntry_keeps
  apply State.setEntry_keeps
  apply State.setEntry_keeps
  with_reducible assumption

theorem State.bringUp_keeps {s₀ : State} {s : State} (h : Keeps s₀ s) :
    Keeps s₀ (State.bringUp s) := by
  unfold State.bringUp
  extract_lets x1 x2 x3 x4 x5
  have h1 : Keeps s₀ x1 := by
    unfold x1
    refine Keeps.of_eq (u := s) rfl rfl rfl rfl rfl rfl ?_
    with_reducible assumption
  have h2 : Keeps s₀ x2 := by
    unfold x2
    apply State.setMode_keeps
    apply State.ownWrite_keeps
    · apply State.setKept_keeps
      with_reducible assumption
    · intro x6
      intro x7
      apply State.storeKept_keeps
      with_reducible assumption
  clear_value x2
  have h3 : Keeps s₀ x3 := by
    unfold x3
    refine Keeps.foldl (fun x8 x9 x10 => ?_) _ ?_
    · apply State.enablePort_keeps
      with_reducible assumption
    · with_reducible assumption
  clear_value x3
  have h4 : Keeps s₀ x4 := by
    unfold x4
    apply State.setMode_keeps
    with_reducible assumption
  clear_value x4
  have h5 : Keeps s₀ x5 := by
    unfold x5
    refine Keeps.foldl (fun x11 x12 x13 => ?_) _ ?_
    · apply State.enablePort_keeps
      with_reducible assumption
    · with_reducible assumption
  clear_value x5
  split
  · apply State.event_keeps
    refine Keeps.of_eq (u := x3) rfl rfl rfl rfl rfl rfl ?_
    with_reducible assumption
  · refine Keeps.foldl (fun x14 x15 x16 => ?_) _ ?_
    · split
      · with_reducible assumption
      · apply State.applyMask_keeps
        with_reducible assumption
    · with_reducible assumption

theorem State.readStore_keeps {s₀ : State} {s : State} (h : Keeps s₀ s) :
    Keeps s₀ (State.readStore s) := by
  unfold State.readStore
  extract_lets x1 x2 x3
  have h1 : Keeps s₀ x1 := by
    unfold x1
    refine Keeps.of_eq (u := s) rfl rfl rfl rfl rfl rfl ?_
    with_reducible assumption
  clear_value x1
  clear_value x2
  clear_value x3
  apply State.loadKept_keeps
  refine Keeps.of_eq (u := x1) rfl rfl rfl rfl rfl rfl ?_
  with_reducible assumption

theorem State.boot_keeps {s₀ : State} {s : State} (h : Keeps s₀ s) :
    Keeps s₀ (State.boot s) := by
  unfold State.boot
  split
  · with_reducible assumption
  · extract_lets x1 x2 x3 x4 x5 x6 x7 x8
    clear_value x1
    have h2 : Keeps s₀ x2 := by
      unfold x2
      apply State.readStore_keeps
      refine Keeps.of_eq (u := s) rfl rfl rfl rfl rfl rfl ?_
      with_reducible assumption
    clear_value x2
    have h3 : Keeps s₀ x3 := by
      unfold x3
      refine Keeps.of_eq (u := x2) rfl rfl rfl rfl rfl rfl ?_
      with_reducible assumption
    clear_value x3
    have h4 : Keeps s₀ x4 := by
      unfold x4
      apply State.setEntry_keeps
      with_reducible assumption
    clear_value x4
    have h5 : Keeps s₀ x5.1 := by
      unfold x5
      apply State.attempt_keeps
      with_reducible assumption
    clear_value x5
    clear_value x6
    clear_value x7
    have h8 : Keeps s₀ x8 := by
      unfold x8
      apply State.event_keeps
      with_reducible assumption
    clear_value x8
    split
    · apply State.setMode_keeps
      with_reducible assumption
    · split
      · apply State.event_keeps
        apply State.setMode_keeps
        with_reducible assumption
      · split
        · apply State.setMode_keeps
          with_reducible assumption
        · apply State.bringUp_keeps
          apply State.runImage_keeps
          with_reducible assumption

theorem State.attestSigned_keeps {s₀ : State} {s : State} (h : Keeps s₀ s) :
    Keeps s₀ (State.attestSigned s) := by
  unfold State.attestSigned
  split
  · with_reducible assumption
  · extract_lets x1
    clear_value x1
    apply State.replaceDomain_keeps
    refine Keeps.of_eq (u := s) rfl rfl rfl rfl rfl rfl ?_
    with_reducible assumption

end Sys2Proof.Machine
end

