-- ==== Sys2Proof/Laws/Operands.lean ====
section
/-! SUPPORT. What a register write leaves, and the elements of a vector register. -/

namespace Sys2Proof.Machine

/-- The number that a list of elements spells, the first the most significant. -/
theorem elems_foldl (w : Nat) (xs : List (BitVec w)) (a : Nat) :
    xs.foldl (fun a x => a * 2 ^ w + x.toNat) a
      = a * 2 ^ (w * xs.length) + xs.foldl (fun a x => a * 2 ^ w + x.toNat) 0 := by
  induction xs generalizing a with
  | nil => simp
  | cons x r ih =>
    simp only [List.foldl_cons, List.length_cons]
    rw [ih (a * 2 ^ w + x.toNat), ih (0 * 2 ^ w + x.toNat)]
    have : 2 ^ (w * (r.length + 1)) = 2 ^ w * 2 ^ (w * r.length) := by rw [← pow_add]; congr 1; ring
    rw [this]; ring

theorem elems_lt (w : Nat) (xs : List (BitVec w)) :
    xs.foldl (fun a x => a * 2 ^ w + x.toNat) 0 < 2 ^ (w * xs.length) := by
  induction xs with
  | nil => simp
  | cons x r ih =>
    simp only [List.foldl_cons, List.length_cons]
    rw [elems_foldl]
    have h1 : 2 ^ (w * (r.length + 1)) = 2 ^ w * 2 ^ (w * r.length) := by rw [← pow_add]; congr 1; ring
    have h2 := x.isLt
    rw [h1]
    nlinarith [Nat.mul_le_mul_right (2 ^ (w * r.length)) (Nat.succ_le_of_lt h2)]

/-- An element of a register made from elements. -/
theorem elem_ofElems (w : Nat) (xs : List (BitVec w)) (hw : w * xs.length = 4096) (e : Nat) (he : e < xs.length) :
    elem w (ofElems w xs) e = xs[e] := by
  apply BitVec.eq_of_toNat_eq
  have hlt := elems_lt w xs
  rw [hw] at hlt
  have hs : 4096 - w * (e + 1) = w * (xs.length - (e + 1)) := by
    rw [Nat.mul_sub, hw]
  simp only [elem, ofElems, BitVec.extractLsb'_toNat, BitVec.toNat_ofNat, Nat.mod_eq_of_lt hlt,
    Nat.shiftRight_eq_div_pow, hs]
  have hsplit : xs = xs.take e ++ xs[e] :: xs.drop (e + 1) := by
    rw [List.getElem_cons_drop]; exact (List.take_append_drop e xs).symm
  conv_lhs => rw [show xs.foldl (fun a x => a * 2 ^ w + x.toNat) 0
      = (xs.take e ++ xs[e] :: xs.drop (e + 1)).foldl (fun a x => a * 2 ^ w + x.toNat) 0 by rw [← hsplit]]
  rw [List.foldl_append, List.foldl_cons, elems_foldl]
  have hl : (xs.drop (e + 1)).length = xs.length - (e + 1) := by simp
  have h3 := elems_lt w (xs.drop (e + 1))
  rw [hl] at h3 ⊢
  have hpos : 0 < 2 ^ (w * (xs.length - (e + 1))) := by positivity
  rw [Nat.add_comm, Nat.add_mul_div_right _ _ hpos, Nat.div_eq_of_lt h3, Nat.zero_add, Nat.add_comm,
    Nat.add_mul_mod_self_right, Nat.mod_eq_of_lt xs[e].isLt]

/-- The elements of a register. -/
theorem elemsOf_length (w : Nat) (v : BitVec 4096) : (elemsOf w v).length = 4096 / w := by simp [elemsOf]

theorem elemsOf_getElem (w : Nat) (v : BitVec 4096) (e : Nat) (h : e < (elemsOf w v).length) :
    (elemsOf w v)[e] = elem w v e := by simp [elemsOf]

theorem laneW_mul (ty : Nat) : laneW ty * (4096 / laneW ty) = 4096 := by
  unfold laneW; split <;> rfl

end Sys2Proof.Machine
end

