-- ==== Sys2Proof/WellFormed.lean ====
section
/-! DEFINITION. Which commands are well formed: a slot's number is one of its kind and its core exists (R53), a port and
a core exist, payloads fit the largest edition, a fragment lies within its message, a reading has an entry a site. A
command that is not well formed stands for nothing that can arrive. -/

namespace Sys2Proof

/-- The kinds of slot of a bundle (R53). -/
inductive SlotKind where
  | s
  | a
  | m
  | v
  | x
  deriving DecidableEq, Repr

def SlotKind.has : SlotKind → Nat → Bool
  | .s, n => n < 2
  | .a, n => n == 2 || n == 3
  | .m, n => n == 4
  | .v, n => n == 5 || n == 6
  | .x, n => n == 7

/-- The slot's number is one of its kind, and its core is one of the 144. -/
def SlotAt.fits (h : SlotAt) (k : SlotKind) : Bool := h.core.toNat < 144 && k.has h.slot.toNat

/-- A fragment lies within its message. -/
def Fragment.fits (f : Fragment) : Bool := f.offset.toNat + f.bytes.length ≤ f.total.toNat

def HsPart.fits : HsPart → Bool
  | .h1 f => f.fits
  | .readH2 _ => true

/-- A path of frames names one of the five ports. -/
def HsPath.fits : HsPath → Bool
  | .port p _ => p.toNat < 5
  | .tsusen => true
  | .host => true
  | .fabric _ => true

def PowerReading.fits (r : PowerReading) : Bool :=
  r.junction.length == 16 && r.sitePower.length == 16 && r.vcore.length == 16

def Instr.wellFormed (i : Instr) : Bool :=
  match i with
  | .discover _ => true
  | .tsusenOpen _ _ _ msg => msg.fits
  | .openFinish _ _ _ frag => frag.fits
  | .read _ _ _ => true
  | .write _ _ _ data => data.length ≤ 1024
  | .segRead _ _ _ _ _ _ => true
  | .segWrite _ _ _ _ _ data => data.length ≤ 1024
  | .subscribe _ _ _ => true
  | .recordRead _ _ => true
  | .batchWrite _ payload => payload.length ≤ 1024
  | .tsusenClose _ => true
  | .sessionIdleExpiry _ => true
  | .segWriteGapExpiry _ => true
  | .eventPost => true
  | .flagsClear _ _ _ => true
  | .sAdd h _ => h.fits .s
  | .sSub h _ => h.fits .s
  | .sMul h _ => h.fits .s
  | .sAnd h _ => h.fits .s
  | .sOr h _ => h.fits .s
  | .sXor h _ => h.fits .s
  | .sShl h _ => h.fits .s
  | .sShr h _ => h.fits .s
  | .sSar h _ => h.fits .s
  | .sMin h _ => h.fits .s
  | .sMax h _ => h.fits .s
  | .sCmpEq h _ => h.fits .s
  | .sCmpNe h _ => h.fits .s
  | .sCmpLt h _ => h.fits .s
  | .sCmpLtu h _ => h.fits .s
  | .sCmpLe h _ => h.fits .s
  | .sCmpLeu h _ => h.fits .s
  | .sLd h _ => h.fits .s
  | .sSt h _ => h.fits .s
  | .sSys h _ => h.fits .s
  | .aLoop h _ => h.fits .a
  | .aLoad h _ => h.fits .a
  | .aLoadDone core _ => core.toNat < 144
  | .aStore h _ => h.fits .a
  | .aStoreDone core _ => core.toNat < 144
  | .aWait h _ => h.fits .a
  | .mStream h _ => h.fits .m
  | .mStreamAttn h _ => h.fits .m
  | .mStreamDone core _ => core.toNat < 144
  | .mDrain h _ => h.fits .m
  | .mDrainAttn h _ => h.fits .m
  | .mDrainDone core _ => core.toNat < 144
  | .mWait h _ => h.fits .m
  | .mGstream h _ => h.fits .m
  | .vFma h _ => h.fits .v
  | .vAdd h _ => h.fits .v
  | .vMul h _ => h.fits .v
  | .vMax h _ => h.fits .v
  | .vMin h _ => h.fits .v
  | .vExp2 h _ => h.fits .v
  | .vLog2 h _ => h.fits .v
  | .vCvt h _ => h.fits .v
  | .vLd h _ => h.fits .v
  | .vSt h _ => h.fits .v
  | .vSel h _ => h.fits .v
  | .vCmp h _ => h.fits .v
  | .vRsumSum h _ => h.fits .v
  | .vRsumMax h _ => h.fits .v
  | .vRsumStat h _ => h.fits .v
  | .vRsumStat0 h _ => h.fits .v
  | .vRsumCombine h _ => h.fits .v
  | .vRsumFinish h _ => h.fits .v
  | .vWinMac h _ => h.fits .v
  | .vWinMax h _ => h.fits .v
  | .vWinSum h _ => h.fits .v
  | .sluiceClear h _ => h.fits .v
  | .sluiceAccum h _ => h.fits .v
  | .sluiceDecide h _ => h.fits .v
  | .sluiceSetup h _ => h.fits .v
  | .sluicePostServed _ => true
  | .rngLoadstate h _ => h.fits .v
  | .rngBits h _ => h.fits .v
  | .rngUniform h _ => h.fits .v
  | .rngNormal h _ => h.fits .v
  | .rngDrop h _ => h.fits .v
  | .rngXset h _ => h.fits .v
  | .rngDset h _ => h.fits .v
  | .xJmp h _ => h.fits .x
  | .xBr h _ => h.fits .x
  | .xCall h _ => h.fits .x
  | .xRet h _ => h.fits .x
  | .xBar h _ => h.fits .x
  | .barrierRelease _ _ _ => true
  | .xFetchadd h _ => h.fits .x
  | .xCset h _ => h.fits .x
  | .counterServed _ _ => true
  | .xPut h _ => h.fits .x
  | .xRecv h _ => h.fits .x
  | .exchangeDone core _ => core.toNat < 144
  | .xFence h _ => h.fits .x
  | .xIload h _ => h.fits .x
  | .iloadDone core _ => core.toNat < 144
  | .xWait h _ => h.fits .x
  | .xHalt h _ => h.fits .x
  | .seqOpen h _ => h.fits .x
  | .seqFork h _ => h.fits .x
  | .seqClose h _ => h.fits .x
  | .seqSetlen h _ => h.fits .x
  | .seqQuery h _ => h.fits .x
  | .seqServed _ => true
  | .aKvload h _ => h.fits .a
  | .kvPinRelease core _ => core.toNat < 144
  | .aKvappend h _ => h.fits .a
  | .cowSwitch core _ => core.toNat < 144
  | .kvappendDone core _ => core.toNat < 144
  | .aSample h _ => h.fits .a
  | .sampleDone core _ => core.toNat < 144
  | .updateNorm h _ => h.fits .a
  | .updateApply h _ => h.fits .a
  | .updateScale h _ => h.fits .a
  | .updateDone core _ => core.toNat < 144
  | .fabricPut h _ => h.fits .x
  | .fabricAllreduce h _ => h.fits .x
  | .fabricReduce h _ => h.fits .x
  | .fabricBroadcast h _ => h.fits .x
  | .fabricDone _ => true
  | .mediaOpen h _ => h.fits .x
  | .mediaFrame h _ => h.fits .x
  | .mediaClose h _ => h.fits .x
  | .mediaJobStart _ => true
  | .mediaJobDone _ => true
  | .faultTaken core => core.toNat < 144
  | .packageStart _ => true
  | .packageEnd _ => true
  | .sliceExpiry _ => true
  | .saveDone _ => true
  | .restoreDone _ => true
  | .contextPreempt _ _ _ => true
  | .contextClose _ _ _ => true
  | .contextMove _ _ _ _ => true
  | .polderReset _ _ _ => true
  | .polderSites _ _ _ => true
  | .siteZeroed _ => true
  | .snapshot _ _ _ => true
  | .histClear _ core _ => core.toNat < 144
  | .cacheInit _ _ _ => true
  | .resultHoldExpiry _ => true
  | .assoc _ msg => msg.fits
  | .assocFinish _ frag => frag.fits
  | .assocClose _ => true
  | .assocIdleExpiry _ => true
  | .ctxOpen _ payload => payload.length ≤ 8192
  | .ctxClose _ => true
  | .submit _ payload arrived => (payload.length ≤ 8192) && (arrived.length = payload.length)
  | .pkgAssemblyExpiry _ _ => true
  | .get _ => true
  | .release _ => true
  | .fabricJoin _ payload => payload.length ≤ 8192
  | .frameReceive port _ => port.toNat < 5
  | .linkUp port _ => port.toNat < 5
  | .linkLost port => port.toNat < 5
  | .anRetryExpiry port => port.toNat < 5
  | .rekey port _ => port.toNat < 5
  | .hsH1 path _ frag => frag.fits && path.fits
  | .hsH3 path _ frag => frag.fits && path.fits
  | .hsH2Request path _ _ => path.fits
  | .h2Signed => true
  | .handshakeIdleExpiry path _ => path.fits
  | .fabricPacketRx _ => true
  | .fabricAbortRx _ _ => true
  | .fabricRtoExpiry _ => true
  | .escapeWaitExpiry _ => true
  | .refresh _ _ => true
  | .tempReading _ _ _ _ _ => true
  | .powerEvaluation reading => reading.fits
  | .wakeWindow => true
  | .siteStart => true
  | .siteSettled _ => true
  | .wakeTimeout _ => true
  | .napEntry core => core.toNat < 144
  | .sleepEntry _ => true
  | .pwrok => true
  | .inputLoss _ => true
  | .inputLow => true
  | .resetN => true
  | .boot => true
  | .nvBatch _ => true
  | .nvBatchDone => true
  | .fwImage _ _ _ data => data.length ≤ 1024
  | .fwActivate _ _ => true
  | .fwCommit _ _ => true
  | .ownerKey _ _ => true
  | .ownerRelease _ _ => true
  | .credentialEpoch _ _ => true
  | .fabricCredential _ _ _ data => data.length ≤ 1024
  | .sealInstall _ _ _ _ data => data.length ≤ 1024
  | .sealClear _ _ _ => true
  | .attestNonce _ _ => true
  | .attestSigned => true
  | .alertNRelease => true
  | .mgmtLinkChange _ => true
  | .plcaBeacon => true
  | .negotiationFailed port => port.toNat < 5
  | .napWakeDone core => core.toNat < 144
  | .vWinDone core _ => core.toNat < 144
  | .vaonUp => true

end Sys2Proof
end

