-- ==== Sys2Proof/Tests/Slice0.lean ====
section
/-! SUPPORT. Tests: ill-formed commands are refused, small steps, and for every statement with hypotheses a state and
operands that meet them. -/

namespace Sys2Proof.Tests

open Sys2Proof.Machine

set_option Elab.async false

/-! ### States -/

/-- The supply of a part that has booted. -/
def supplyOn : Supply :=
  { vaon := true, vhold := true, pwrok := true, rails := true, inputLost := false, tripped := false, inReset := false,
    resetAfterBatch := false, booted := true }

/-- A core that runs context 0. -/
def core0 : CoreState := { CoreState.reset with ctx := some 0, rank := 0, power := 0, running := true }

/-- Context 0, running on cores 0 and 1 of site 0. -/
def ctx0 : Ctx :=
  { Ctx.closed with state := 3, sites := 1, csEd := 1, mEd := 1, cores := [0, 1], granted := true, hasState := true }

/-- Polder 0 holds site 0 and is formed; context 0 runs on it, with these cores. -/
def running (a b : CoreState) : State :=
  { State.reset with
    supply := supplyOn, cores := [(0, a), (1, b)], ctxs := [(0, ctx0)],
    polders := [(0, { Polder.reset with formed := true })], dict := [(entryKey 0x5100 1, 1)] }

/-- The same, with both cores at the start of a program. -/
def s0 : State := running core0 { core0 with rank := 1 }

/-! ### Bundles of one slot -/

/-- The only slot of a bundle of core 0, its guard always true. -/
def at0 (slot : BitVec 3) : SlotAt := { core := 0, slot := slot, pred := 0, pneg := false, last := true }

/-- What `State.Ready` asks, as a Bool. -/
def ready (s : State) (h : SlotAt) (op : SlotOp) : Bool :=
  let n := coreOf h
  let k := s.core n
  s.coreEnabled n && s.issuing n && k.staged.isEmpty && k.issueQ.isEmpty && decide (k.pc < 2047)
    && op.slotOk h.slot.toNat && h.last && !s.bundleWaits n [slotOf h op]

theorem ready_of {s : State} {h : SlotAt} {op : SlotOp} (e : ready s h op = true) : s.Ready h op := by
  simp only [ready, Bool.and_eq_true, List.isEmpty_iff, decide_eq_true_eq, Bool.not_eq_true'] at e
  obtain ⟨⟨⟨⟨⟨⟨⟨a, b⟩, c⟩, d⟩, f⟩, g⟩, i⟩, j⟩ := e
  exact { enabled := a, issuing := b, staged := c, queue := d, inStore := f, slot := g, last := i, free := j }

/-- What `State.Acts` asks, as a Bool. -/
def acts (s : State) (h : SlotAt) (op : SlotOp) : Bool :=
  ready s h op && (s.core (coreOf h)).guard h.pred h.pneg && (s.slotFault (coreOf h) (slotOf h op) true).isNone

theorem acts_of {s : State} {h : SlotAt} {op : SlotOp} (e : acts s h op = true) : s.Acts h op := by
  simp only [acts, Bool.and_eq_true, Option.isNone_iff_eq_none] at e
  exact { ready_of e.1.1 with guard := e.1.2, legal := e.2 }

def sf : SFields := { dst := 1, srcA := 2, srcB := 3, pdst := 1, imm := 0 }
def af : AFields := { ag := 0, tag := 1, gBase := 0, desc := 0, wsLine := 0, imm := 0 }
def mf : MFields :=
  { agA := 0, agB := 1, agOut := 2, bank := false, fmtA := 0, fmtB := 0, sparse := false, chain := 0, accClear := true,
    tag := 2, gParam := 0 }
def vf : VFields :=
  { vd := 1, va := 2, vb := 3, vc := 4, ty := 0, rnd := 0, immSel := false, wsLine := 0, gOff := 0, sfmt := 0, dfmt := 0,
    spart := 0, dpart := 0, ofmt := 0, fn := 0, imm32 := 0 }
def wf : WFields :=
  { vd := 1, gW := 0, ty := 0, rnd := 0, immSel := false, wsLine := 0, gOff := 0, rowPitch := 0, colPitch := 0, kw := 1,
    kh := 1, dilX := 1, dilY := 1 }
def lf : LFields := { va := 1, vb := 2, ty := 0, rnd := 0, immSel := false, wsLine := 0, gOff := 0, pdst := 1, block := 0 }
def rf : RFields :=
  { vd := 1, va := 2, gIdx := 3, ty := 0, rnd := 0, immSel := false, wsLine := 0, gOff := 0, imm32 := 0 }
def xf : XFields := { target := 5, gA := 1, gB := 2, gDst := 3, scope := false, tag := 3, imm := 0 }
def uf : UFields := { tag := 1, gOff := 0, wsLine := 0 }
def kf : KFields :=
  { tag := 1, gSeq := 1, gPos := 2, wsLine := 0, count := 1, headFirst := 0, headCount := 1, parts := 1 }
def gf : GFields := { m := mf, attn := false, colFirst := 0, colCount := 1 }

/-- A walk of one position, one element of a class, over working-store line `line`. -/
def walk1 (elem line : Nat) : Walk :=
  { levels := [{ bound := 1, order := 0, dim := 7, pad := false, dscale := 0, stride := 0 }], dims := [], space := false,
    elem := elem, wsBase := line, wsWindow := 1, memBase := 0, memSpan := 64 }

/-- A SETUP job of one tile and one block, a full step. -/
def job1 : SluiceJob := { step := 0, tide := 1, mapBase := 0, tiles := 1, blocks := 1, weirs := [0] }

/-- A core with everything that the slots below name: bound generators, an attention bank, a loop table at scalar word
100, a fabric descriptor (PUT of 64 bytes to member 0) at word 200, attention words at 300, a SETUP job at line 100 and an update at line 200. -/
def coreR : CoreState :=
  { core0 with
    g := [(4, 1600), (5, 2400), (6, 1)], calls := [7],
    ag := [(0, walk1 1 0), (1, walk1 1 1), (2, walk1 3 2), (3, walk1 1 3)],
    bankB := { Bank.reset with attn := some { d := 0, cls := .fp8, vhalf := 0, m := [], l := [] } },
    sluice := { SluiceState.reset with job := some job1 },
    sstore := [(100, 0x1200000000000000), (105, 0x10000000), (117, 0x11C000000), (200, 0x1000000000000000), (203, 64),
               (307, 0x0001000000800000)],
    ws := [(6407, 1), (6419, 1), (6421, 1), (12862, 16), (12878, 16), (12894, 1)] }

/-- The state in which `coreR` runs: its polder's cache is initialised with one head of 64 elements, its context is
member 0 of a fabric group. -/
def sR : State :=
  { running coreR core0 with
    ctxs := [(0, { ctx0 with group := some { ident := 9, members := [1, 2], mine := 0, ended := [] } })]
    polders := [(0, { Polder.reset with formed := true, cacheInit := true })] }

theorem acts_all {s : State} {h : SlotAt} {ops : List SlotOp} (e : ops.all (acts s h) = true) : ∀ op ∈ ops, s.Acts h op :=
  fun op m => acts_of (List.all_eq_true.mp e op m)

/-- An unfinished operation under tag 1. -/
def op1 (op : Op) : AsyncOp :=
  { stamp := 0, slot := 2, bundle := 0, tag := some 1, op := op, reads := [], writes := [], before := [] }

/-- A core with one operation under tag 1. -/
def busy (op : Op) : CoreState := { coreR with ops := [op1 op] }

/-- The state in which an operation of core 0 under tag 1 is unfinished. -/
def sOp (op : Op) : State := running (busy op) core0

/-- An operation finishes without a fault, and its core issues nothing. -/
def ends (op : Op) : Bool :=
  let r := (sOp op).seeing 0 (op1 op) (fun u => u.runOp 0 op)
  r.2.isNone && ((r.1.onCore 0 (fun k => k.walked op r.2)).core 0).quiet

/-- A stream over an empty walk. -/
def walk0 : Walk := { walk1 1 0 with levels := [{ bound := 0, order := 0, dim := 7, pad := false, dscale := 0, stride := 0 }] }

def stm : Op := .stream ({ coreR with ag := [(0, walk0), (1, walk0)] }.streamJob false none { mf with accClear := false })
def drn : Op := .drain (coreR.drainJob false mf)
def upd : Op := .update 3 200 (coreR.wsBytes 12800 128)

/-- The cache of polder 0: two sequences, one layer of one head, a pool of two pages. -/
def cacheDict : Tbl Nat :=
  [(entryKey 0x5100 1, 1), (entryKey 0x7010 2, 2), (entryKey 0x7010 3, 0x1000), (entryKey 0x7010 4, 0x1000),
   (entryKey 0x7010 5, 0x10000), (entryKey 0x7010 6, 2), (entryKey 0x7010 7, 0x8000), (entryKey 0x7010 8, 1),
   (entryKey 0x7010 9, 0), (entryKey 0x7010 0xA, 0)]

/-- Memory that holds it: sequence 0 is open and holds a token on page 0, page 1 is free. -/
def cacheMem : Store 8 :=
  putCells (putCells (putCells [] 0
      (toBytes 4 1 ++ toBytes 4 128 ++ toBytes 4 1 ++ toBytes 4 8 ++ toBytes 8 0x1000)) 0x1000 (toBytes 8 (2 ^ 63)))
    0x8000 (toBytes 8 (2 ^ 32) ++ List.replicate 56 0 ++ toBytes 4 1)

/-- Cores 0 and 1 have these operations, and these requests wait at the cache home. -/
def sK (a b : List AsyncOp) (q : List HomeReq) : State :=
  { running { coreR with ops := a } { core0 with ops := b, rank := 1 } with
    dict := cacheDict, mem := cacheMem
    polders := [(0, { Polder.reset with formed := true, cacheInit := true, stackDepth := 1, homeQ := q })] }

/-- A transfer of one token of sequence 0 that its home has translated. -/
def job0 : KvJob := { (coreR.kvJob kf) with stage := .translated }

/-- An append whose copy of page 0 to page 1 is to be switched. -/
def sCow : State := sK [op1 (.kvappend { job0 with cows := [(0x1000, 0, 1)] })] [] []

/-- An `X.SEQ` of core 0. -/
def seq1 (fn : Nat) (a b : W64) : SeqReq :=
  { ctx := 0, rank := 0, tag := 1, dst := 3, fn := fn, a := a, b := b, src := 0, slot := 7, bundle := 0 }

/-- The state in which a request waits for the cache home. -/
def sQ (r : SeqReq) : State := sK [op1 (.seq 3)] [] [.seq r]

/-- Keys of a session. -/
def keys0 : Keys := { i2d := 1, d2i := 2 }

/-- An Owner's session of edition 2 on the management segment. -/
def owner : Session :=
  { role := 2, edition := 2, path := .mgmt, scope := 0xFFFF, udpPort := 0, served := 0, newest := none, responses := [],
    subs := [], seg := none,
    keys := keys0, enrolKey := none }

/-- The state in which session 0 is this one. -/
def sM (x : Session) : State := { s0 with sessions := [(0, x)] }

/-- A request of session 0. -/
def hdr : Hdr := { path := .mgmt, session := 0, seq := 5, tagDiff := 0 }

theorem takes {s : State} {x : Session} (e : s.alive && s.mode != 3 && (s.session 0 == some x) && x.responses.isEmpty
    && x.newest.isNone && s.nvRun.isNone && s.nvQ.isEmpty && s.mgmtQ.isEmpty = true) : s.Takes hdr x := by
  simp only [Bool.and_eq_true, bne_iff_ne, beq_iff_eq, List.isEmpty_iff, decide_eq_true_eq, Option.isNone_iff_eq_none] at e
  obtain ⟨⟨⟨⟨⟨⟨⟨a, b⟩, c⟩, d⟩, f⟩, g⟩, i⟩, j⟩ := e
  exact { alive := a, reached := fun h => (nomatch h), mode := b, session := c, authentic := by decide, type := rfl,
          fresh := by simp [d], window := by simp [f], stored := g, queued := i, waiting := j }

/-- Whether a check passed. -/
def passes {α : Type} (e : Except Nat α) : Bool :=
  match e with
  | .ok _ => true
  | .error _ => false

/-- An association of edition 1 on polder 0, and its header. -/
def assoc1 : Association := { num := 1, ipv6 := false, keys := keys0, role := 1, edition := 1, scope := 1 }
def hh : HostHdr :=
  { edition := 1, flags := 1, assoc := 1, request := 0, context := 0, slot := 0, item := 0, offset := 0, length := 0 }

/-- The state in which it is open, with this context 0. -/
def sH (c : Ctx) : State := { s0 with assocs := [assoc1], ctxs := [(0, c)] }

/-- A package of one bundle, 128 bytes that land at 0x20000. -/
def pkg1 : Pkg :=
  { ordinal := 0, version := 1, e2e := false, sealed := false, length := 128, dest := 0x20000, program := 0x10000,
    bundles := 1, start := 0, resAddr := 0x30000, resBytes := 64, crc := 0, declOffset := 0, declCount := 0, key := none,
    nonce := [] }

/-- A READY slot of context 0, under tag 1. -/
def slot1 : ResultSlot :=
  { tag := 1, record := some (completionRecord 0 0 64 0 0 []), released := false, resAddr := 0x30000, resBytes := 64,
    sealed := none }

/-- A host's fragment of one of two halves of a message. -/
def half : Fragment := { total := 2, offset := 0, bytes := [7] }

/-- A handshake of these path and number whose H2 is signed. -/
def hs1 (path : HsPath) (n : W32) : Handshake := { Handshake.begin path .mgmt n 2 with h2 := [1, 2, 3], cut := 2, signed := true }

theorem serves {s : State} {h : HostHdr} {n : Nat} (e : s.hosting && (s.assocs.find? (fun b => b.num == h.assoc) == some assoc1)
    && !h.ipv6 && decide (h.edition = 1) && decide (h.length.toNat = n) && decide (n ≤ 4096) = true) :
    s.Serves h assoc1 0 n := by
  simp only [Bool.and_eq_true, beq_iff_eq, decide_eq_true_eq, Bool.not_eq_true'] at e
  obtain ⟨⟨⟨⟨⟨a, b⟩, c⟩, d⟩, f⟩, g⟩ := e
  exact { hosting := a, assoc := b, version := fun _ => c, edition := by rw [d]; rfl, length := f, limit := g,
          known := by decide, scope := by decide }

/-- This many zero bytes. -/
def zeros (n : Nat) : List Byte := List.replicate n 0

/-- A package that arrives whole: 128 bytes of descriptor, addressed to 0x20000. -/
def pkgBytes : List Byte :=
  toBytes 2 1 ++ zeros 6 ++ zeros 8 ++ toBytes 8 128 ++ toBytes 8 0x20000 ++ toBytes 8 0x10000 ++ toBytes 2 1 ++ zeros 6
    ++ toBytes 8 0x30000 ++ toBytes 4 64 ++ zeros 68

def batch1 : NvBatch :=
  { place := 0, bytes := 65536, work := .items { h := hdr, body := .write 0x1000 0 [] } [(entryKey 0x6010 3, 1)] none }

/-- The state after a command, where there is one. -/
def after (i : Instr) (s : State) : State :=
  match exec i s with
  | .next t => t
  | .fault _ => s
  | .refused _ => s

/-- A core whose registers 2 and 3 hold these. -/
def regs (a b : W64) : State := running { core0 with g := [(2, a), (3, b)] } core0

/-- A scalar result in register 1. -/
def gives (i : Instr) (s : State) : W64 := ((after i s).core 0).getG 1

/-! ### Ill-formed commands -/

/-- A slot of each kind at a number of another kind. -/
theorem smoke_slot_numbers :
    [Instr.sAdd (at0 2) sf, .aLoop (at0 4) af, .mStream (at0 5) mf, .vFma (at0 7) vf, .xJmp (at0 1) xf].all
      (fun i => !i.wellFormed) = true := by decide

/-- A core past the last, in a slot and in a completion. -/
theorem smoke_cores :
    (Instr.sAdd { at0 0 with core := 144 } sf).wellFormed = false
      ∧ (Instr.aLoadDone 144 0).wellFormed = false := by decide

/-- A port past the last. -/
theorem smoke_ports : (Instr.linkLost 5).wellFormed = false
  ∧ (Instr.hsH2Request (.port 5 0) 1 0).wellFormed = false := by
  decide

/-- A Tsusen payload and a host payload one byte too long. -/
theorem smoke_payloads :
    (Instr.batchWrite hdr (zeros 1025)).wellFormed = false ∧ (Instr.ctxOpen hh (zeros 8193)).wellFormed = false := by
  decide +kernel

/-- Bytes lost on the way of a SUBMIT. -/
theorem smoke_arrived : (Instr.submit hh [1, 2] [1]).wellFormed = false := by decide

/-- A fragment that runs past its message. -/
theorem smoke_fragments : (Instr.hsH3 .host 1 { half with offset := 2 }).wellFormed = false := by decide

/-- A reading of too few sites. -/
theorem smoke_readings :
    (Instr.powerEvaluation { power := 0, voltage := 0, current := 0, junction := [], sitePower := [], vcore := [] }).wellFormed
      = false := by decide

/-! ### Small steps -/

/-- R58: additions wrap, shifts take SRCB modulo 64, SAR copies the sign. -/
theorem test_scalar_wraps :
    gives (.sAdd (at0 0) sf) (regs 0xFFFFFFFFFFFFFFFF 2) = 1
      ∧ gives (.sSar (at0 0) sf) (regs 0x8000000000000000 65) = 0xC000000000000000 := by
  decide +kernel

/-- R58: -1 is less than 1 signed and not unsigned. -/
theorem test_compare_signs :
    ((after (.sCmpLt (at0 0) sf) (regs 0xFFFFFFFFFFFFFFFF 1)).core 0).guard 1 false = true
    ∧ ((after (.sCmpLtu (at0 0) sf) (regs 0xFFFFFFFFFFFFFFFF 1)).core 0).guard 1 false = false := by decide +kernel

/-- R62: a store and a load of the same word. -/
theorem test_scalar_memory :
    ((after (.sSt (at0 0) { sf with imm := 8 }) (regs 16 77)).core 0).scalar 24 = 77 := by decide +kernel

/-- R298 to R301, worked example: the spread view of a polder of sites 4 to 7 with 2 GiB a site. -/
theorem test_spread_view :
    ({ s0 with dict := [(entryKey 0x5100 1, 0xF0), (entryKey 0x3010 0, 2)] } : State).resolve 0 0x80000F4240
      = some (6 * 2 ^ 34 + 0x38003C240) := by decide +kernel

/-- R299, worked example: channel 11.3. -/
theorem test_channel : channelIndex 0x2D4C099A40 = 0x3100 + 16 * 11 + 3 := by decide

/-- 08_vector_functions.md, worked example: exp2 of 0.5 in BF16, and in E4M3 held in a BF16 lane. -/
theorem test_exp2 :
    (exp2Elem bf16 0 .near true 0x3F00).1 = 0x3FB5 ∧ (exp2Elem bf16 3 .near true 0x3F00).1 = 0x3FB0 := by decide +kernel

/-- 08_vector_functions.md, worked example: log2 of 3.0 in BF16, to nearest and towards zero. -/
theorem test_log2 :
    (log2Elem bf16 0 .near true 0x4040).1 = 0x3FCB ∧ (log2Elem bf16 0 (rndOf 1 0) true 0x4040).1 = 0x3FCA := by
  decide +kernel

/-- 05_formats_meridian.md, worked example: 300.0 and 500.0 to E4M3. -/
theorem test_e4m3 :
    (cvtElem 0 4 .near true 0x43960000).1 = 0x79 ∧ (cvtElem 0 4 .near true 0x43FA0000).1 = 0x7E
    ∧ (cvtElem 0 4 .near false 0x43FA0000).1 = 0x7F
    ∧ (cvtElem 0 4 .near true 0x43FA0000).2.sat = true := by decide +kernel

/-- R183 and R184, worked example: two segments of two lanes, combined. -/
theorem test_nodes :
    let l := (nodeOf 0x4B800000 [0x4B800000, 0x4B800001]).1
    let r := (nodeOf 0x4B800002 [0x4B800002, 0x4B800003]).1
    (l.combine r).1.words = [0x4B800000, 0x41400000, 0x42600000, 0x40800000] := by decide +kernel

/-- R251, worked example: the gate closes below the weir and opens above it. -/
theorem test_weirs :
    let j := { job1 with step := 1, tide := 4, weirs := [0x3CCCCCCD, 0x3CA3D70A] }
    let t : SluiceState := { job := some j, d := 0x3E000000, y := 0x40C00000, u := false }
    decideOf j t 0 = 0 ∧ decideOf j t 1 = 3 := by decide +kernel

/-- R31, worked example: an event that arrives with the clear of its flag leaves the flag at 1 and its counter advanced. -/
theorem test_set_wins :
    let s := { sM owner with dict := [(entryKey 0x2001 1, 8), (entryKey 0x2001 6, 41)], arrived := [(0x2001, 3, 1)] }
    let t := after (.flagsClear hdr 0x2001 8) s
    t.entry 0x2001 1 = 8 ∧ t.entry 0x2001 6 = 42 := by decide +kernel

/-- R40, worked example: the map of disabled cores. -/
theorem test_disabled_map :
    mapBytes 18 [5, 17, 40, 41, 77, 98, 120, 143]
      = [0x20, 0, 2, 0, 0, 3, 0, 0, 0, 0x20, 0, 0, 4, 0, 0, 1, 0, 0x80] := by decide +kernel

/-- R54: a slot whose guard is false does nothing; R57: register 0 stays zero. -/
theorem test_guard_and_zero :
    gives (.sAdd { at0 0 with pneg := true } sf) (regs 1 2) = 0
    ∧ ((after (.sAdd (at0 0) { sf with dst := 0 }) (regs 1 2)).core 0).getG 0 = 0 := by decide +kernel

/-- R68: a jump takes the next bundle from TARGET; a halt ends the run of its core. -/
theorem test_jump_and_halt :
    ((after (.xJmp (at0 7) { xf with target := 5 }) s0).core 0).pc = 5
    ∧ ((after (.xHalt (at0 7) xf) s0).core 0).hold = .halted := by decide +kernel

/-! ### Witnesses: a state and operands that meet every hypothesis -/

theorem witness_StepRunsTheFront : { s0 with pending := [.boot, .resetN] }.pending = .boot :: [.resetN] := rfl

theorem witness_ScalarResults :
    ∀ op ∈ [SlotOp.add sf, .sub sf, .mul sf, .and sf, .or sf, .xor sf, .shl sf, .shr sf, .sar sf, .min sf, .max sf,
      .cmpEq sf, .cmpNe sf, .cmpLt sf, .cmpLtu sf, .cmpLe sf, .cmpLeu sf], s0.Acts (at0 0) op :=
  acts_all (by decide +kernel)

/-- The address of an S.LD or S.ST of `s0`. -/
def addr (imm : W64) : Nat := ((s0.core 0).getG sf.srcA + imm).toNat

/-- What the fault of an S.LD or S.ST leaves. -/
def taken : State :=
  (s0.setCore 0 (s0.core 0)).faultAtIssue 0 { code := faultIllegal, detail := 4, slot := 1, bundle := 0, more := 0 }

/-- The last word of the store. -/
theorem witness_ScalarMemory :
    (∀ op ∈ [SlotOp.ld { sf with imm := 65528 }, .st { sf with imm := 65528 }], s0.Acts (at0 1) op)
    ∧ addr 65528 % 8 = 0 ∧ addr 65528 < 65536 ∧ (s0.core 0).guard 0 false = true :=
  ⟨acts_all (by decide +kernel), by decide +kernel⟩

/-- The first addresses that are none: past the end, and between two words. -/
theorem witness_ScalarMemory_faults :
    ¬ (addr 65536 % 8 = 0 ∧ addr 65536 < 65536) ∧ ¬ (addr 65532 % 8 = 0 ∧ addr 65532 < 65536)
    ∧ (taken.core 0).quiet = true
    ∧ s0.Ready (at0 1) (.ld { sf with imm := 65536 }) ∧ s0.Ready (at0 1) (.st { sf with imm := 65532 }) :=
  ⟨by decide +kernel, by decide +kernel, by decide +kernel, ready_of (by decide +kernel), ready_of (by decide +kernel)⟩

theorem witness_ScalarSystemValues :
    (s0.core 0).ctx = some 0
    ∧ ∀ op ∈ [SlotOp.sys { sf with imm := 0 }, .sys { sf with imm := 1 }, .sys { sf with imm := 2 }, .sys { sf with imm := 3 },
        .sys { sf with imm := 4 }, .sys { sf with imm := 5 }, .sys { sf with imm := 6 }, .sys { sf with imm := 7 }],
        s0.Acts (at0 1) op :=
  ⟨rfl, acts_all (by decide +kernel)⟩

theorem witness_RegisterZero : (63 : BitVec 6) ≠ 0 ∧ (1 : BitVec 6) ≠ 63 ∧ (15 : BitVec 4) ≠ 0
  ∧ (1 : BitVec 4) ≠ 15 := by decide

/-- A slot that is not the last, and one whose guard does not hold. -/
theorem witness_BundlesGather :
    (slotCommand (.sAdd { at0 0 with last := false } sf) = some ({ at0 0 with last := false }, .add sf)
      ∧ s0.coreEnabled 0 = true ∧ (s0.core 0).ctx.isSome = true ∧ (SlotOp.add sf).slotOk 0 = true)
    ∧ slotCommand (.mDrain { at0 4 with pneg := true } mf) = some ({ at0 4 with pneg := true }, .drain false mf)
    ∧ s0.Ready { at0 4 with pneg := true } (.drain false mf) ∧ (s0.core 0).guard 0 true = false
    ∧ s0.slotFault 0 (slotOf { at0 4 with pneg := true } (.drain false mf)) false = none :=
  ⟨⟨rfl, by decide, rfl, by decide⟩, rfl, ready_of (by decide +kernel), by decide, by decide +kernel⟩

theorem witness_OperationsBegin_aSlots :
    ∀ op ∈ [SlotOp.aLoop { af with desc := 100 }, .aLoad af, .aStore af, .sample af, .update 1 { uf with wsLine := 200 },
      .update 2 { uf with wsLine := 200 }, .update 3 { uf with wsLine := 200 }], sR.Acts (at0 2) op :=
  acts_all (by decide +kernel)

theorem witness_OperationsBegin_loop : (walkOf (cells coreR.sstore 100 35) 0).isSome = true := by decide +kernel

theorem witness_OperationsBegin_mSlots :
    ∀ op ∈ [SlotOp.stream false mf, .stream true { mf with bank := true, agOut := 3, gParam := 5 }, .gstream gf, .drain false mf,
      .drain true { mf with bank := true }], sR.Acts (at0 4) op :=
  acts_all (by decide +kernel)

theorem witness_OperationsBegin_xSlots :
    ∀ op ∈ [SlotOp.put xf, .recv xf, .iload { xf with imm := 1 }], sR.Acts (at0 7) op :=
  acts_all (by decide +kernel)

theorem witness_WaitsPassOrHold :
    (s0.Acts (at0 2) (.aWait af) ∧ s0.Acts (at0 4) (.mWait mf) ∧ s0.Acts (at0 7) (.xWait xf)
      ∧ s0.Acts (at0 7) (.fence xf))
    ∧ slotCommand (.aWait (at0 3) af) = some (at0 3, .aWait af) ∧ (running (busy (.recv 0 1)) core0).issuing 0 = true
    ∧ (SlotOp.aWait af).tag = some 1 ∧ (busy (.recv 0 1)).tagHeld 1 = true ∧ (busy (.recv 0 1)).guard 0 false = true :=
  ⟨⟨acts_of (by decide +kernel), acts_of (by decide +kernel), acts_of (by decide +kernel), acts_of (by decide +kernel)⟩,
    rfl, by decide, rfl, by decide, by decide⟩

/-- An operation faults. -/
def faults (op : Op) : Bool := ((sOp op).seeing 0 (op1 op) (fun u => u.runOp 0 op)).2.isSome

theorem witness_OperationsEnd_load : (busy (.load 0 (walk1 1 0) 0 0)).opUnder 1 Op.isLoad = some (op1 (.load 0 (walk1 1 0) 0 0))
    ∧ ends (.load 0 (walk1 1 0) 0 0) = true := by decide +kernel

theorem witness_OperationsEnd_store : ((busy (.store 0 (walk1 1 0) 0 0)).opUnder 1 Op.isStore).isSome = true
    ∧ faults (.store 0 (walk1 1 0) 0 0) = true := by decide +kernel

theorem witness_OperationsEnd_iload : ((busy (.iload 0 1 5)).opUnder 1 Op.isIload).isSome = true
    ∧ ends (.iload 0 1 5) = true ∧ faults (.iload 0x800000000 1 5) = true := by decide +kernel

/-- A sample that is the first of its core, under its own tag and under another. -/
theorem witness_OperationsEnd_sample :
    let k := busy (.sample 0 RngState.reset 0)
    k.ops.find? (fun b => Op.isSample b.op) = some (op1 (.sample 0 RngState.reset 0))
    ∧ (op1 (.sample 0 RngState.reset 0)).tag = some (1 : BitVec 4).toNat
    ∧ (op1 (.sample 0 RngState.reset 0)).tag ≠ some (2 : BitVec 4).toNat
    ∧ faults (.sample 0 RngState.reset 0) = true := by decide +kernel

theorem witness_OperationsEnd_stream :
    ((busy stm).opUnder 1 Op.isStream).isSome = true ∧ ends stm = true := by decide +kernel

theorem witness_OperationsEnd_drain : ((busy drn).opUnder 1 Op.isDrain).isSome = true ∧ ends drn = true := by
  decide +kernel

theorem witness_OperationsEnd_update : ((busy upd).ops.find? (fun b => Op.isUpdate b.op)) = some (op1 upd)
  ∧ ends upd = true := by
  decide +kernel

theorem witness_VectorResults :
    ∀ op ∈ [SlotOp.vFma vf, .vAdd vf, .vMul vf, .vMax vf, .vMin vf, .vSel vf, .vCmp vf, .vCvt vf, .vExp2 vf, .vLog2 vf,
      .vRsum 0 { vf with imm32 := 128 }, .vRsum 1 { vf with imm32 := 1 }, .vRsum 2 { vf with imm32 := 32 },
      .vRsum 3 { vf with imm32 := 32 }, .vRsum 4 { vf with imm32 := 32 }, .vRsum 5 { vf with imm32 := 32 }],
      s0.Acts (at0 6) op :=
  acts_all (by decide +kernel)

/-- The last element of a register of 32-bit integers, and of one of 16-bit floating-point numbers. -/
theorem witness_VectorElements :
    vf.immSel = false ∧ 127 < 4096 / laneW 3 ∧ 255 < 4096 / laneW 1 ∧ (3 : BitVec 3) = 3
      ∧ (1 : BitVec 3) ≠ 3 := by decide

/-- The last eight lines of the store. -/
theorem witness_VectorMemory :
    ∀ op ∈ [SlotOp.vLd { vf with wsLine := 65528 }, .vSt { vf with wsLine := 65528 }], s0.Acts (at0 5) op :=
  acts_all (by decide +kernel)

theorem witness_WindowRuns :
    (∀ op ∈ [SlotOp.vWin 0 { wf with ty := 1, rowPitch := 4, colPitch := 4 }, .vWin 1 { wf with ty := 1, rowPitch := 4, colPitch := 4 },
        .vWin 2 { wf with ty := 1, rowPitch := 4, colPitch := 4 }], s0.Acts (at0 5) op)
    ∧ (busy (.win true 1 0 1)).ops.find? (fun o => match o.op with
        | .win b _ _ _ => b == true
        | _ => false) = some (op1 (.win true 1 0 1))
    ∧ (busy (.win true 1 0 1)).quiet = true :=
  ⟨acts_all (by decide +kernel), rfl, by decide⟩

theorem witness_Comparator :
    (∀ op ∈ [SlotOp.sluice 0 lf, .sluice 1 lf, .sluice 2 lf, .sluice 3 { lf with wsLine := 100 }], sR.Acts (at0 5) op)
    ∧ (sR.core 0).sluice.job = some job1 ∧ decideOf job1 (sR.core 0).sluice 0 ≠ 0 :=
  ⟨acts_all (by decide +kernel), rfl, by decide +kernel⟩

theorem witness_Generators :
    ∀ op ∈ [SlotOp.rng 0 rf, .rng 1 { rf with ty := 3 }, .rng 2 rf, .rng 3 rf, .rng 4 rf, .rng 5 rf, .rng 6 rf],
      s0.Acts (at0 6) op :=
  acts_all (by decide +kernel)

theorem witness_Jumps :
    (∀ op ∈ [SlotOp.jmp xf, .br xf, .call xf, .ret xf], sR.Acts (at0 7) op) ∧ (sR.core 0).calls = [7] :=
  ⟨acts_all (by decide +kernel), rfl⟩

/-- Both cores at a context barrier; one of them; a bundle of X.BAR, and one of X.HALT. -/
theorem witness_BarriersAndHalt :
    let both := running { core0 with hold := .barrier false } { core0 with rank := 1, hold := .barrier false }
    let one := running { core0 with hold := .barrier false } { core0 with rank := 1 }
    (s0.Acts (at0 7) (.bar xf) ∧ s0.Acts (at0 7) (.halt xf))
    ∧ (both.ctx 0).state = 3 ∧ both.joined 0 false 0 = [0, 1]
    ∧ (∀ n ∈ [0, 1], both.arrived' n false = true ∧ (both.core n).quiet = true)
    ∧ 1 ∈ one.joined 0 false 0 ∧ one.arrived' 1 false = false :=
  ⟨⟨acts_of (by decide +kernel), acts_of (by decide +kernel)⟩, by decide +kernel⟩

theorem witness_CountersServe :
    let r : CtrReq := { core := 0, ctx := 0, opened := ctx0.openAt, tag := 1, dst := 3, counter := 15, isSet := true, operand := 5 }
    let s : State := { sOp (.counter 3) with ctrQ := [(15, [r])] }
    (∀ op ∈ [SlotOp.fetchadd xf, .cset xf], s0.Acts (at0 7) op) ∧ (s0.core 0).ctx = some 0
    ∧ tblFind s.ctrQ (16 * (0 : BitVec 4).toNat + (15 : BitVec 4).toNat) = some [r] ∧ (s.core 0).ctx = some r.ctx
    ∧ (s.ctx r.ctx.toNat).openAt = r.opened ∧ (s.core 0).quiet = true :=
  ⟨acts_all (by decide +kernel), by decide +kernel⟩

/-- Core 1 puts two lines to the receive of core 0; the lengths agree, or not. -/
theorem witness_ExchangeCompletes :
    let s (n : Nat) : State := running (busy (.recv 4 n)) { core0 with rank := 1, ops := [op1 (.put 0 8 2 1)] }
    (((s 2).core 0).ctx = some 0 ∧ ((s 2).core 0).opUnder 1 Op.isRecv = some (op1 (.recv 4 2))
      ∧ earliest ((s 2).putsTo 0 ((s 2).core 0).rank 1) = some (1, op1 (.put 0 8 2 1)) ∧ ((s 2).core 1).quiet = true)
    ∧ earliest ((s 3).putsTo 0 ((s 3).core 0).rank 1) = some (1, op1 (.put 0 8 2 1)) ∧ 2 ≠ 3 := by decide +kernel

/-- A query of an open sequence is accepted, an open of it refused; the word of a sequence is poisoned. -/
theorem witness_SequencesServe :
    let home (s : State) (r : SeqReq) : Home := (s.granted 0 (.seq r)).seqHome 0 r
    let bad : State := { sQ (seq1 4 0 0) with memErr := [(0, { soft := [0, 1, 2, 3], hard := [] })] }
    (∀ op ∈ [SlotOp.seq 0 xf, .seq 1 xf, .seq 2 xf, .seq 3 xf, .seq 4 xf], s0.Acts (at0 7) op)
    ∧ (s0.core 0).ctx = some 0 ∧ s0.servable 0 = none
    ∧ (sQ (seq1 4 0 0)).servable 0 = some (.seq (seq1 4 0 0)) ∧ (sQ (seq1 4 0 0)).calm = true
    ∧ (∀ q ∈ ((sQ (seq1 4 0 0)).polder 0).homeQ, q = .seq (seq1 4 0 0))
    ∧ ((home (sQ (seq1 4 0 0)) (seq1 4 0 0)).poison = none
      ∧ (home (sQ (seq1 4 0 0)) (seq1 4 0 0)).seqCheck (seq1 4 0 0) = none
      ∧ ((home (sQ (seq1 4 0 0)) (seq1 4 0 0)).seqDo (seq1 4 0 0)).poison = none)
    ∧ (sQ (seq1 0 0 0)).servable 0 = some (.seq (seq1 0 0 0)) ∧ (home (sQ (seq1 0 0 0)) (seq1 0 0 0)).poison = none
    ∧ ((home (sQ (seq1 0 0 0)) (seq1 0 0 0)).seqCheck (seq1 0 0 0)).isSome = true
    ∧ (home bad (seq1 4 0 0)).poison.isSome = true ∧ bad.servable 0 = some (.seq (seq1 4 0 0)) := by
  refine ⟨acts_all (by decide +kernel), rfl, by decide +kernel, by decide +kernel, by decide +kernel, by decide +kernel,
    by decide +kernel, by decide +kernel, by decide +kernel, by decide +kernel, by decide +kernel, by decide +kernel⟩

/-- What a load or append of core 0 leaves that its home translates at once. -/
def askedOf (o : SlotOp) (op : Op) : State :=
  let s := sK [] [] []
  let k := s.core 0
  (((s.passed 0).begin 0 (slotOf (at0 2) o) k.pc (some 1) op (o.reads k (s.cacheCfg 0)) (o.writes k (s.cacheCfg 0))).onPolder 0
    (fun y => { y with homeQ := [] })).mark 0x7020 7

def kvReq0 : KvReq := { ctx := 0, rank := 0, tag := 1, slot := 2, bundle := 0 }

theorem witness_CacheTransfers_begin :
    let s := sK [] [] []
    let f : KFields := { kf with gPos := 6 }
    let l := (askedOf (.kvload kf) (.kvload ((s.core 0).kvJob kf))).kvLoad 0 0 kvReq0 ((s.core 0).kvJob kf)
    let a := (askedOf (.kvappend f) (.kvappend ((s.core 0).kvJob f))).kvAppend 0 ((s.core 0).kvJob f)
    (s.Acts (at0 2) (.kvload kf) ∧ s.Acts (at0 2) (.kvappend f))
    ∧ ((s.core 0).ctx = some 0 ∧ (s.ctx 0).images = [] ∧ (s.ctx 0).cores[(s.core 0).rank]? = some 0
    ∧ (s.polder 0).homeQ = [])
    ∧ (l.state.core 0).quiet = true ∧ l.fault = none ∧ (a.state.core 0).quiet = true ∧ a.fault = none :=
  ⟨⟨acts_of (by decide +kernel), acts_of (by decide +kernel)⟩, by decide +kernel, by decide +kernel⟩

/-- The home refuses a load of a sequence that the table has not. -/
theorem witness_CacheTransfers_refused :
    let s := sK [] [] []
    let f : KFields := { kf with gSeq := 5 }
    let l := (askedOf (.kvload f) (.kvload ((s.core 0).kvJob f))).kvLoad 0 0 kvReq0 ((s.core 0).kvJob f)
    s.Acts (at0 2) (.kvload f) ∧ (l.state.core 0).quiet = true ∧ l.fault.isSome = true :=
  ⟨acts_of (by decide +kernel), by decide +kernel⟩

/-- A query waits before them. -/
theorem witness_CacheTransfers_wait :
    let s := sK [] [] [.seq (seq1 4 0 0)]
    s.servable 0 = some (.seq (seq1 4 0 0)) ∧ s.Acts (at0 2) (.kvload kf)
      ∧ s.Acts (at0 3) (.kvappend { kf with gPos := 6 }) :=
  ⟨by decide +kernel, acts_of (by decide +kernel), acts_of (by decide +kernel)⟩

/-- A load with one pin; an append that copies page 0 on write, and one that waits for no copy. -/
theorem witness_CacheTransfers_end :
    let j : KvJob := { job0 with pins := [0] }
    let w (cows : List (W64 × Nat × Nat)) : KvJob := { job0 with cows := cows }
    let s := sK [op1 (.kvload j)] [] []
    let asked := ((s.onCore 0 (fun q => q.setJob 0 { j with stage := .releasing })).onPolder 0
         (fun q => { q with homeQ := [] })).mark 0x7020 7
    ((s.core 0).kvUnder 1 = some (op1 (.kvload j), j, false) ∧ (s.core 0).ctx = some 0 ∧ (s.ctx 0).images = []
      ∧ (s.ctx 0).cores[(s.core 0).rank]? = some 0 ∧ (s.polder 0).homeQ = []
      ∧ (j.pins.foldl Home.unpin (asked.home 0)).poison = none ∧ s.calm = true)
    ∧ (sCow.core 0).opUnder 1 Op.isAppend = some (op1 (.kvappend (w [(0x1000, 0, 1)])))
    ∧ ((sK [op1 (.kvappend (w []))] [] []).core 0).opUnder 1 Op.isAppend = some (op1 (.kvappend (w [])))
    ∧ (w []).stage = .translated
    ∧ (sK [op1 (.kvappend (w []))] [] []).calm = true ∧ ((sK [op1 (.kvappend (w []))] [] []).core 0).quiet = true := by
  decide +kernel

/-- The page that the append copies holds no poisoned word, so its switch takes effect. -/
theorem witness_CacheTransfers_switch : (sCow.cowSwitch 0 0x1000 0 1).2 = none :=
  State.cowSwitch_clean 0 0x1000 0 1 rfl

/-- A word of the gate map that is whole, and one that is poisoned. -/
theorem witness_PostServed :
    let x : Post := { core := 0, ctx := 0, rank := 0, addr := 64, bit := 3, slot := 5, bundle := 0 }
    let s := s0.onPolder 0 (fun q => { q with posts := [x] })
    let bad : State := { s with memErr := [(1, { soft := [0, 1, 2, 3], hard := [] })] }
    let word (s : State) := (((s.onPolder 0 (fun q => { q with posts := [] })).bump 0x7120 6 1).readView
        { polder := 0, site := some (s.entry 0x7110 0 / 16) } 64 64).poison
    (s.polder 0).posts = [x] ∧ word s = none ∧ (bad.polder 0).posts = [x] ∧ word bad ≠ none := by decide +kernel

theorem witness_FabricRuns :
    let f : XFields := { xf with gA := 4 }
    let ws := ((sR.core 0).fabricWords f).getD []
    let o : FabricOp :=
      { id := sR.nextId, ctx := 0, rank := 0, tag := 3, descAt := 1600, func := 1, words := ws, nodes := [], sums := [], parts := [],
        results := [], closing := false, events := [], state := 0, fstatus := 0, slot := 7, bundle := 0 }
    let t := ((sR.passed 0).begin 0 (slotOf (at0 7) (.fabric f)) 0 (some 3) (.fabric sR.nextId) (fabricReads ws)
       (fabricWrites ws)).startFabric o
    let e : FabricOp := { o with id := 7, tag := 1, state := 1 }
    let s := { sOp (.fabric 7) with fabricOps := [e] }
    (sR.core 0).ctx = some 0 ∧ (sR.core 0).fabricWords f = some ws ∧ bits (ws.getD 0 0) 63 60 = 1
      ∧ sR.Acts (at0 7) (.fabric f)
    ∧ (t.core 0).quiet = true
    ∧ s.fabricOp 7 = some e ∧ (s.ctx 0).images = [] ∧ (s.ctx 0).cores[0]? = some 0 ∧ (s.core 0).ctx = some e.ctx
    ∧ s.calm = true :=
  ⟨rfl, by decide +kernel, by decide +kernel, acts_of (by decide +kernel), by decide +kernel, by decide +kernel⟩

/-- A peer's write of 64 bytes to member 0 just past the context-record region, and one to that region's last bytes; an
abort; a packet with one retry left and one without; one that waits for a credit. -/
theorem witness_FabricPackets :
    let g : Group := { ident := 9, members := [1, 2], mine := 0, ended := [] }
    let c : Ctx := { ctx0 with group := some g }
    let o : FabricOp :=
      { id := 7, ctx := 0, rank := 0, tag := 1, descAt := 1600, func := 2, words := [0, 0, 0, 0, 0, 0, 5], nodes := [],
        sums := [], parts := [], results := [], closing := false, events := [], state := 0, fstatus := 0, slot := 7, bundle := 0 }
    let k (r : Nat) (w : Bool) : FabricPkt :=
      { id := 3, op := 7, ctx := 0, peer := 2, path := none, credit := false, waiting := w, retries := r, msg := .put 0 [] }
    let l : FabricLink := { peer := 2, edition := 1, scope := 1, keys := keys0, credits := 1, granted := 1, taken := [4] }
    let s (k : FabricPkt) : State := { s0 with ctxs := [(0, c)], fabricOps := [o], fabricPkts := [k], links := [l] }
    let u := s (k 0 false)
    u.memberCtx 9 = some (0, c) ∧ u.link 2 = some l ∧ g.mine = (0 : W32).toNat
    ∧ l.taken.contains 5 = false ∧ l.taken.contains 4 = true ∧ segmentsOk [1] [2] = false
    ∧ u.fabricWritable 0 l.scope 65536 64 = true ∧ u.fabricWritable 0 l.scope 65472 64 = false
    ∧ (5 : W64) ∉ g.ended ∧ o.state ≠ 1
    ∧ u.fabricOps.find? (fun x => x.ctx.toNat == 0 && x.collId == 5 && x.collective && x.state == 0) = some o
    ∧ u.fabricPkts.find? (fun x => x.id == 3 && !x.waiting) = some (k 0 false) ∧ 0 + 1 < u.entry 0x6000 6
    ∧ u.entry 0x6000 6 ≤ (k 255 false).retries + 1
    ∧ (s (k 0 true)).fabricPkts.find? (fun x => x.id == 3 && x.waiting) = some (k 0 true)
    ∧ ({ s (k 0 true) with links := [] } : State).link 2 = none := by decide +kernel

theorem witness_FabricPackets_whole : segmentsOk (List.replicate 64 7) (List.replicate 64 7) = true := by
  simp [segmentsOk]

/-- A job at the head of an engine's queue, of its last stream or of another; a job that ends, for its context or torn
down. -/
theorem witness_MediaRuns :
    let a := (s0.core 0).getG xf.gA
    let r := (s0.passed 0).readView (coreFor 0 0) a 64
    let ws := (pieces 8 8 r.data).map (fun b => BitVec.ofNat 64 (ofBytes b))
    let j : MediaJob :=
      { id := 3, core := 0, ctx := 0, rank := 0, tag := 1, polder := 0, descAddr := 64, words := [], dropped := false }
    let b := r.state.begin 0 (slotOf (at0 7) (.media xf)) 0 (some 3) (.media 0 3) (memRange a 64) (memRange a 64)
    let s (g : Engine) : State := (sOp (.media 0 3)).setEngine 0 g
    let ended (j : MediaJob) : State := (((s { Engine.reset with running := some j }).setEngine 0 Engine.reset).mediaEnds 0 j).state
    (s0.Acts (at0 7) (.media xf) ∧ (s0.core 0).ctx = some 0 ∧ r.poison = none ∧ bits (ws.getD 0 0) 59 58 = 0
      ∧ ((b.setEngine 0 { b.engine 0 with queue := [j] }).core 0).quiet = true)
    ∧ (s { Engine.reset with queue := [j] }).calm = true ∧ ((s { Engine.reset with queue := [j] }).engine 0).queue = [j]
    ∧ ((s { Engine.reset with queue := [j] }).engine 0).lastStream = none
    ∧ ((s { Engine.reset with queue := [j], lastStream := some 5 }).engine 0).lastStream = some 5 ∧ 5 ≠ j.stream
    ∧ ((s { Engine.reset with running := some j }).engine 0).running = some j
    ∧ ((ended j).bump 0x8010 2 1).calm = true ∧ ((ended { j with dropped := true }).bump 0x8010 2 1).calm = true := by
  refine ⟨⟨acts_of (by decide +kernel), rfl, by decide +kernel, by decide +kernel, by decide +kernel⟩, by decide +kernel⟩

theorem witness_RepeatAnswered :
    let r : W16 × Resp := (5, { type := 0x82, status := 0, payload := [] })
    let x := { owner with responses := [r] }
    (sM x).alive = true ∧ hdr.path = .mgmt ∧ (sM x).mode ≠ 3 ∧ (sM x).session 0 = some x ∧ hdr.tagOk = true
    ∧ x.responses.find? (fun y => y.1 == hdr.seq) = some r := by decide +kernel

/-- An entry that exists, and one that does not. -/
theorem witness_ReadAnswers :
    (sM owner).Takes hdr owner ∧ passes ((sM owner).reachEntry owner 0x2000 1 .read) = true
    ∧ passes ((sM owner).reachEntry owner 0x0FFF 1 .read) = false :=
  ⟨takes (by decide +kernel), by decide +kernel⟩

/-- A volatile entry, a kept one, and one that no session writes. -/
theorem witness_WriteAnswers :
    (sM owner).Takes hdr owner
    ∧ (∃ r, entryRow 0x5100 6 = some r ∧ r.access = .rw ∧ r.needsNv = false)
    ∧ (sM owner).checkItem owner { index := 0x5100, sub := 6, data := toBytes 4 1000 } = .ok 1000
    ∧ (∃ r, entryRow 0x2000 1 = some r ∧ r.needsNv = true)
    ∧ (sM owner).checkItem owner { index := 0x2000, sub := 1, data := toBytes 2 1200 } = .ok 1200
    ∧ passes ((sM owner).checkItem owner { index := 0x2000, sub := 1, data := toBytes 2 1201 }) = false :=
  ⟨takes (by decide +kernel), ⟨_, rfl, by decide +kernel⟩, by decide +kernel, ⟨_, rfl, by decide +kernel⟩,
    by decide +kernel, by decide +kernel⟩

/-- The last byte of a DOMAIN, the first past it, another generation, an entry that is none, and a segment too long. -/
theorem witness_Segments_read :
    let s := sM owner
    s.Takes hdr owner
    ∧ (∃ r, s.reachEntry owner 0x5104 0 .read = .ok r ∧ r.ty = .domain)
    ∧ s.domainGen 0x5104 0 = 0 ∧ s.domainGen 0x5104 0 ≠ 1 ∧ s.sizeOf 0x5104 0 - 1 < s.sizeOf 0x5104 0
    ∧ (1024 : W16).toNat ≤ owner.limit ∧ owner.limit < (1025 : W16).toNat
    ∧ (∃ r, s.reachEntry owner 0x5100 6 .read = .ok r ∧ r.ty ≠ .domain) :=
  ⟨takes (by decide +kernel), ⟨_, rfl, by decide +kernel⟩, by decide +kernel, by decide +kernel, by decide +kernel,
    by decide +kernel, by decide +kernel, ⟨_, rfl, by decide +kernel⟩⟩

/-- A sequence with ten bytes so far, and the offsets that go on with it, that begin anew and that do neither; a content
that is too long. -/
theorem witness_Segments_write :
    let x := { owner with seg := some { key := entryKey 0x6001 4, data := List.replicate 10 0 } }
    (sM x).Takes hdr x ∧ (sM x).session 0 = some x
    ∧ (∃ r, (sM x).reachEntry x 0x6001 4 .write = .ok r ∧ r.ty = .domain)
    ∧ x.before (entryKey 0x6001 4) (10 : BitVec 31).toNat = some (List.replicate 10 0)
    ∧ x.before (entryKey 0x6001 4) (0 : BitVec 31).toNat = some []
    ∧ x.before (entryKey 0x6001 4) (11 : BitVec 31).toNat = none
    ∧ (List.replicate 10 (0 : Byte) ++ [1]).length ≤ (domainLimit 0x6001).1 ∧ (domainLimit 0x9010).2 = false
    ∧ (∃ r, (sM x).reachEntry x 0x5100 6 .write = .ok r ∧ r.ty ≠ .domain) :=
  ⟨takes (by decide +kernel), by decide +kernel, ⟨_, rfl, by decide +kernel⟩, by decide +kernel, by decide +kernel, by decide +kernel,
    by decide +kernel, by decide +kernel, ⟨_, rfl, by decide +kernel⟩⟩

theorem segments_long (n : Nat) (h : (domainLimit 0x6001).1 = n + 1) :
    let x := { owner with seg := some { key := entryKey 0x6001 4, data := List.replicate (n + 1) 0 } }
    x.before (entryKey 0x6001 4) (n + 1) = some (List.replicate (n + 1) 0)
    ∧ ¬ (List.replicate (n + 1) (0 : Byte) ++ [1]).length ≤ (domainLimit 0x6001).1 := by
  rw [h]
  exact ⟨by simp [Session.before], by simp⟩

/-- One byte more than the content may have. -/
theorem witness_Segments_long :
    let x := { owner with seg := some { key := entryKey 0x6001 4, data := List.replicate (2097151 + 1) 0 } }
    x.before (entryKey 0x6001 4) (2097151 + 1) = some (List.replicate (2097151 + 1) 0)
    ∧ ¬ (List.replicate (2097151 + 1) (0 : Byte) ++ [1]).length ≤ (domainLimit 0x6001).1 :=
  segments_long 2097151 rfl

theorem witness_SessionsServed :
    (sM owner).alive = true ∧ (sM owner).inbandShut = false ∧ (sM owner).nvRun = none ∧ (sM owner).nvQ = []
    ∧ { sM owner with nvRun := some batch1 }.nvRun.isSome = true ∧ (sM owner).Takes hdr owner
    ∧ passes ((sM owner).reachEntry owner 0x2001 0 .subscribe) = true ∧ (statusOf 0x2001).isSome = true ∧ owner.role ≠ 3
    ∧ (sM { owner with role := 3 }).Takes hdr { owner with role := 3 } :=
  ⟨by decide +kernel, by decide +kernel, rfl, rfl, rfl, takes (by decide +kernel), by decide +kernel, by decide +kernel,
    by decide +kernel, takes (by decide +kernel)⟩

/-- A record; a batch of one write, and one whose second item fails. -/
theorem witness_RecordsAndBatches :
    let a := [0x51, 0x00, 6, 4] ++ toBytes 4 1000
    let b := a ++ [0x20, 0x00, 1, 2] ++ toBytes 2 1201
    (sM owner).Takes hdr owner ∧ 2 ≤ owner.edition
    ∧ passes ((sM owner).reachEntry owner 0x2000 0 .record) = true ∧ isRecord 0x2000 = true
    ∧ batchItems 32 a = some [{ index := 0x5100, sub := 6, data := toBytes 4 1000 }]
    ∧ (sM owner).checkItems owner [] [{ index := 0x5100, sub := 6, data := toBytes 4 1000 }]
        = .ok [(entryKey 0x5100 6, 1000)] ∧ firstNv [(entryKey 0x5100 6, 1000)] = none
    ∧ batchItems 32 b = some [{ index := 0x5100, sub := 6, data := toBytes 4 1000 },
        { index := 0x2000, sub := 1, data := toBytes 2 1201 }]
    ∧ (sM owner).checkItems owner [] [{ index := 0x5100, sub := 6, data := toBytes 4 1000 },
        { index := 0x2000, sub := 1, data := toBytes 2 1201 }] = .error (1, 6)
    ∧ (sM owner).checkItems owner [] [{ index := 0x2000, sub := 1, data := toBytes 2 1200 }] = .ok [(entryKey 0x2000 1, 1200)]
    ∧ (firstNv [(entryKey 0x2000 1, 1200)]).isSome = true ∧ batchItems 32 [1] = none
    ∧ (sM { owner with edition := 1 }).Takes hdr { owner with edition := 1 } :=
  ⟨takes (by decide +kernel), by decide +kernel, by decide +kernel, by decide +kernel, rfl, rfl,
    by decide +kernel, rfl, rfl, rfl, by decide +kernel, rfl, takes (by decide +kernel)⟩

theorem witness_EventsPosted :
    let s := { s0 with arrived := [(0x2001, 31, 2)] }
    s.arrived = [(0x2001, 31, 2)] ∧ 31 < 32 ∧ s.sessions = [] ∧ tblFind s.kept (entryKey 0x2001 1) = none := by decide

theorem witness_FlagsCleared :
    let s := { sM owner with arrived := [(0x2001, 3, 1)] }
    s.Takes hdr owner ∧ s.checkItem owner { index := 0x2001, sub := 1, data := toBytes 4 9 } = .ok 9
    ∧ (∃ r, entryRow 0x2001 1 = some r ∧ r.access = .rwc ∧ r.needsNv = false)
    ∧ tblFind s.kept (entryKey 0x2001 1) = none ∧ (sM owner).arrived = [] :=
  ⟨takes (by decide +kernel), by decide +kernel, ⟨_, rfl, by decide +kernel⟩, by decide +kernel⟩

theorem witness_ActionsTake :
    let ok (index sub : Nat) (data : List Byte) : Bool :=
      passes ((sM owner).checkItem owner { index := index, sub := sub, data := data })
    (sM owner).Takes hdr owner
    ∧ ok 0x5102 1 [1] = true ∧ ok 0x5102 2 [0] = true ∧ ok 0x5102 3 [0] = true ∧ ok 0x5102 4 (1 :: toBytes 2 1) = true
    ∧ ok 0x5105 0 [1] = true ∧ ok 0x4007 0 [1] = true ∧ ok 0x9050 2 [15] = true
    ∧ ok 0x9060 1 (toBytes 32 7) = true :=
  ⟨takes (by decide +kernel), by decide +kernel⟩

theorem witness_ActionsTake_init :
    let s := { sM owner with dict := cacheDict, ctxs := [] }
    s.Takes hdr owner ∧ passes (s.checkItem owner { index := 0x7010, sub := 14, data := [1] }) = true :=
  ⟨takes (by decide +kernel), by decide +kernel⟩

/-- A new owner key from a session opened with it; a raised epoch; a site mask; an owner's release. -/
theorem witness_StoredWrites :
    let x := { owner with enrolKey := some 5 }
    (sM x).Takes hdr x ∧ (sM owner).Takes hdr owner
    ∧ passes ((sM x).checkItem x { index := 0x9030, sub := 2, data := toBytes 64 5 }) = true
    ∧ passes ((sM owner).checkItem owner { index := 0x9030, sub := 4, data := [1] }) = true
    ∧ passes ((sM owner).checkItem owner { index := 0x9030, sub := 3, data := toBytes 4 1 }) = true
    ∧ passes ({ sM owner with ctxs := [] }.checkItem owner { index := 0x5100, sub := 1, data := toBytes 2 3 }) = true
    ∧ passes ({ sM owner with rollA := { (sM owner).rollA with trial := 1 } }.checkItem owner
        { index := 0x9012, sub := 0, data := [1] }) = true :=
  ⟨takes (by decide +kernel), takes (by decide +kernel), by decide +kernel⟩

/-- The last segment of an image; those of a credential and a seal key end in checks of signatures, which are open. -/
theorem witness_StoredWrites_domains :
    let x (key : Nat) := { owner with seg := some { key := key, data := [1, 2] } }
    (sM (x (entryKey 0x9010 0))).Takes hdr (x (entryKey 0x9010 0))
    ∧ (∃ r, (sM (x (entryKey 0x9010 0))).reachEntry (x (entryKey 0x9010 0)) 0x9010 0 .write = .ok r ∧ r.ty = .domain)
    ∧ (∃ r, (sM (x (entryKey 0x9030 5))).reachEntry (x (entryKey 0x9030 5)) 0x9030 5 .write = .ok r ∧ r.ty = .domain)
    ∧ (∃ r, (sM (x (entryKey 0x9040 0))).reachEntry (x (entryKey 0x9040 0)) 0x9040 0 .write = .ok r ∧ r.ty = .domain)
    ∧ (domainLimit 0x9010).2 = false ∧ (2 : BitVec 31) ≠ 0 ∧ ([1, 2] : List Byte).length = (2 : BitVec 31).toNat :=
  ⟨takes (by decide +kernel), ⟨_, rfl, by decide +kernel⟩, ⟨_, rfl, by decide +kernel⟩, ⟨_, rfl, by decide +kernel⟩,
    by decide +kernel⟩

/-- A package to start; and one whose program has a poisoned word. -/
theorem witness_PackageStarts :
    let loaded (s : State) : State × Option (Nat × W64) := (s.ctx 0).cores.zipIdx.foldl (fun a y =>
      let l := a.1.loadPkg 0 y.2 y.1 (!(s.ctx 0).hasState) pkg1
      (l.1, match a.2 with
        | none => l.2.map (fun b => (y.1, b))
        | some f => some f)) (s, none)
    let s := { s0 with ctxs := [(0, { ctx0 with state := 2, queue := [pkg1] })] }
    (s.ctx 0).queue = [pkg1] ∧ (s.ctx 0).granted = true ∧ (s.ctx 0).state = 2 ∧ s.allRun (s.ctx 0) = true
    ∧ (s.ctx 0).running = none ∧ s.memErr = [] ∧ (s.ctx 0).cores.Nodup ∧ (loaded s).2 = none
    ∧ (loaded { s with memErr := [(0x400, { soft := [0, 1, 2, 3], hard := [] })] }).2.isSome = true := by decide +kernel

theorem witness_PackageEnds :
    let k := { core0 with hold := .halted }
    let s := { running k { k with rank := 1 } with ctxs := [(0, { ctx0 with running := some pkg1 })] }
    (s.ctx 0).running = some pkg1 ∧ (s.ctx 0).state = 3 ∧ (s.ctx 0).slotFree 0 = true
      ∧ (s.ctx 0).cores.all s.closed = true
    ∧ (s.ctx 0).queue = [] ∧ pkg1.sealed = false ∧ (s.readView (ioFor 0) pkg1.resAddr pkg1.resBytes).poison = none
    ∧ (s.readView (ioFor 0) pkg1.resAddr 0).poison = none := by decide +kernel

/-- A slice with a rival, one without, and a barrier that waits for its slot. -/
theorem witness_SlicesAndHolds :
    let c := { ctx0 with preemptible := true }
    let d := { ctx0 with state := 2, granted := false, queue := [pkg1], preemptible := true, hasState := false }
    let s := { s0 with ctxs := [(0, c), (1, d)], dict := [(entryKey 0x5100 1, 1), (entryKey 0x5100 5, 1000)] }
    let rival (s : State) : Bool :=
      (s.ctxsOf 0).any (fun y => y.1 != 0 && y.2.waits && y.2.prio == (s.ctx 0).prio && y.2.overlaps (s.ctx 0))
    let k := { core0 with hold := .halted }
    let t := { running k { k with rank := 1 } with
      ctxs := [(0, { ctx0 with running := some pkg1, slots := [(0, slot1)] })] }
    ((s.ctx 0).state = 3 ∧ (s.ctx 0).preemptible = true ∧ (s.ctx 0).hasState = true ∧ (s.ctx 0).images = []
      ∧ s.entry 0x5100 5 ≠ 0 ∧ rival s = true)
    ∧ rival s0 = false
    ∧ (t.ctx 0).running = some pkg1 ∧ (t.ctx 0).slotFree 0 = false ∧ (t.ctx 0).cores.all t.closed = true := by
  decide +kernel

theorem witness_SavesAndRestores :
    let s := { s0 with ctxs := [(0, { ctx0 with state := 4 })] }
    let t := { s0 with ctxs := [(0, { ctx0 with state := 6, images := [core0, core0] })] }
    ((s.ctx 0).state = 4 ∧ (s.ctx 0).cores.all s.savable = true ∧ (s.ctx 0).moveTo = none ∧ (s.ctx 0).cores.Nodup
      ∧ (s.ctx 0).queue = [] ∧ (s.ctx 0).running = none)
    ∧ (t.ctx 0).state = 6 ∧ (t.ctx 0).moveTo = none ∧ t.memErr = [] ∧ (t.ctx 0).images.length = (t.ctx 0).cores.length
    ∧ ∀ k ∈ (t.ctx 0).images, k.quiet = true := by
  decide +kernel

/-- A fault of core 0 alone; faults of both cores. -/
theorem witness_FaultsEndContexts :
    let f : PendingFault := { code := 9, detail := 4, slot := 2, bundle := 0, more := 0 }
    let s := running { core0 with fault := some f } { core0 with rank := 1 }
    let t := running { core0 with fault := some f } { core0 with rank := 1, fault := some f }
    ((s.core 0).fault = some f ∧ (s.core 0).ctx = some 0 ∧ (∀ m ∈ (s.ctx 0).cores, m ≠ 0 → (s.core m).fault = none)
      ∧ rising s.ctxs = true ∧ (s.ctx 0).state ≠ 0 ∧ 9 ≠ faultUncorrectable ∧ 0 < 4096)
    ∧ (t.core 0).fault = some f ∧ (t.core 1).fault = some f ∧ (t.core 0).ctx = some 0 ∧ (t.core 1).ctx = some 0
    ∧ 0 ∈ (t.ctx 0).cores ∧ 1 ∈ (t.ctx 0).cores ∧ (t.ctx 0).cores.Nodup
    ∧ ∀ m ∈ (t.ctx 0).cores, m ≠ 0 → m ≠ 1 → (t.core m).fault = none := by decide +kernel

/-- Two cores at a barrier whose next bundles fault: both record it (R331). -/
theorem test_faults_of_one_cycle :
    let b : List Slot := [{ num := 0, pred := 0, pneg := false, op := .ld { sf with srcA := 0, imm := 4 } }]
    let k : CoreState := { core0 with hold := .barrier false, issueQ := [b] }
    let t := after (.barrierRelease 0 false 0) (running k { k with rank := 1 })
    t.entry 0x4003 1 = 9 ∧ t.entry 0x4013 1 = 9 ∧ (t.ctx 0).lastFault = 9 ∧ (t.ctx 0).state = 0 := by decide +kernel

theorem witness_PolderResetCloses : rising s0.ctxs = true ∧ 0 < 16 ∧ s0.entry 0x3010 0 ≤ 16
  ∧ 0 ∈ sitesOf (s0.polderMask 0)
    ∧ 255 < 256 := by decide +kernel

/-- The last site that joins, and one of two. -/
theorem witness_SiteFilled :
    let s (m : W16) := { s0 with polders := [(0, { Polder.reset with joining := m })] }
    (s 1).polderOfSite 0 = some 0 ∧ ((s 1).polder 0).joining.getLsbD 0 = true
      ∧ ((s 1).polder 0).joining = (1 : W16) <<< 0
    ∧ ((s 3).polder 0).joining.getLsbD 0 = true ∧ ((s 3).polder 0).joining ≠ (1 : W16) <<< 0 := by decide +kernel

theorem hears {s : State} {m : MgmtPath} (e : s.alive && !s.inbandShut && s.nvRun.isNone && s.nvQ.isEmpty = true) : s.Hears m := by
  simp only [Bool.and_eq_true, List.isEmpty_iff, Option.isNone_iff_eq_none, Bool.not_eq_true', decide_eq_true_eq] at e
  exact { alive := e.1.1.1, reached := fun _ => e.1.1.2, stored := e.1.2, queued := e.2 }

/-- Port 0 is up; these handshakes are open. -/
def sHs (hs : List Handshake) : State :=
  { s0 with ports := [(0, { Port.reset with linkState := 3 })], handshakes := hs, kept := [(entryKey 0x9030 2, 5)] }

/-- No handshake yet, and one that has the fragment; a full table of sessions; a frame's handshake. -/
theorem witness_HandshakesOpen :
    let h : HostHdr := { hh with assoc := 0, length := 5 }
    let x (p : HsPath) (n : W32) : Handshake := { hs1 p n with h1 := [fragPart half], h1Total := 2, signed := false }
    let s := sHs []
    let t := sHs [x .tsusen 0x8000, x .host 0x80000000, x (.port 0 7) 1, hs1 (.port 0 7) 2]
    let full : State := { s with sessions := (List.range 16).map (fun i => (i, owner)), assocs := List.replicate 16 assoc1 }
    (s.Hears .mgmt ∧ t.Hears .mgmt ∧ full.Hears .mgmt) ∧ s.mode ≠ 3
    ∧ s.handshakes.find? (fun y => y.path == .tsusen && y.mgmt == .mgmt && y.h1Total == 2 && y.h1.contains (fragPart half)) = none
    ∧ s.sessions.length < 16 ∧ 16 ≤ full.sessions.length
    ∧ t.handshakes.find? (fun y => y.path == .tsusen && y.mgmt == .mgmt && y.h1Total == 2 && y.h1.contains (fragPart half))
      = some (x .tsusen 0x8000)
    ∧ (0x8000 : W16) ≠ 0 ∧ t.handshake .tsusen 0x8000 = some (x .tsusen 0x8000)
    ∧ s.hosting = true ∧ h.length.toNat = 4 + half.bytes.length ∧ h.assoc = 0 ∧ s.assocs.length < 16
    ∧ 16 ≤ full.assocs.length
    ∧ t.handshake .host 0x80000000 = some (x .host 0x80000000)
    ∧ s.pathUp (.port 0 7) = true ∧ s.handshake (.port 0 7) 1 = none
    ∧ t.handshake (.port 0 7) 1 = some (x (.port 0 7) 1)
    ∧ t.handshake (.port 0 7) 2 = some (hs1 (.port 0 7) 2) ∧ (hs1 (.port 0 7) 2).signed = true :=
  ⟨⟨hears (by decide +kernel), hears (by decide +kernel), hears (by decide +kernel)⟩, by decide +kernel⟩

/-- One of two halves; a fragment of another total; a whole H1 that is none. That one is accepted is open, since its
signature and digests are. -/
theorem witness_HandshakesOpen_fragments :
    let x : Handshake := Handshake.begin .host .inband 0x80000000 2
    let y : Handshake := { Handshake.begin .host .inband 0x80000000 1 with h1 := [(0, [7])], cut := 1 }
    x.queued = false ∧ fragFits half x.h1Total = true ∧ wholeOf 2 [fragPart half] = none ∧ fragFits half 3 = false
    ∧ { x with queued := true }.queued = true ∧ wholeOf y.h1Total y.h1 = some [7]
    ∧ (s0.putHandshake y).h1Accepted y = false := by decide +kernel

theorem witness_HandshakesProceed :
    let u (p : HsPath) (n : W32) : Handshake := { hs1 p n with signed := false }
    let t : State := { sHs [hs1 .tsusen 0x8000, hs1 .host 0x80000000, hs1 (.port 0 7) 1, u .tsusen 0x8001, u .host 0x80000001,
        u (.port 0 7) 2] with signQ := [(.host, 0x80000001), (.port 0 7, 2)] }
    t.Hears .mgmt ∧ t.mode ≠ 3 ∧ t.hosting = true ∧ t.pathUp (.port 0 7) = true
    ∧ t.handshake .tsusen 0x8000 = some (hs1 .tsusen 0x8000) ∧ t.handshake .tsusen 0x8001 = some (u .tsusen 0x8001)
    ∧ t.handshake .host 0x80000000 = some (hs1 .host 0x80000000)
    ∧ t.handshake .host 0x80000001 = some (u .host 0x80000001)
    ∧ t.handshake (.port 0 7) 1 = some (hs1 (.port 0 7) 1) ∧ t.handshake (.port 0 7) 2 = some (u (.port 0 7) 2)
    ∧ (hs1 .host 0).signed = true ∧ t.signQ = [(.host, 0x80000001), (.port 0 7, 2)] ∧ (sHs []).signQ = [] :=
  ⟨hears (by decide +kernel), by decide +kernel⟩

/-- Everything that a handshake's end asks but the verification of H3, which is open where H3 is long enough. -/
theorem witness_HandshakesComplete :
    let f : Fragment := { total := 1, offset := 0, bytes := [7] }
    let x (p : HsPath) (n : W32) : Handshake := { hs1 p n with lo := 1, hi := 1 }
    let d : Channel := { num := 0, peer := 8, keys := keys0, highest := 0, seen := [], oldKey := false, rekeying := true }
    let s := sHs [x .tsusen 0x8000, x .host 0x80000000, x (.port 0 7) 1, x (.fabric 2) 1]
    let t := { s with ports := [(0, { Port.reset with linkState := 4, channels := [d] })] }
    (x .host 0).acked = none ∧ (x .host 0).signed = true ∧ (x .host 0).h3 = [] ∧ fragFits f 1 = true
    ∧ wholeOf 1 [fragPart f] = some [7] ∧ (s.putHandshake (x .host 0x80000000)).h3Ok (x .host 0x80000000) [7] = false
    ∧ (s.alive = true ∧ s.inbandShut = false ∧ s.nvRun = none ∧ s.nvQ = [] ∧ s.mode ≠ 3
      ∧ s.handshake .tsusen 0x8000 = some (x .tsusen 0x8000)
      ∧ negotiate 1 1 (s.entry 0x1103 1) (s.entry 0x1103 2) = some 1
      ∧ (List.range 16).find? (fun i => (s.session i).isNone) = some 0)
    ∧ (s.hosting = true ∧ { hh with length := 5 }.length.toNat = 4 + f.bytes.length
      ∧ s.handshake .host 0x80000000 = some (x .host 0x80000000)
      ∧ negotiate 1 1 (max 0 (s.entry 0x1101 1)) (s.entry 0x1101 2) = some 1
      ∧ ((List.range 16).map (· + 1)).find? (fun i => !s.assocs.any (fun a => a.num.toNat == i)) = some 1)
    ∧ (3 ≤ (s.port 0).linkState ∧ s.handshake (.port 0 7) 1 = some (x (.port 0 7) 1)
      ∧ (s.port 0).channels.find? (fun d => d.peer == 7) = none
      ∧ (List.range 256).find? (fun i => !(s.port 0).channels.any (fun d => d.num == i)) = some 0
      ∧ (t.port 0).channels.find? (fun d => d.peer == 8) = some d)
    ∧ s.pathUp (.fabric 2) = true ∧ s.handshake (.fabric 2) 1 = some (x (.fabric 2) 1) := by
  decide +kernel

/-- A context opens on site 0 without a save area; the same on a site that the polder lacks does not. -/
theorem witness_ContextsOpenAndClose :
    let s := sH Ctx.closed
    let h : HostHdr := { hh with length := 32 }
    let pl (mask : Nat) : List Byte := toBytes 2 0 ++ toBytes 2 mask ++ zeros 4 ++ toBytes 8 notPreemptible ++ [1, 1, 1, 1] ++ zeros 12
    s.Serves h assoc1 0 32 ∧ (pl 1).length = 32 ∧ fieldAt (pl 1) 0 2 = 0 ∧ fieldAt (pl 1) 4 1 ≤ 7
    ∧ s.openReason 0 (fieldAt (pl 1) 2 2) (fieldAt (pl 1) 8 8) = none
    ∧ negotiate (fieldAt (pl 1) 16 1) (fieldAt (pl 1) 17 1) (s.entry 0x1100 1) (s.entry 0x1100 2) = some 1
    ∧ negotiate (fieldAt (pl 1) 18 1) (fieldAt (pl 1) 19 1) (s.entry 0x1104 1) (s.entry 0x1104 2) = some 1
    ∧ s.openReason 0 (fieldAt (pl 2) 2 2) (fieldAt (pl 2) 8 8) = some 3
    ∧ ¬ ((s.ctx 0).state ≠ 0 ∧ (s.ctx 0).openedBy = assoc1.num ∧ (s.ctx 0).openPayload = pl 2) :=
  ⟨serves (by decide +kernel), by decide +kernel⟩

/-- An open context closes, and joins a group of its own; the request that opened it comes again; its association closes. -/
theorem witness_ContextsOpenAndClose_joins :
    let s := { sH { ctx0 with openedBy := 1, openPayload := zeros 32 } with dict := [(entryKey 0x6001 1, 7)] }
    s.Serves hh assoc1 0 0 ∧ s.Serves { hh with length := 14 } assoc1 0 (12 + 2 * [s.deviceId].length)
    ∧ s.Serves { hh with length := 32 } assoc1 0 32 ∧ hh.context.toNat = 0 ∧ (s.ctx 0).state ≠ 0 ∧ s.deviceId ≠ 0xFFFF
    ∧ s.deviceId ∈ [s.deviceId] ∧ (s.ctx 0).openedBy = assoc1.num ∧ (s.ctx 0).openPayload = zeros 32
    ∧ s.hosting = true ∧ s.assocs.find? (fun b => b.num == hh.assoc) = some assoc1 ∧ hh.ipv6 = false
    ∧ hh.edition.toNat = assoc1.edition ∧ hh.length = 0 :=
  ⟨serves (by decide +kernel), serves (by decide +kernel), serves (by decide +kernel), by decide +kernel⟩

theorem witness_PackagesArrive :
    let s := sH { ctx0 with state := 1 }
    let h := { hh with length := 128 }
    s.Serves h assoc1 0 128 ∧ pkgBytes.length = 128 ∧ h.offset.toNat % 256 = 0 ∧ h.flags.getLsbD 0 = true
    ∧ h.item.toNat = (s.ctx 0).nextPost ∧ (s.ctx 0).state ≠ 0 ∧ (s.ctx 0).asm = [] ∧ (s.ctx 0).queue.length < 64
    ∧ s.pkgValid 0 0 (pkgOf pkgBytes) = true ∧ (pkgOf pkgBytes).length = 128
    ∧ s.touchesGuarded 0 (pkgOf pkgBytes).dest (pkgOf pkgBytes).length = false ∧ (pkgOf pkgBytes).sealed = false
    ∧ (pkgOf pkgBytes).e2e = false ∧ declTable (s.ctx 0).decls (pkgOf pkgBytes) pkgBytes = some [] :=
  ⟨serves (by decide +kernel), by decide +kernel⟩

theorem witness_PackagesArrive_whole : segmentsOk pkgBytes pkgBytes = true := by
  simp [segmentsOk]

/-- The ordinals behind and ahead of the window at 2, one damaged segment, and an assembly without all its bytes. -/
theorem witness_PackagesArrive_others :
    let o : Assembly := { ordinal := 3, parts := [], ready := none, replies := [] }
    let c := { ctx0 with state := 1, nextPost := 2, asm := [o] }
    let h : HostHdr := { hh with length := 1 }
    (sH c).Serves h assoc1 0 1 ∧ h.flags.getLsbD 0 = true ∧ h.offset.toNat % 256 = 0
    ∧ (1 < c.nextPost ∧ c.nextPost + 4 ≤ 6 ∧ c.nextPost ≤ 2 ∧ 5 < c.nextPost + 4)
    ∧ segmentsOk [1] [2] = false ∧ c.assembly 3 = some o ∧ o.ready = none :=
  ⟨serves (by decide +kernel), by decide +kernel⟩

/-- The last bytes of a record and of a result, poisoned or not; another tag; a slot freed before. -/
theorem witness_Results :
    let s := sH { ctx0 with slots := [(0, slot1)] }
    let h := { hh with item := 1, offset := 48, length := 16 }
    let v (s : State) := s.readView (ioFor 0) (slot1.resAddr + BitVec.ofNat 64 48) 16
    let t := sH { ctx0 with slots := [(0, { slot1 with released := true })] }
    s.Serves h assoc1 0 16 ∧ s.Serves hh assoc1 0 0 ∧ t.Serves hh assoc1 0 0 ∧ h.item.toNat % 2 ^ 32 = slot1.tag
    ∧ h.offset.toNat + h.length.toNat ≤ 64 ∧ tblFind (s.ctx 0).slots 0 = some slot1 ∧ slot1.record.isSome = true
    ∧ slot1.released = false ∧ 64 < 112 + 16 ∧ 112 + 16 ≤ 64 + slot1.resBytes ∧ (v s).poison = none
    ∧ (v { s with memErr := [(0xC00, { soft := [0, 1, 2, 3], hard := [] })] }).poison ≠ none
    ∧ slot1.tag ≠ 2 ∧ (tblFind (t.ctx 0).slots 0).map (·.released) = some true :=
  ⟨serves (by decide +kernel), serves (by decide +kernel), serves (by decide +kernel), by decide +kernel⟩

/-- Port 4 negotiating in the modes it has, up with a channel, and waiting to try again. -/
theorem witness_LinksChange :
    let s (x : Port) := { s0 with ports := [(4, x)] }
    let c : Channel := { num := 255, peer := 7, keys := keys0, highest := 0, seen := [], oldKey := false, rekeying := false }
    let up := { Port.reset with linkState := 3, channels := [c] }
    ((s { Port.reset with linkState := 1 }).port 4).linkState = 1
    ∧ modesOf ((s { Port.reset with linkState := 1 }).entry (portIndex 4 0) 3 &&& 255) ≠ []
    ∧ 3 ≤ ((s up).port 4).linkState ∧ ((s up).port 4).channels.any (fun c => c.num == 255) = true
    ∧ ((s { Port.reset with linkState := 0, retryWait := true }).port 4).retryWait = true ∧ s0.supply.vaon = true := by
  decide +kernel

/-- The next packet number, the oldest that the window still takes, one behind it and one that was seen; the first frame
under a new key. -/
theorem witness_FramesReceived :
    let c (old : Bool) : Channel :=
      { num := 1, peer := 7, keys := keys0, highest := 100, seen := [100], oldKey := old, rekeying := false }
    let s (old : Bool) : State :=
      { s0 with ports := [(4, { Port.reset with linkState := 4, channels := [c old] })], dict := [(entryKey 0x6002 1, 64)] }
    3 ≤ ((s false).port 4).linkState ∧ (9216 : Nat) ≤ 9216 ∧ 9216 < 9217
    ∧ ((s false).port 4).channels.find? (fun y => y.num == 1) = some (c false)
    ∧ ((s true).port 4).channels.find? (fun y => y.num == 1) = some (c true) ∧ (c true).oldKey = true
    ∧ ((s false).port 4).channels.find? (fun y => y.num == 2) = none
    ∧ (c false).highest < 101 ∧ (100 : Nat) ∈ (c false).seen ∧ 36 ≤ (c false).highest
    ∧ (c false).highest ≤ 36 + (s false).entry 0x6002 1
    ∧ 36 ∉ (c false).seen ∧ 35 + (s false).entry 0x6002 1 < (c false).highest := by decide +kernel

/-- 85, 84 and 82 °C. -/
theorem witness_DoubledRefresh :
    s0.memPower 0 ≠ 0 ∧ tblFind s0.kept (entryKey 0x3300 4) = none
    ∧ atLeast 0x42AA0000 85 = true ∧ atLeast 0x42AA0000 105 = false
    ∧ atLeast 0x42A80000 85 = false ∧ below 0x42A80000 83 = false ∧ below 0x42A40000 83 = true := by decide +kernel

/-- A reading of 2,000 W over a limit of 1,000 W, every junction at 40 °C. -/
theorem witness_Upkeep :
    let r : PowerReading :=
      { power := 0x44FA0000, voltage := 0, current := 0, junction := List.replicate 16 0x42200000,
        sitePower := List.replicate 16 0, vcore := List.replicate 16 0 }
    let s := { s0 with dict := [(entryKey 0x5100 1, 1), (entryKey 0x2000 1, 1000), (entryKey (siteIndex 0) 1, 3), (entryKey (siteIndex 0) 5, 0)] }
    s.memPower 0 ≠ 0 ∧ s.alive = true ∧ tblFind s.kept (entryKey 0x2000 5) = none
      ∧ r.junction.all (fun x => !atLeast x 115) = true
    ∧ (Fv.ofInt (s.entry 0x2000 1) 0).lt (fv32 r.power) = true ∧ s.siteOn 0 = true ∧ s.entry (siteIndex 0) 1 < 16 := by
  decide +kernel

/-- A core from IDLE and one from NAP in a window, a site to start, one that starts, a core to nap, a site to sleep. -/
theorem witness_WakeUps :
    let s (p : Nat) (w : Bool) (q : List Nat) : State :=
      { running { core0 with power := p, waking := w } core0 with wakeQ := q }
    let starts := { s0 with startQ := [0, 1], dict := [(entryKey (siteIndex 15) 5, 1)], part := { s0.part with disabled := [] } }
    let naps := { running { core0 with power := 2 } { core0 with power := 2 } with
      ctxs := [], cores := (List.range 9).map (fun i => (i, { core0 with power := 2 })), dict := [(entryKey (siteIndex 0) 5, 0)] }
    let late := { running { core0 with power := 1 } core0 with ctxs := [(0, { ctx0 with state := 2 })] }
    ((s 1 false [0]).wakeQ = [0] ∧ (s 1 false [0]).wakeHeld = [] ∧ ((s 1 false [0]).core 0).power = 1
      ∧ rising (s 1 false [0]).ctxs = true ∧ (∀ c ∈ (s 1 false [0]).ctxs, c.2.state ≠ 5))
    ∧ ((s 2 false [0]).core 0).power = 2 ∧ ((s 2 true []).core 0).waking = true
    ∧ starts.startQ = [0, 1] ∧ starts.entry (siteIndex 15) 5 = 1
    ∧ (((s 1 false []).core 0).power = 1 ∧ (s 1 false []).coreEnabled 0 = true ∧ 0 ∉ (s 1 false []).wakeQ
      ∧ 0 ∉ (s 1 false []).wakeHeld)
    ∧ (naps.siteOn 0 = true ∧ ∀ c ∈ naps.coresOf (2 ^ 0), (naps.core c).power = 2 ∧ (naps.core c).waking = false)
    ∧ (∀ c ∈ naps.ctxs, c.2.state = 0 ∨ c.2.sites.getLsbD 0 = false)
    ∧ (late.ctx 0).granted = true ∧ (late.ctx 0).state = 2 ∧ late.allRun (late.ctx 0) = false := by decide +kernel

/-- A site with one enabled core. -/
theorem witness_WakeUps_settles :
    let s := { s0 with part := { s0.part with disabled := (List.range 8).map (fun i => i + 1) }, dict := [(entryKey (siteIndex 0) 5, 1)] }
    s.entry (siteIndex 0) 5 = 1 ∧ s.coresOf (2 ^ 0) = [0] ∧ s.wakeQ = [] ∧ s.wakeHeld = [] := by decide +kernel

theorem witness_SupplyAndReset :
    let off := { s0 with supply := { supplyOn with vaon := false } }
    let low := { s0 with supply := { supplyOn with pwrok := false } }
    s0.supply.vaon = true ∧ s0.nvQ = [] ∧ { s0 with nvQ := [batch1] }.nvQ ≠ [] ∧ s0.mgmtQ = []
      ∧ low.supply.vaon = true ∧ low.supply.pwrok = false ∧ off.supply.vaon = false ∧ s0.nvRun = none
    ∧ { s0 with nvRun := some batch1 }.nvRun = some batch1 := by decide

/-- Batches that wait and run; a hold-up reading that suffices, and one that shows no charge. -/
theorem witness_BatchesRun :
    let s := { s0 with nvQ := [batch1] }
    let full : HoldReading := { v0 := 48000000, v1 := 47999000, t := 100000 }
    let empty : HoldReading := { v0 := 5000000, v1 := 4999000, t := 100000 }
    s.nvQ = [batch1] ∧ s.nvRun = none ∧ s.supply.vaon = true ∧ s.supply.inputLost = false ∧ s.mgmtQ = []
    ∧ readingOk full = true ∧ readingOk empty = true
    ∧ freeboardOk full batch1.bytes (s.entry 0x9070 3) = true
    ∧ freeboardOk empty batch1.bytes (s.entry 0x9070 3) = false
    ∧ s.supply.resetAfterBatch = false ∧ { s0 with nvRun := some batch1 }.nvRun = some batch1 ∧ s0.nvQ = [] := by
  decide +kernel

/-- The supply is up, or not. Whether the factory record and an image verify is open, as their signatures are. -/
theorem witness_BootRuns :
    let s := { s0 with supply := { supplyOn with booted := false } }
    (s.supply.vaon = true ∧ s.supply.pwrok = true ∧ s.supply.rails = true ∧ s.supply.booted = false
      ∧ s.supply.tripped = false) ∧ { s with attest := some 7 }.attest = some 7
      ∧ ¬ s0.supply.booted = false := by decide +kernel

/-- A copy of the rollback record that its MAC and its digest cover verifies, with no image on trial; the kept entries of
two copies without an entry are none. -/
theorem witness_BootRuns_record : ∃ a : Rollback,
    ({ s0 with rollA := a } : State).readStore.rollA.ok = true ∧ a.trial = 0xFF
    ∧ tblFind ({ s0 with rollA := a } : State).readStore.kept (entryKey 0x9000 1) = none := by
  let x : Rollback := { s0.rollA with trial := 0xFF }
  refine ⟨{ x with mac := Config.hmac (State.deviceKey
    { s0 with secret := if s0.part.factoryOk then Config.deviceSecret s0.part.serial s0.part.helper else 0 } "IK2 rollback") x.bytes
                   digest := Config.sha256 x.bytes }, ?_, rfl, ?_⟩
  · simp [State.readStore, State.loadKept, State.rollVerifies, Rollback.bytes, State.deviceKey]
  · simp only [State.readStore, State.loadKept, State.storedEntries, State.keptCopy, State.ownerCopy]
    split <;> split <;> split <;> rfl

theorem witness_BootRuns_recovers : imageOk 0 [] = false := by
  have h : (([] : List Byte).take 4 == ascii "IK2F") = false := by decide +kernel
  simp only [imageOk, h, Bool.false_and]

theorem witness_WordsKeep : (List.replicate 64 (7 : Byte)).length = 64 ∧ (s0.wordError 5).hard = [] := by decide +kernel

theorem witness_StepKeepsCanonical : s0.canonical = true := by decide +kernel

theorem witness_Steps : ∃ t, step { s0 with pending := [.inputLow] } = .next t ∧ s0.canonical = true :=
  ⟨_, rfl, by decide +kernel⟩

end Sys2Proof.Tests
end

section
/-! ### The factory record over a step

A command is one operation of the state, and `Laws/Keeps.lean` and the files after it say of every operation that it keeps
the factory record; here the commands and the step follow. -/

namespace Sys2Proof.Machine

theorem State.setAlertN_keeps {s₀ s : State} (h : Keeps s₀ s) (x : Bool) : Keeps s₀ { s with alertN := x } :=
  Keeps.of_eq (u := s) rfl rfl rfl rfl rfl rfl h

theorem State.setPending_keeps {s₀ s : State} (h : Keeps s₀ s) (q : List Instr) : Keeps s₀ { s with pending := q } :=
  Keeps.of_eq (u := s) rfl rfl rfl rfl rfl rfl h

/-- Every command is carried out, and what it leaves has kept what the state before it had kept. -/
theorem exec_keeps {s₀ s : State} (h : Keeps s₀ s) (i : Instr) : ∃ t, exec i s = .next t ∧ Keeps s₀ t := by
  cases i with
  -- A slot of a bundle is staged at its core.
  | sAdd | sSub | sMul | sAnd | sOr | sXor | sShl | sShr | sSar | sMin | sMax | sCmpEq | sCmpNe | sCmpLt
  | sCmpLtu | sCmpLe | sCmpLeu | sLd | sSt | sSys | aLoop | aLoad | aStore | aWait | mStream | mStreamAttn
  | mDrain | mDrainAttn | mWait | mGstream | vFma | vAdd | vMul | vMax | vMin | vExp2 | vLog2 | vCvt | vLd | vSt
  | vSel | vCmp | vRsumSum | vRsumMax | vRsumStat | vRsumStat0 | vRsumCombine | vRsumFinish | vWinMac | vWinMax
  | vWinSum | sluiceClear | sluiceAccum | sluiceDecide | sluiceSetup | rngLoadstate | rngBits | rngUniform
  | rngNormal | rngDrop | rngXset | rngDset | xJmp | xBr | xCall | xRet | xBar | xFetchadd | xCset | xPut | xRecv
  | xFence | xIload | xWait | xHalt | seqOpen | seqFork | seqClose | seqSetlen | seqQuery | aKvload | aKvappend
  | aSample | updateNorm | updateApply | updateScale | fabricPut | fabricAllreduce | fabricReduce
  | fabricBroadcast | mediaOpen | mediaFrame | mediaClose =>
    exact ⟨_, rfl, State.stage_keeps h ..⟩
  -- A request is served under its session.
  | read | write | segRead | segWrite | subscribe | recordRead | batchWrite | tsusenClose | flagsClear
  | contextPreempt | contextClose | contextMove | polderReset | polderSites | snapshot | histClear | cacheInit
  | fwImage | fwActivate | fwCommit | ownerKey | ownerRelease | credentialEpoch | fabricCredential | sealInstall
  | sealClear | attestNonce =>
    exact ⟨_, rfl, State.request_keeps h ..⟩
  -- Every other command is an operation of its own.
  | discover | tsusenOpen | openFinish => exact ⟨_, rfl, State.takeMessage_keeps h ..⟩
  | sessionIdleExpiry => exact ⟨_, rfl, State.endSession_keeps h ..⟩
  | segWriteGapExpiry => exact ⟨_, rfl, State.setSeg_keeps h ..⟩
  | eventPost => exact ⟨_, rfl, State.postAll_keeps h⟩
  | aLoadDone | aStoreDone | mStreamDone | mDrainDone | iloadDone => exact ⟨_, rfl, State.finish_keeps h ..⟩
  | sluicePostServed => exact ⟨_, rfl, State.servePost_keeps h ..⟩
  | barrierRelease => exact ⟨_, rfl, State.releaseBarrier_keeps h ..⟩
  | counterServed => exact ⟨_, rfl, State.serveCounter_keeps h ..⟩
  | exchangeDone => exact ⟨_, rfl, State.exchange_keeps h ..⟩
  | seqServed => exact ⟨_, rfl, State.serveHome_keeps h ..⟩
  | kvPinRelease => exact ⟨_, rfl, State.endKvload_keeps h ..⟩
  | cowSwitch => exact ⟨_, rfl, State.switchCow_keeps h ..⟩
  | kvappendDone => exact ⟨_, rfl, State.endKvappend_keeps h ..⟩
  | sampleDone | updateDone => exact ⟨_, rfl, State.finishFirst_keeps h ..⟩
  | fabricDone => exact ⟨_, rfl, State.doneFabric_keeps h ..⟩
  | mediaJobStart => exact ⟨_, rfl, State.pumpAll_keeps (State.startMedia_keeps h ..)⟩
  | mediaJobDone => exact ⟨_, rfl, State.pumpAll_keeps (State.endMedia_keeps h ..)⟩
  | faultTaken => exact ⟨_, rfl, State.boundary_keeps h ..⟩
  | packageStart => exact ⟨_, rfl, State.startPackage_keeps h ..⟩
  | packageEnd => exact ⟨_, rfl, State.endPackage_keeps h ..⟩
  | sliceExpiry => exact ⟨_, rfl, State.sliceEnd_keeps h ..⟩
  | saveDone => exact ⟨_, rfl, State.saved_keeps h ..⟩
  | restoreDone => exact ⟨_, rfl, State.restored_keeps h ..⟩
  | siteZeroed => exact ⟨_, rfl, State.siteFilled_keeps h ..⟩
  | resultHoldExpiry => exact ⟨_, rfl, State.holdExpiry_keeps h ..⟩
  | assoc => exact ⟨_, rfl, State.assocRequest_keeps h ..⟩
  | assocFinish => exact ⟨_, rfl, State.assocFinish_keeps h ..⟩
  | assocClose => exact ⟨_, rfl, State.assocClose_keeps h ..⟩
  | assocIdleExpiry => exact ⟨_, rfl, State.assocIdle_keeps h ..⟩
  | ctxOpen => exact ⟨_, rfl, State.ctxOpen_keeps h ..⟩
  | ctxClose => exact ⟨_, rfl, State.ctxClose_keeps h ..⟩
  | submit => exact ⟨_, rfl, State.submit_keeps h ..⟩
  | pkgAssemblyExpiry => exact ⟨_, rfl, State.assemblyExpiry_keeps h ..⟩
  | get => exact ⟨_, rfl, State.getResult_keeps h ..⟩
  | release => exact ⟨_, rfl, State.releaseSlot_keeps h ..⟩
  | fabricJoin => exact ⟨_, rfl, State.fabricJoin_keeps h ..⟩
  | frameReceive => exact ⟨_, rfl, State.frameReceive_keeps h ..⟩
  | linkUp => exact ⟨_, rfl, State.linkUp_keeps h ..⟩
  | linkLost => exact ⟨_, rfl, State.linkLost_keeps h ..⟩
  | anRetryExpiry => exact ⟨_, rfl, State.anRetry_keeps h ..⟩
  | rekey => exact ⟨_, rfl, State.rekey_keeps h ..⟩
  | hsH1 => exact ⟨_, rfl, State.frameH1_keeps h ..⟩
  | hsH3 => exact ⟨_, rfl, State.frameH3_keeps h ..⟩
  | hsH2Request => exact ⟨_, rfl, State.frameH2_keeps h ..⟩
  | h2Signed => exact ⟨_, rfl, State.signNext_keeps h⟩
  | handshakeIdleExpiry => exact ⟨_, rfl, State.dropHandshake_keeps h ..⟩
  | fabricPacketRx => exact ⟨_, rfl, State.fabricArrives_keeps h ..⟩
  | fabricAbortRx => exact ⟨_, rfl, State.fabricAborts_keeps h ..⟩
  | fabricRtoExpiry => exact ⟨_, rfl, State.fabricRto_keeps h ..⟩
  | escapeWaitExpiry => exact ⟨_, rfl, State.fabricEscape_keeps h ..⟩
  | refresh => exact ⟨_, rfl, State.refreshChannel_keeps h ..⟩
  | tempReading => exact ⟨_, rfl, State.tempReading_keeps h ..⟩
  | powerEvaluation => exact ⟨_, rfl, State.evaluate_keeps h ..⟩
  | wakeWindow => exact ⟨_, rfl, State.wakeWindow_keeps h⟩
  | siteStart => exact ⟨_, rfl, State.siteStart_keeps h⟩
  | siteSettled => exact ⟨_, rfl, State.siteSettled_keeps h ..⟩
  | wakeTimeout => exact ⟨_, rfl, State.wakeTimeout_keeps h ..⟩
  | napEntry => exact ⟨_, rfl, State.napEntry_keeps h ..⟩
  | sleepEntry => exact ⟨_, rfl, State.sleepEntry_keeps h ..⟩
  | pwrok => exact ⟨_, rfl, State.powerGood_keeps h⟩
  | inputLoss => exact ⟨_, rfl, State.inputLoss_keeps h ..⟩
  | inputLow => exact ⟨_, rfl, State.inputLow_keeps h⟩
  | resetN => exact ⟨_, rfl, State.resetPin_keeps h⟩
  | boot => exact ⟨_, rfl, State.boot_keeps h⟩
  | nvBatch => exact ⟨_, rfl, State.startBatch_keeps h ..⟩
  | nvBatchDone => exact ⟨_, rfl, State.batchDone_keeps h⟩
  | attestSigned => exact ⟨_, rfl, State.attestSigned_keeps h⟩
  | alertNRelease => exact ⟨_, rfl, State.setAlertN_keeps h ..⟩
  | mgmtLinkChange => exact ⟨_, rfl, State.mgmtLink_keeps h ..⟩
  | plcaBeacon => exact ⟨_, rfl, State.beacon_keeps h⟩
  | negotiationFailed => exact ⟨_, rfl, State.negotiationFailed_keeps h ..⟩
  | napWakeDone => exact ⟨_, rfl, State.napWakeDone_keeps h ..⟩
  | vWinDone => exact ⟨_, rfl, State.endWin_keeps h ..⟩
  | vaonUp => exact ⟨_, rfl, State.vaonUp_keeps h⟩

/-- A step is an idle step, which leaves the state as it is, or the front command on the rest of the queue. -/
theorem step_keeps {s t : State} (ht : step s = .next t) : Keeps s t := by
  rcases hq : s.pending with _ | ⟨c, rest⟩
  · simp only [step, hq] at ht
    obtain rfl : s = t := Host.Outcome.next.inj ht
    exact Keeps.refl s
  · simp only [step, hq] at ht
    obtain ⟨u, hu, hk⟩ := exec_keeps (State.setPending_keeps (Keeps.refl s) rest) c
    obtain rfl : u = t := Host.Outcome.next.inj (hu.symm.trans ht)
    exact hk

/-- Settles O60: no operation of the state writes the factory record, and a step is at most one command (R1, R2, R396). -/
theorem stepKeepsPart : Obligations.StepKeepsPart := by
  unfold Obligations.StepKeepsPart
  intro s t ht
  exact (step_keeps ht).part

end Sys2Proof.Machine
end

section
/-! ### Requests of a session

What a request that is taken comes to, by what it asks: one lemma per service, and the statements of reads, writes,
segments, records, batches and the ends of sessions from them. -/

namespace Sys2Proof.Machine

section
variable {s : State} {h : Hdr} {x : Session} {q : Req}

theorem next_congr {a b : State} (e : a = b) : (.next a : Host.Outcome State Fault Refusal) = .next b := congrArg _ e

/-! ### What a response changes -/

/-- What is sent changes the record of outputs and the counters of the port it leaves by. -/
theorem State.send_frame (s : State) (m : Tx) : ∃ tx dict, s.send m = { s with tx := tx, dict := dict } := by
  unfold State.send
  split
  · split
    · unfold State.bump
      split <;> exact ⟨_, _, rfl⟩
    · exact ⟨_, s.dict, rfl⟩
  · exact ⟨_, s.dict, rfl⟩

/-- A session once a request of it has been answered: the response is kept, and the newest number moves on (R45). -/
def Session.keeping (x : Session) (seq : W16) (r : Resp) : Session :=
  { x with
    served := x.served + 1
    responses := ((seq, r) :: x.responses).take 16
    newest := some (x.newest.elim seq (fun n => if newer n seq then seq else n)) }

theorem State.answer_of_session (hs : s.session h.session.toNat = some x) (r : Resp) :
    s.answer h r = (s.setSession h.session.toNat (x.keeping h.seq r)).sayTo h r := by
  simp only [State.answer, hs, Session.keeping]
  cases hn : x.newest with
  | none => rfl
  | some n => by_cases late : newer n h.seq = true <;> simp [late]

/-- An answer changes the sessions, the record of outputs and the counters of the port it leaves by. -/
theorem State.answer_frame (s : State) (h : Hdr) (r : Resp) :
    ∃ sessions tx dict, s.answer h r = { s with sessions := sessions, tx := tx, dict := dict } := by
  cases hs : s.session h.session.toNat with
  | none =>
    obtain ⟨tx, dict, eq⟩ := s.send_frame _
    exact ⟨s.sessions, tx, dict, by simpa only [State.answer, hs, State.sayTo, State.sayOn] using eq⟩
  | some x =>
    rw [State.answer_of_session hs]
    obtain ⟨tx, dict, eq⟩ := (s.setSession h.session.toNat (x.keeping h.seq r)).send_frame _
    exact ⟨_, tx, dict, eq⟩

/-! ### A request that is served at once, and one that is repeated -/

theorem asks_of_otherType_none (b : Body) (ht : h.otherType = none) : asks h b = b := by simp [asks, ht]

theorem State.storing_of_idle (hr : s.nvRun = none) (hq : s.nvQ = []) : s.storing = false := by
  simp [State.storing, hr, hq]

theorem State.outstanding_of_idle (n : W16) (hr : s.nvRun = none) (hq : s.nvQ = []) (hm : s.mgmtQ = []) :
    s.outstanding n = [] := by
  simp [State.outstanding, hr, hq, hm]

theorem State.not_shut {path : MgmtPath} (hp : path = .inband → s.inbandShut = false) :
    ¬ (path = .inband ∧ s.inbandShut = true) := fun c => by simp [hp c.1] at c

/-- A request whose sequence number has a kept response is answered with it, whatever it asks (R45). -/
theorem State.request_repeat {r : W16 × Resp} (b : Body) (ha : s.alive = true)
    (hp : h.path = .inband → s.inbandShut = false) (hm : s.mode ≠ 3) (hs : s.session h.session.toNat = some x)
    (ht : h.tagOk = true) (hr : x.responses.find? (fun y => y.1 == h.seq) = some r) :
    s.request h b = s.sayTo h r.2 := by
  simp [State.request, ha, State.not_shut hp, hm, hs, ht, hr]

/-- The number of a request that is taken is new, or within the window of R45. -/
theorem State.Takes.not_stale (t : s.Takes h x) {n : W16} (hn : x.newest = some n) (old : newer n h.seq = false) :
    behind n h.seq ≤ 16 :=
  (t.window n hn).resolve_left (by simp [old])

/-- A request that is taken reaches its service with nothing before it. -/
theorem State.Takes.request_eq (t : s.Takes h x) (b : Body) : s.request h b = s.serve ⟨h, b⟩ := by
  have shut := State.not_shut t.reached
  have out := State.outstanding_of_idle h.session t.stored t.queued t.waiting
  have idle := State.storing_of_idle t.stored t.queued
  cases hn : x.newest with
  | none =>
    simp [State.request, asks_of_otherType_none b t.type, t.alive, shut, t.mode, t.session, t.authentic, t.fresh, hn, out,
      idle]
  | some n =>
    simp [State.request, asks_of_otherType_none b t.type, t.alive, shut, t.mode, t.session, t.authentic, t.fresh, hn, out,
      idle]
    exact fun old late => absurd (t.not_stale hn old) (Nat.not_le.2 late)

/-! ### Items and the batches they wait for -/

@[simp] theorem entryKey_div {i j : Nat} (hj : j < 256) : entryKey i j / 256 = i := by unfold entryKey; omega

@[simp] theorem entryKey_mod {i j : Nat} (hj : j < 256) : entryKey i j % 256 = j := by unfold entryKey; omega

theorem firstNv_single {i j : Nat} (hj : j < 256) (v : Nat) :
    firstNv [(entryKey i j, v)] = if ((entryRow i j).map EntryRow.needsNv).getD false then some 0 else none := by
  simp [firstNv, entryKey_div hj, entryKey_mod hj, List.findIdx?_cons]

/-- One item takes effect as an action or as a stored value, as its access right says (R22). -/
theorem State.applyItems_single (s : State) {i j : Nat} (hj : j < 256) (v : Nat) {r : EntryRow}
    (hr : entryRow i j = some r) :
    s.applyItems [(entryKey i j, v)] = if r.access = .wo then s.act i j v else s.store r i j v := by
  by_cases hw : r.access = .wo <;> simp [State.applyItems, entryKey_div hj, entryKey_mod hj, hr, hw]

/-- Items that the store carries wait as one batch of at most 64 KiB, whose size is open (R400). -/
theorem State.queueItems_eq (vs : List (Nat × Nat)) (o : Option Nat) (hq : s.nvQ = []) : ∃ n, 1 ≤ n ∧ n ≤ 65536 ∧
    s.queueItems q vs o = { s.usedFree with nvQ := [{ place := s.itemsPlace vs, bytes := n, work := .items q vs o }] } := by
  have hn : (s.freeVal 16).toNat < 65536 := (s.freeVal 16).isLt
  have one : max 1 (((s.freeVal 16).toNat + 1 + 65535) / 65536) = 1 := by omega
  refine ⟨(s.freeVal 16).toNat + 1, by omega, by omega, ?_⟩
  simp [State.queueItems, State.queueNv, one, hq]

theorem State.takeItems_now {vs : List (Nat × Nat)} (b : Bool) (hn : firstNv vs = none) :
    s.takeItems q vs b = (s.applyItems vs).reply q 0 [] := by simp [State.takeItems, hn, stOk]

theorem State.takeItems_later {vs : List (Nat × Nat)} {n : Nat} (b : Bool) (hn : firstNv vs = some n) :
    s.takeItems q vs b = s.queueItems q vs (if b then some n else none) := by simp [State.takeItems, hn]

/-! ### A `WRITE` -/

section
variable {i j v : Nat} {data : List Byte}

theorem State.checkItems_single_ok (hc : s.checkItem x ⟨i, j, data⟩ = .ok v) :
    s.checkItems x [] [⟨i, j, data⟩] = .ok [(entryKey i j, v)] := by
  simp [State.checkItems, State.applyItems, hc]

theorem State.checkItems_single_error {e : Nat} (hc : s.checkItem x ⟨i, j, data⟩ = .error e) :
    s.checkItems x [] [⟨i, j, data⟩] = .error (0, e) := by
  simp [State.checkItems, State.applyItems, hc]

/-- What a write that passes its checks comes to. -/
theorem State.Takes.write_ok (t : s.Takes h x) (hc : s.checkItem x ⟨i, j, data⟩ = .ok v) :
    s.request h (.write i j data) = s.takeItems ⟨h, .write i j data⟩ [(entryKey i j, v)] false := by
  rw [t.request_eq]
  simp only [State.serve, t.session, State.serveWrite, State.checkItems_single_ok hc]

theorem State.Takes.write_refused (t : s.Takes h x) {e : Nat} (hc : s.checkItem x ⟨i, j, data⟩ = .error e) :
    s.request h (.write i j data) = s.reply ⟨h, .write i j data⟩ e [] := by
  rw [t.request_eq]
  simp only [State.serve, t.session, State.serveWrite, State.checkItems_single_error hc]

/-- A volatile entry's write acts at once. -/
theorem State.Takes.write_now (t : s.Takes h x) (hj : j < 256) {r : EntryRow} (hr : entryRow i j = some r)
    (hc : s.checkItem x ⟨i, j, data⟩ = .ok v) (hn : r.needsNv = false) :
    s.request h (.write i j data)
      = (if r.access = .wo then s.act i j v else s.store r i j v).reply ⟨h, .write i j data⟩ 0 [] := by
  rw [t.write_ok hc, State.takeItems_now false (by simp [firstNv_single hj, hr, hn]), s.applyItems_single hj v hr]

/-- A write that the store carries waits for its batch (R28). -/
theorem State.Takes.write_waits (t : s.Takes h x) (hj : j < 256) (hn : (entryRow i j).map EntryRow.needsNv = some true)
    (hc : s.checkItem x ⟨i, j, data⟩ = .ok v) : ∃ n, 1 ≤ n ∧ n ≤ 65536 ∧
    s.request h (.write i j data)
      = { s.usedFree with nvQ := [{ place := s.itemsPlace [(entryKey i j, v)], bytes := n,
                                    work := .items ⟨h, .write i j data⟩ [(entryKey i j, v)] none }] } := by
  rw [t.write_ok hc, State.takeItems_later false (n := 0) (by simp [firstNv_single hj, hn])]
  exact State.queueItems_eq _ none t.queued

end

/-! ### A `SEG_READ` and a `SEG_WRITE` -/

section
variable {i j off n : Nat} {gen : W32} {r : EntryRow}

/-- A segment of a DOMAIN under the session's limit is compared with the generation and the size (R35). -/
theorem State.Takes.segRead_domain (t : s.Takes h x) (hr : s.reachEntry x i j .read = .ok r) (hd : r.ty = .domain)
    (hl : n ≤ x.limit) :
    s.request h (.segRead i j off n gen)
      = if s.domainGen i j ≠ gen then s.reply ⟨h, .segRead i j off n gen⟩ 9 []
        else if s.sizeOf i j ≤ off then s.reply ⟨h, .segRead i j off n gen⟩ 8 []
        else s.reply ⟨h, .segRead i j off n gen⟩ 0 (s.sliceOf i j off (min n (s.sizeOf i j - off))) := by
  have fits : ¬ (r.ty ≠ .domain ∨ x.limit < n) := by simp [hd, hl]
  rw [t.request_eq]
  simp only [State.serve, t.session, State.serveSegRead, hr, if_neg fits, stChanged, stSegment, stOk]

theorem State.Takes.segRead_type (t : s.Takes h x) (hr : s.reachEntry x i j .read = .ok r)
    (hd : r.ty ≠ .domain ∨ x.limit < n) :
    s.request h (.segRead i j off n gen) = s.reply ⟨h, .segRead i j off n gen⟩ 5 [] := by
  rw [t.request_eq]
  simp only [State.serve, t.session, State.serveSegRead, hr, if_pos hd, stType]

theorem State.setSeg_eq (hs : s.session n = some x) (g : Option SegSeq) :
    s.setSeg n g = s.setSession n { x with seg := g } := by simp [State.setSeg, hs]

end

section
variable {i j off : Nat} {last : Bool} {data : List Byte} {r : EntryRow}

theorem State.Takes.segWrite_type (t : s.Takes h x) (hr : s.reachEntry x i j .write = .ok r)
    (hd : r.ty ≠ .domain ∨ x.limit < data.length) :
    s.request h (.segWrite i j off last data) = s.reply ⟨h, .segWrite i j off last data⟩ 5 [] := by
  rw [t.request_eq]
  simp only [State.serve, t.session, State.serveSegWrite, hr, if_pos hd, stType]

/-- Whether the content that a segment gives has a size that the DOMAIN takes: not too long, and with the last segment the
size that a DOMAIN of fixed size has (R36). -/
def segFits (index : Nat) (last : Bool) (all : List Byte) : Prop :=
  all.length ≤ (domainLimit index).1
    ∧ (last = true → (domainLimit index).2 = true → all.length = (domainLimit index).1)

theorem not_segFits_iff {index : Nat} {last : Bool} {all : List Byte} : ¬ segFits index last all ↔
    (domainLimit index).1 < all.length
      ∨ (last = true ∧ (domainLimit index).2 = true ∧ all.length ≠ (domainLimit index).1) := by
  simp only [segFits, not_and_or, Nat.not_le, Classical.not_imp, ne_eq]

open Classical in
/-- A segment of a DOMAIN goes on with what came before it, or drops the sequence; the last one's content is taken (R36). -/
theorem State.Takes.segWrite_domain (t : s.Takes h x) (hr : s.reachEntry x i j .write = .ok r) (hd : r.ty = .domain)
    (hl : data.length ≤ x.limit) :
    s.request h (.segWrite i j off last data)
      = (x.before (entryKey i j) off).elim
          ((s.setSeg h.session.toNat none).reply ⟨h, .segWrite i j off last data⟩ 8 [])
          (fun b =>
            if ¬ segFits i last (b ++ data) then
              (s.setSeg h.session.toNat none).reply ⟨h, .segWrite i j off last data⟩ 8 []
            else if last = true then
              (s.setSeg h.session.toNat none).takeDomain ⟨h, .segWrite i j off last data⟩ i j (b ++ data)
            else
              (s.setSeg h.session.toNat (some { key := entryKey i j, data := b ++ data })).reply
                ⟨h, .segWrite i j off last data⟩ 0 []) := by
  have fits : ¬ (r.ty ≠ .domain ∨ x.limit < data.length) := by simp [hd, hl]
  rw [t.request_eq]
  simp only [State.serve, t.session, State.serveSegWrite, hr, if_neg fits, stSegment, stOk, Session.before,
    not_segFits_iff]
  by_cases h0 : off = 0
  · simp [h0]
  · cases hg : x.seg with
    | none => simp [h0]
    | some g =>
      by_cases hk : g.key = entryKey i j ∧ g.data.length = off
      · simp [h0, hk]
      · simp [h0, hk]

section
variable (t : s.Takes h x) (hr : s.reachEntry x i j .write = .ok r) (hd : r.ty = .domain) (hl : data.length ≤ x.limit)
include t hr hd hl

/-- A segment that does not follow on the sequence drops it. -/
theorem State.Takes.segWrite_gap (hb : x.before (entryKey i j) off = none) :
    s.request h (.segWrite i j off last data)
      = (s.setSeg h.session.toNat none).reply ⟨h, .segWrite i j off last data⟩ 8 [] := by
  rw [t.segWrite_domain hr hd hl, hb, Option.elim_none]

variable {before : List Byte} (hb : x.before (entryKey i j) off = some before)
include hb

/-- A segment that makes the content too long drops the sequence. -/
theorem State.Takes.segWrite_unfit (hf : ¬ segFits i last (before ++ data)) :
    s.request h (.segWrite i j off last data)
      = (s.setSeg h.session.toNat none).reply ⟨h, .segWrite i j off last data⟩ 8 [] := by
  rw [t.segWrite_domain hr hd hl, hb, Option.elim_some, if_pos hf]

/-- The last segment gives the content. -/
theorem State.Takes.segWrite_last (hf : segFits i last (before ++ data)) (hlast : last = true) :
    s.request h (.segWrite i j off last data)
      = (s.setSeg h.session.toNat none).takeDomain ⟨h, .segWrite i j off last data⟩ i j (before ++ data) := by
  rw [t.segWrite_domain hr hd hl, hb, Option.elim_some, if_neg (not_not.2 hf), if_pos hlast]

/-- Another segment waits with what came before it. -/
theorem State.Takes.segWrite_more (hf : segFits i last (before ++ data)) (hlast : last = false) :
    s.request h (.segWrite i j off last data)
      = (s.setSeg h.session.toNat (some { key := entryKey i j, data := before ++ data })).reply
          ⟨h, .segWrite i j off last data⟩ 0 [] := by
  rw [t.segWrite_domain hr hd hl, hb, Option.elim_some, if_neg (not_not.2 hf), if_neg (ne_true_of_eq_false hlast)]

end

end

/-! ### Records and DISCOVER -/

/-- Reading uses up free values at most. -/
theorem State.readEntry_frame (s : State) (r : EntryRow) (i j : Nat) : ∃ n, (s.readEntry r i j).1 = { s with free := n } := by
  unfold State.readEntry
  split
  · exact ⟨_, rfl⟩
  · exact ⟨_, rfl⟩
  · exact ⟨_, rfl⟩
  · split <;> exact ⟨_, rfl⟩

theorem State.recordItem_frame (s : State) (x : Session) (i j : Nat) :
    ∃ n, (s.recordItem x i j).1 = { s with free := n } := by
  unfold State.recordItem
  split
  · exact ⟨_, rfl⟩
  · exact s.readEntry_frame ..

/-- A fold whose every step uses up free values at most does so as a whole. -/
theorem foldl_onlyFree {α β : Type} {f : State × α → β → State × α}
    (step : ∀ a k, ∃ n, (f a k).1 = { a.1 with free := n }) (l : List β) (a : State × α) :
    ∃ n, (l.foldl f a).1 = { a.1 with free := n } := by
  induction l generalizing a with
  | nil => exact ⟨_, rfl⟩
  | cons k l ih =>
    obtain ⟨n, rest⟩ := ih (f a k)
    obtain ⟨m, first⟩ := step a k
    exact ⟨n, by rw [List.foldl_cons, rest, first]⟩

theorem State.recordBytes_frame (s : State) (x : Session) (i : Nat) :
    ∃ n, (s.recordBytes x i).1 = { s with free := n } := by
  unfold State.recordBytes
  refine foldl_onlyFree (fun a j => ?_) _ _
  exact a.1.recordItem_frame x i j

/-! ### A message without a session -/

theorem State.takeMessage_now {path : MgmtPath} (m : MgmtMsg) (ha : s.alive = true)
    (hp : path = .inband → s.inbandShut = false) (hi : s.storing = false) : s.takeMessage path m = s.serveMessage m := by
  simp [State.takeMessage, ha, State.not_shut hp, hi]

theorem State.takeMessage_later {path : MgmtPath} (m : MgmtMsg) (ha : s.alive = true)
    (hp : path = .inband → s.inbandShut = false) (hi : s.storing = true) :
    s.takeMessage path m = { s with mgmtQ := s.mgmtQ ++ [m] } := by
  simp [State.takeMessage, ha, State.not_shut hp, hi]

theorem State.storing_iff : s.storing = true ↔ s.nvRun.isSome = true ∨ s.nvQ ≠ [] := by
  simp [State.storing]

/-! ### The end of a session -/

theorem tblDrop_tblPut_self {α : Type} (t : List (Nat × α)) (k : Nat) (v : α) :
    tblDrop (tblPut t k v) k = tblDrop t k := by
  induction t with
  | nil => simp [tblPut, tblDrop]
  | cons y r ih =>
    obtain ⟨a, w⟩ := y
    simp only [tblPut]
    split
    · simp [tblDrop]
    · split
      · next ha => simp [tblDrop, ha]
      · simp only [tblDrop, List.filter_cons] at ih ⊢
        rw [ih]

/-- Whether a waiting message is not a request of a session. -/
def MgmtMsg.elsewhere (n : Nat) : MgmtMsg → Bool
  | .request q => q.h.session.toNat != n
  | _ => true

/-- What a session's end leaves: the other sessions, what waits of them, and no consent where it was a Vendor's (R25,
R46). -/
def State.ended (s : State) (sessions : Tbl Session) (waiting : List MgmtMsg) (role : Nat) : State :=
  let u := { s with sessions := sessions, mgmtQ := waiting }
  if role = 3 then u.setEntry 0x1010 0 0 else u

theorem State.endSession_eq {n : Nat} (hs : s.session n = some x) :
    s.endSession n = s.ended (tblDrop s.sessions n) (s.mgmtQ.filter (MgmtMsg.elsewhere n)) x.role := by
  simp only [State.endSession, hs]
  exact congrArg (s.ended _ · _) (List.filter_congr (fun m _ => by cases m <;> rfl))

/-- A session that is answered and ends is gone from the table that stood before the answer. -/
theorem State.endSession_reply (hs : s.session h.session.toNat = some x) (b : Body) (st : Nat) (p : List Byte) :
    let u := s.reply ⟨h, b⟩ st p
    u.endSession h.session.toNat
      = u.ended (tblDrop s.sessions h.session.toNat) (u.mgmtQ.filter (MgmtMsg.elsewhere h.session.toNat)) x.role := by
  intro u
  have eq : u = (s.setSession h.session.toNat (x.keeping h.seq _)).sayTo h _ := State.answer_of_session hs _
  have named : u.session h.session.toNat = some (x.keeping h.seq (b.response st p)) := by
    simp [eq, State.sayTo, State.sayOn, State.session_setSession]
  have listed : u.sessions = tblPut s.sessions h.session.toNat (x.keeping h.seq (b.response st p)) := by
    simp [eq, State.sayTo, State.sayOn, State.setSession]
  rw [State.endSession_eq named, listed, tblDrop_tblPut_self]
  rfl

/-- A subscription is added to its session's, or cancelled (R438). -/
theorem State.Takes.subscribe (t : s.Takes h x) {i : Nat} {r : EntryRow} (on : Bool)
    (hr : s.reachEntry x i 0 .subscribe = .ok r) (hi : (statusOf i).isSome = true) :
    s.request h (.subscribe i on)
      = (s.setSession h.session.toNat
          { x with subs := if on then x.subs.filter (fun y => y != i) ++ [i] else x.subs.filter (fun y => y != i) }).reply
            ⟨h, .subscribe i on⟩ 0 [] := by
  have known : ¬ (statusOf i).isNone = true := by simpa using Option.isSome_iff_ne_none.1 hi
  rw [t.request_eq]
  simp only [State.serve, t.session, State.serveSubscribe, hr, if_neg known, stOk]

end

/-! ### Statements -/

/-- Settles O1: a queue with a front runs it. -/
theorem stepRunsTheFront : Obligations.StepRunsTheFront := by
  unfold Obligations.StepRunsTheFront
  intro s c rest front
  simp only [step, front]

/-- Settles O26: whatever the request asks, its kept response is sent again before anything of it is looked at. -/
theorem repeatAnswered : Obligations.RepeatAnswered := by
  unfold Obligations.RepeatAnswered
  intro s h x r index sub on data offset length gen off last ha hp hm hs ht hr
  have again (b : Body) : Host.Outcome.next (s.request h b) = (.next (s.sayTo h r.2) : Host.Outcome State Fault Refusal) :=
    next_congr (State.request_repeat b ha hp hm hs ht hr)
  exact ⟨again _, again _, again _, again _, again _, again _, again _, again _⟩

/-- Settles O27: a request that is taken is served by the outcome of the checks (R437). -/
theorem readAnswers : Obligations.ReadAnswers := by
  unfold Obligations.ReadAnswers
  intro s h x index sub q t
  have read : exec (.read h index sub) s = .next (s.serveRead q x index.toNat sub.toNat) := by
    have served := t.request_eq (.read index.toNat sub.toNat)
    simp only [State.serve, t.session] at served
    exact next_congr served
  refine ⟨fun r hr => ?_, fun e he => ?_⟩
  · rw [read]
    simp only [State.serveRead, hr, stOk]
  · rw [read]
    simp only [State.serveRead, he]

/-- Settles O28: by whether the write passes its checks, and whether its row needs the nonvolatile store. -/
theorem writeAnswers : Obligations.WriteAnswers := by
  unfold Obligations.WriteAnswers
  intro s h x index sub data v r i j q checked t hr
  refine ⟨fun hc hn => ?_, fun hc hn => ?_, fun e he => ?_⟩
  · exact next_congr (t.write_now sub.isLt hr hc hn)
  · obtain ⟨n, lo, hi, eq⟩ := t.write_waits sub.isLt (by simp [i, j, hr, hn]) hc
    exact ⟨n, lo, hi, next_congr eq⟩
  · exact next_congr (t.write_refused he)

/-- Settles O29: a read by its generation and offset, a write by the sequence before it and the size it comes to. -/
theorem segments : Obligations.Segments := by
  unfold Obligations.Segments
  refine ⟨?_, ?_, ?_⟩
  · intro s h x index sub r offset length gen i j answers t hr
    refine ⟨fun hd hl => ?_, fun hd => next_congr (t.segRead_type hr hd)⟩
    have read := t.segRead_domain (off := offset.toNat) (gen := gen) hr hd hl
    refine ⟨fun hg ho => next_congr (read.trans ?_), fun hg ho => next_congr (read.trans ?_),
      fun hg => next_congr (read.trans ?_)⟩
    · rw [if_neg (not_not.2 hg), if_neg (Nat.not_le.2 ho)]
    · rw [if_neg (not_not.2 hg), if_pos ho]
    · rw [if_pos hg]
  · intro s h x index sub r off last data before i j key q writes keeps fits t hr
    have seg (g : Option SegSeq) : s.setSeg h.session.toNat g = keeps g := State.setSeg_eq t.session g
    refine ⟨fun hd hl => ?_, fun hd => next_congr (t.segWrite_type hr hd)⟩
    simp only [← seg]
    exact ⟨fun hb hf hn => next_congr (t.segWrite_more hr hd hl hb hf hn),
      fun hb hf hn => next_congr (t.segWrite_last hr hd hl hb hf hn),
      fun hb hf => next_congr (t.segWrite_unfit hr hd hl hb hf), fun hb => next_congr (t.segWrite_gap hr hd hl hb)⟩
  · intro s session x hx
    exact next_congr (State.setSeg_eq hx none)

/-- Settles O30: `DISCOVER` by whether a write waits for the store; `SUBSCRIBE` and the ends by the session they name. -/
theorem sessionsServed : Obligations.SessionsServed := by
  unfold Obligations.SessionsServed
  refine ⟨?_, ?_⟩
  · intro s path v ha hp
    obtain ⟨n, frame⟩ := s.recordBytes_frame Session.plain 0
    refine ⟨fun hr hq => ⟨next_congr ?_, by simp only [v, frame]⟩, fun hw => next_congr ?_⟩
    · exact State.takeMessage_now _ ha hp (State.storing_of_idle hr hq)
    · exact State.takeMessage_later _ ha hp (State.storing_iff.2 hw)
  · intro s h x index on r n others gone
    have gone_eq (u : State) :
        gone u = u.ended (tblDrop s.sessions n) (u.mgmtQ.filter (MgmtMsg.elsewhere n)) x.role :=
      congrArg (u.ended _ · _) (List.filter_congr (fun m _ => by cases m <;> rfl))
    refine ⟨fun t hr hst => ?_, fun t => ?_, fun hs => ?_⟩
    · refine next_congr ((t.subscribe (on != 0) hr hst).trans ?_)
      by_cases h0 : on = 0 <;> simp [h0, n, others]
    · rw [gone_eq]
      have served := t.request_eq .close
      simp only [State.serve, t.session, stOk] at served
      exact next_congr (served.trans (State.endSession_reply t.session ..))
    · rw [gone_eq]
      exact next_congr (State.endSession_eq hs)

/-- Settles O31: by the edition, then by what the payload holds and the first item that fails. -/
theorem recordsAndBatches : Obligations.RecordsAndBatches := by
  unfold Obligations.RecordsAndBatches
  intro s h x index r payload items vs q t
  have record := t.request_eq (.recordRead index.toNat)
  have batch := t.request_eq (.batch payload)
  simp only [State.serve, t.session] at record batch
  refine ⟨fun old => ⟨next_congr (record.trans ?_), next_congr (batch.trans ?_)⟩, fun new => ?_⟩
  · simp only [State.serveRecord, old, if_true, stNoType]
  · simp only [State.serveBatch, old, if_true, stNoType, q]
  have new : ¬ x.edition < 2 := Nat.not_lt.2 new
  refine ⟨fun hr rec => next_congr (record.trans ?_), fun whole ne => ?_, fun bad => next_congr (batch.trans ?_)⟩
  · simp [State.serveRecord, new, hr, rec, stOk]
  · obtain ⟨i, is, rfl⟩ := List.exists_cons_of_ne_nil ne
    refine ⟨fun ok now => next_congr (batch.trans ?_), fun m ok later => ?_, fun n e err => next_congr (batch.trans ?_)⟩
    · simp only [State.serveBatch, if_neg new, whole, ok, State.takeItems_now true now, q]
    · obtain ⟨n, lo, hi, eq⟩ := State.queueItems_eq (q := q) vs (some m) t.queued
      refine ⟨n, lo, hi, next_congr (batch.trans (Eq.trans ?_ eq))⟩
      simp only [State.serveBatch, if_neg new, whole, ok, State.takeItems_later true later, if_true, q]
    · simp only [State.serveBatch, if_neg new, whole, err, q]
  · rcases bad with bad | bad
    · simp only [State.serveBatch, if_neg new, bad, stType, q]
    · simp only [State.serveBatch, if_neg new, bad, stType, q]

end Sys2Proof.Machine
end

section
/-! ### Events and flags

What an arrived event changes, what a `NOTIFY` leaves unchanged, and what a write to `FLAGS` leaves of a flag word. -/

namespace Sys2Proof.Machine

/-! ### A word made bit by bit -/

/-- The number whose bit i, for i below n, is `p i`. -/
def bitsWhere (p : Nat → Bool) (n : Nat) : Nat := (List.range n).foldl (fun a i => if p i then a + 2 ^ i else a) 0

theorem bitsWhere_succ (p : Nat → Bool) (n : Nat) :
    bitsWhere p (n + 1) = if p n then bitsWhere p n + 2 ^ n else bitsWhere p n := by
  simp [bitsWhere, List.range_succ]

theorem bitsWhere_lt (p : Nat → Bool) (n : Nat) : bitsWhere p n < 2 ^ n := by
  induction n with
  | zero => simp [bitsWhere]
  | succ n ih =>
    rw [bitsWhere_succ, Nat.pow_succ]
    split <;> omega

theorem testBit_bitsWhere (p : Nat → Bool) (n b : Nat) : (bitsWhere p n).testBit b = (decide (b < n) && p b) := by
  induction n with
  | zero => simp [bitsWhere]
  | succ n ih =>
    rw [bitsWhere_succ]
    rcases Nat.lt_trichotomy b n with lt | rfl | gt
    · have below : b < n + 1 := by omega
      split
      · rw [Nat.add_comm, Nat.testBit_two_pow_add_gt lt, ih]; simp [lt, below]
      · rw [ih]; simp [lt, below]
    · have high : (bitsWhere p b).testBit b = false := Nat.testBit_lt_two_pow (bitsWhere_lt p b)
      split
      · next hp => rw [Nat.add_comm, Nat.testBit_two_pow_add_eq, high]; simp [hp]
      · next hp => rw [high]; simp [hp]
    · have above : ¬ b < n + 1 := by omega
      have small := bitsWhere_lt p (n + 1)
      rw [bitsWhere_succ] at small
      rw [Nat.testBit_lt_two_pow (lt_of_lt_of_le small (Nat.pow_le_pow_right (by decide) gt))]
      simp [above]

/-! ### Entries after a write -/

variable {s : State} {i b n : Nat}

theorem State.find_setEntry (s : State) (i j v k : Nat) :
    tblFind (s.setEntry i j v).dict k = if entryKey i j = k then some v else tblFind s.dict k := tblFind_tblPut ..

theorem State.find_bumpW (s : State) (w i j n k : Nat) :
    tblFind (s.bumpW w i j n).dict k
      = if entryKey i j = k then some (((tblFind s.dict (entryKey i j)).getD 0 + n) % 2 ^ w) else tblFind s.dict k :=
  tblFind_tblPut ..

/-- An entry that is not kept shows what the dictionary lists. -/
theorem State.entry_of_find {j v : Nat} (hk : tblFind s.kept (entryKey i j) = none)
    (hv : tblFind s.dict (entryKey i j) = some v) : s.entry i j = v := by
  simp [State.entry, hk, hv]

theorem State.entry_setEntry_self {j v : Nat} (hk : tblFind s.kept (entryKey i j) = none) :
    (s.setEntry i j v).entry i j = v :=
  State.entry_of_find hk (by rw [State.find_setEntry, if_pos rfl])

/-! ### What an event changes -/

/-- The flag of an event set and its counter advanced (R30). -/
def State.raised (s : State) (i b n : Nat) : State :=
  (s.setEntry i 1 (s.entry i 1 ||| 2 ^ b)).bumpW 32 i (3 + b) n

theorem State.find_raised (s : State) (i b n k : Nat) :
    tblFind (s.raised i b n).dict k
      = if k = entryKey i (3 + b) then some (((tblFind s.dict (entryKey i (3 + b))).getD 0 + n) % 2 ^ 32)
        else if k = entryKey i 1 then some (s.entry i 1 ||| 2 ^ b) else tblFind s.dict k := by
  have ne : entryKey i 1 ≠ entryKey i (3 + b) := by unfold entryKey; omega
  rw [State.raised, State.find_bumpW, State.find_setEntry, State.find_setEntry, if_neg ne]
  simp only [eq_comm]

theorem State.entry_raised_enable (s : State) (i b n : Nat) : (s.raised i b n).entry i 2 = s.entry i 2 := by
  have find : tblFind (s.raised i b n).dict (entryKey i 2) = tblFind s.dict (entryKey i 2) := by
    rw [State.find_raised, if_neg (by unfold entryKey; omega), if_neg (by unfold entryKey; omega)]
  have kept : (s.raised i b n).kept = s.kept := rfl
  simp only [State.entry, find, kept]

/-- An event: its flag and counter, `ALERT_N` where the flag is enabled, and a `NOTIFY` where it was 0 as well (R32). -/
theorem State.postEvent_eq (s : State) (i b n : Nat) :
    let u := { s.raised i b n with alertN := s.alertN || (s.entry i 2).testBit b }
    s.postEvent i b n = if (s.entry i 2).testBit b && !(s.entry i 1).testBit b then u.notify i else u := by
  have enable := s.entry_raised_enable i b n
  simp only [State.raised] at enable
  by_cases on : (s.entry i 2).testBit b = true
  · simp [State.postEvent, State.raised, enable, on]
  · simp [State.postEvent, State.raised, enable, on]
    rfl

theorem State.postAll_single (ha : s.arrived = [(i, b, n)]) :
    s.postAll = { s with arrived := [] }.postEvent i b n := by simp [State.postAll, ha]

theorem State.postAll_none (ha : s.arrived = []) : s.postAll = s := by
  simp only [State.postAll, ha, List.foldl_nil]
  rw [← ha]

/-! ### What a notice leaves unchanged -/

/-- From one state to another notices alone have been sent: the record of outputs has grown, and of the dictionary the
counters of port 0, by which in-band notices leave, at most have changed. -/
def State.OnlyNotices (s t : State) : Prop :=
  ∃ tx dict, t = { s with tx := tx, dict := dict } ∧ ∀ k, k / 256 ≠ 0x6102 → tblFind dict k = tblFind s.dict k

theorem State.OnlyNotices.refl (s : State) : s.OnlyNotices s := ⟨s.tx, s.dict, rfl, fun _ _ => rfl⟩

theorem State.OnlyNotices.trans {s t u : State} (h : s.OnlyNotices t) (h' : t.OnlyNotices u) : s.OnlyNotices u := by
  obtain ⟨_, _, rfl, same⟩ := h
  obtain ⟨tx, dict, rfl, same'⟩ := h'
  exact ⟨tx, dict, rfl, fun k hk => (same' k hk).trans (same k hk)⟩

theorem State.OnlyNotices.bump {s t : State} (h : s.OnlyNotices t) {j : Nat} (hj : j < 256) (n : Nat) :
    s.OnlyNotices (t.bump 0x6102 j n) := by
  obtain ⟨tx, dict, rfl, same⟩ := h
  unfold State.bump
  split
  · exact ⟨tx, dict, rfl, same⟩
  · refine ⟨tx, _, rfl, fun k hk => ?_⟩
    have ne : entryKey 0x6102 j ≠ k := fun e => hk (e ▸ entryKey_div hj)
    exact (tblFind_tblPut_ne _ _ ne).trans (same k hk)

theorem State.sendNotice_only (s : State) (m : W16) (e i : Nat) (flags : W32) :
    s.OnlyNotices (s.sendNotice m e i flags) := by
  have sent (x : Tx) : s.OnlyNotices { s with tx := s.tx ++ [x] } := ⟨_, s.dict, rfl, fun k _ => rfl⟩
  unfold State.sendNotice State.send State.frameOf
  by_cases inband : (s.session m.toNat).any (fun x => x.path == .inband) = true
  · simp only [if_pos inband]
    split
    · exact ((sent _).bump (by decide) 1).bump (by decide) _
    · exact sent _
  · simp only [if_neg inband]
    exact sent _

theorem State.foldl_onlyNotices {α : Type} {f : State → α → State} (step : ∀ (t : State) a, t.OnlyNotices (f t a)) (l : List α)
    (s : State) : s.OnlyNotices (l.foldl f s) := by
  induction l generalizing s with
  | nil => exact .refl s
  | cons a l ih => exact (step s a).trans (ih (f s a))

theorem State.notify_only (s : State) (i : Nat) : s.OnlyNotices (s.notify i) :=
  State.foldl_onlyNotices (fun t _ => t.sendNotice_only ..) _ s

theorem State.notify_of_no_sessions (i : Nat) (hs : s.sessions = []) : s.notify i = s := by
  simp [State.notify, hs]

/-- After its flag, its counter and `ALERT_N` an event sends notices alone. -/
theorem State.postEvent_only (s : State) (i b n : Nat) :
    State.OnlyNotices { s.raised i b n with alertN := s.alertN || (s.entry i 2).testBit b } (s.postEvent i b n) := by
  rw [State.postEvent_eq]
  split
  · exact State.notify_only ..
  · exact .refl _

/-- Beside the counters of port 0, the dictionary after an event is what its flag and its counter make of it. -/
theorem State.find_postEvent (s : State) {k : Nat} (hk : k / 256 ≠ 0x6102) :
    tblFind (s.postEvent i b n).dict k = tblFind (s.raised i b n).dict k := by
  obtain ⟨tx, dict, eq, same⟩ := s.postEvent_only i b n
  rw [eq]
  exact same k hk

theorem State.postEvent_kept (s : State) (i b n : Nat) : (s.postEvent i b n).kept = s.kept := by
  obtain ⟨tx, dict, eq, -⟩ := s.postEvent_only i b n
  rw [eq]
  rfl

/-! ### A write to `FLAGS` -/

/-- The flags of a record that the events arrived set. -/
def State.justSet (s : State) (i : Nat) : Nat :=
  (s.arrived.filter (fun e => e.1 == i)).foldl (fun a e => a ||| 2 ^ e.2.1) 0

/-- A flag that stays 1: it was 1, and was not written 1, or an event sets it in the same slow cycle (R31). -/
theorem State.clearFlags_eq (s : State) (i mask : Nat) :
    s.clearFlags i mask = s.postAll.setEntry i 1
      (bitsWhere (fun b => (s.postAll.entry i 1).testBit b && (!mask.testBit b || (s.justSet i).testBit b)) 32) := rfl

theorem State.clearFlags_testBit {mask : Nat} (hk : tblFind s.postAll.kept (entryKey i 1) = none) (hb : b < 32) :
    ((s.clearFlags i mask).entry i 1).testBit b
      = ((s.postAll.entry i 1).testBit b && (!mask.testBit b || (s.justSet i).testBit b)) := by
  rw [State.clearFlags_eq, State.entry_setEntry_self hk, testBit_bitsWhere]
  simp [hb]

theorem State.find_clearFlags_ne (mask : Nat) {k : Nat} (hk : k ≠ entryKey i 1) :
    tblFind (s.clearFlags i mask).dict k = tblFind s.postAll.dict k := by
  rw [State.clearFlags_eq, State.find_setEntry, if_neg hk.symm]

/-- The counters of port 0 are no status record: their first subindex is not cleared by writing. -/
theorem not_rwc_portCounters {r : EntryRow} (hr : entryRow i 1 = some r) (hw : r.access = .rwc) : i ≠ 0x6102 := by
  rintro rfl
  have ro : (entryRow 0x6102 1).map EntryRow.access = some .ro := by decide +kernel
  simp [hr, hw] at ro

/-! ### Statements -/

/-- Settles O32: with no session to notify, an event changes its flag, its counter and `ALERT_N`. -/
theorem eventsPosted : Obligations.EventsPosted := by
  unfold Obligations.EventsPosted
  intro s index b n ha hb hs hk
  let u := { s with arrived := [] }.raised index b n
  let t := { u with alertN := s.alertN || (s.entry index 2).testBit b }
  have post : s.postAll = t := by
    rw [State.postAll_single ha, State.postEvent_eq]
    split
    · exact State.notify_of_no_sessions index hs
    · rfl
  have find := State.find_raised { s with arrived := [] } index b n
  refine ⟨t, next_congr post, rfl, ?_, ?_, rfl, ?_, rfl⟩
  · refine State.entry_of_find hk ?_
    rw [find, if_neg (by unfold entryKey; omega), if_pos rfl]
    rfl
  · rw [find, if_pos rfl]
  · intro k h1 h3
    rw [find, if_neg h3, if_neg h1]

/-- Settles O33: the write clears what no event of the same slow cycle sets; an event's record is not one that a notice
counts in. -/
theorem flagsCleared : Obligations.FlagsCleared := by
  unfold Obligations.FlagsCleared
  intro s h x record mask r i t taken hc hr hw hn hk
  refine ⟨?_, fun ha => ⟨fun b hb => ?_, fun k hne => ?_⟩, fun b n hb ha => ?_⟩
  · have now := taken.write_now (by decide) hr hc hn
    simp only [hw, reduceCtorEq, if_false, State.store, if_true] at now
    exact next_congr now
  · have nothing : s.justSet i = 0 := by simp [State.justSet, ha]
    rw [State.clearFlags_testBit (by rw [State.postAll_none ha]; exact hk) hb, State.postAll_none ha, nothing,
      BitVec.testBit_toNat]
    simp
  · rw [State.find_clearFlags_ne _ hne, State.postAll_none ha]
  · have place : i ≠ 0x6102 := not_rwc_portCounters hr hw
    have set : s.justSet i = 2 ^ b := by simp [State.justSet, ha]
    have post := State.postAll_single ha
    have kept : s.postAll.kept = s.kept := by rw [post, State.postEvent_kept]
    have find (j : Nat) (hj : j < 256) : tblFind s.postAll.dict (entryKey i j)
        = tblFind ({ s with arrived := [] }.raised i b n).dict (entryKey i j) := by
      rw [post, State.find_postEvent _ (by rwa [entryKey_div hj])]
    refine ⟨?_, ?_⟩
    · have flag : s.postAll.entry i 1 = s.entry i 1 ||| 2 ^ b := by
        refine State.entry_of_find (by rw [kept]; exact hk) ?_
        rw [find 1 (by decide), State.find_raised, if_neg (by unfold entryKey; omega), if_pos rfl]
        rfl
      rw [State.clearFlags_testBit (by rw [kept]; exact hk) hb, flag, set]
      simp
    · rw [State.find_clearFlags_ne _ (by unfold entryKey; omega), find (3 + b) (by omega), State.find_raised, if_pos rfl]

end Sys2Proof.Machine
end

section
/-! ### Writes that the nonvolatile store carries, and DOMAINs taken whole -/

namespace Sys2Proof.Machine

variable {s : State} {h : Hdr} {x : Session} {q : Req}

/-! ### Rows that need the store -/

theorem needsNv_polderSites (p : BitVec 4) :
    (entryRow (0x5100 + 16 * p.toNat) 1).map EntryRow.needsNv = some true := by
  revert p
  decide +kernel

/-! ### The content of a DOMAIN -/

theorem polderAt_block (base : Nat) (p : BitVec 4) : polderAt base (base + p.toNat) = some p.toNat := by
  have := p.isLt
  simp [polderAt, this]

theorem State.takeDomain_image (data : List Byte) :
    s.takeDomain q 0x9010 0 data
      = s.queueNv (if s.inactiveSlot = 0 then 0x0100000 else 0x1100000) data.length (.image q data) := by
  by_cases first : s.inactiveSlot = 0 <;> simp [State.takeDomain, polderAt, first, NvRegion.span]

/-- A fabric credential is checked before it waits for its batches (R412). -/
theorem State.takeDomain_credential (data : List Byte) :
    s.takeDomain q 0x9030 5 data
      = if s.fabricCredOk data then
          s.queueNv (NvRegion.kept.copyAt s.keptStandsA) data.length (.keptDomain q (entryKey 0x9030 5) data)
        else s.reply q 13 [] := by
  by_cases good : s.fabricCredOk data = true <;> simp [State.takeDomain, polderAt, good, stAuth]

/-- A seal key enters the slot that its message names (R413). -/
theorem State.takeDomain_seal (p : BitVec 4) (data : List Byte) :
    s.takeDomain q (0x9040 + p.toNat) 0 data
      = (s.sealOf p.toNat data).elim (s.reply q 13 []) (fun k =>
          ({ s with sealKeys := tblPut s.sealKeys (16 * p.toNat + k.1) k.2 } : State).reply q 0 []) := by
  simp only [State.takeDomain, polderAt_block, stAuth, stOk]
  cases s.sealOf p.toNat data <;> rfl

/-- Settles O35: each write by its row, which needs the store; each DOMAIN by the place that takes its content. -/
theorem storedWrites : Obligations.StoredWrites := by
  unfold Obligations.StoredWrites
  refine ⟨?_, ?_⟩
  · intro s h x polder value mask epoch key waits t
    have wait {i : Instr} {index sub : Nat} {data : List Byte} {v : Nat} (hj : sub < 256)
        (hn : (entryRow index sub).map EntryRow.needsNv = some true)
        (hi : exec i s = .next (s.request h (.write index sub data))) : waits i index sub data v := by
      intro hc
      obtain ⟨n, lo, hi', eq⟩ := t.write_waits hj hn hc
      exact ⟨n, lo, hi', hi.trans (next_congr eq)⟩
    exact ⟨wait (by decide) (by decide +kernel) rfl, wait (by decide) (by decide +kernel) rfl,
      wait (by decide) (by decide +kernel) rfl, wait (by decide) (by decide +kernel) rfl,
      wait (by decide) (by decide +kernel) rfl, wait (by decide) (needsNv_polderSites polder) rfl⟩
  · intro s h x off data before polder slot key r all u sealAt q last t hd hl
    have whole {index sub : Nat} (l : last index sub) :
        s.request h (.segWrite index sub off.toNat true data) = u.takeDomain (q index sub) index sub all := by
      obtain ⟨hr, hb, hlen, hfix⟩ := l
      rw [t.segWrite_last hr hd hl hb ⟨hlen, fun _ => hfix⟩ rfl, State.setSeg_eq t.session]
    refine ⟨fun l => ?_, fun l => ⟨fun good => ?_, fun bad => ?_⟩, fun l => ⟨fun ok => ?_, fun bad => ?_⟩⟩
    · exact next_congr ((whole l).trans (State.takeDomain_image all))
    · exact next_congr ((whole l).trans ((State.takeDomain_credential all).trans (if_pos good)))
    · exact next_congr ((whole l).trans ((State.takeDomain_credential all).trans (if_neg (ne_true_of_eq_false bad))))
    · have ok' : u.sealOf polder.toNat all = some (slot, key) := ok
      exact next_congr ((whole l).trans ((State.takeDomain_seal polder all).trans (by rw [ok']; rfl)))
    · have bad' : u.sealOf polder.toNat all = none := bad
      exact next_congr ((whole l).trans ((State.takeDomain_seal polder all).trans (by rw [bad']; rfl)))

end Sys2Proof.Machine
end

section
/-! ### Links of the ports and the management link -/

namespace Sys2Proof.Machine

variable {s : State} {q : Nat}

theorem State.event_one (s : State) (i b : Nat) : s.event i b 1 = { s with arrived := s.arrived ++ [(i, b, 1)] } := rfl

theorem State.linkUp_mode {peer m : Nat} {rest : List Nat} (hq : q < 5) (hn : (s.port q).linkState = 1)
    (hm : modesOf (s.entry (portIndex q 0) 3 &&& peer) = m :: rest) :
    let u := s.setPort q { s.port q with
      linkState := if (s.port q).channels.isEmpty then 3 else 4, mode := m, kind := s.entry (portIndex q 0) 4 }
    s.linkUp q peer = if m = 1 then u else u.event (portIndex q 1) 1 1 := by
  have there : ¬ (5 ≤ q ∨ (s.port q).linkState ≠ 1) := by simp [hn, hq]
  simp only [State.linkUp, if_neg there, hm]

/-- Settles O49: by the state of the link; each change is one port's, with at most one event. -/
theorem linksChange : Obligations.LinksChange := by
  unfold Obligations.LinksChange
  intro s port modes channel up m rest q x
  refine ⟨fun hq hn hm => ?_, fun hup => ?_, fun hn => ?_, fun hw => ?_, fun hc => ?_, fun hv => ⟨?_, ?_⟩, rfl⟩
  · let y : Port := { x with
      linkState := if x.channels.isEmpty then 3 else 4, mode := m, kind := s.entry (portIndex q 0) 4 }
    let t : State := { s.setPort q y with arrived := s.arrived ++ if m = 1 then [] else [(portIndex q 1, 1, 1)] }
    have comes : s.linkUp q modes.toNat = t := by
      rw [State.linkUp_mode hq hn hm]
      by_cases one : m = 1 <;> simp [t, y, x, one, State.event_one, State.setPort]
    refine ⟨t, next_congr comes, s.port_setPort_self q y, fun j hj => ?_, rfl, rfl⟩
    exact (s.port_setPort q j y).trans (if_neg hj.symm)
  · have notDown : ¬ (s.port q).linkState < 3 := Nat.not_lt.2 hup
    exact next_congr (if_neg notDown)
  · exact next_congr (if_pos hn)
  · exact next_congr (if_pos hw)
  · exact next_congr (if_pos hc)
  · exact next_congr (if_pos hv)
  · exact next_congr (if_pos hv)

end Sys2Proof.Machine
end

section
/-! ### The end of a handshake -/

namespace Sys2Proof.Machine

variable {s : State} {x : Handshake} {f : Fragment}

/-- The handshake once a fragment of its H3 has arrived (R411). -/
def Handshake.withH3 (x : Handshake) (f : Fragment) : Handshake :=
  { x with
    h3Total := if x.h3.isEmpty then f.total.toNat else x.h3Total
    h3 := if x.h3.contains (fragPart f) then x.h3 else x.h3 ++ [fragPart f] }

/-- The fragment that completes H3 gives it whole. -/
theorem State.h3Fragment_whole {h3 : List Byte} (hf : fragFits f (x.withH3 f).h3Total = true)
    (hw : wholeOf (x.withH3 f).h3Total (x.withH3 f).h3 = some h3) :
    s.h3Fragment x f = (s.putHandshake (x.withH3 f), some h3) := by
  simp only [Handshake.withH3] at hf hw
  simp only [State.h3Fragment, hf, hw, Bool.not_true, Bool.false_eq_true, if_false, Handshake.withH3]

/-- Putting a handshake back changes the list of handshakes alone. -/
theorem State.putHandshake_frame (s : State) (x : Handshake) :
    ∃ l, s.putHandshake x = { s with handshakes := l } := by
  unfold State.putHandshake
  split <;> exact ⟨_, rfl⟩

section
variable (s : State) (x : Handshake)

@[simp] theorem State.putHandshake_entry (i j : Nat) : (s.putHandshake x).entry i j = s.entry i j := by
  obtain ⟨l, eq⟩ := s.putHandshake_frame x
  rw [eq]
  rfl

@[simp] theorem State.putHandshake_session (n : Nat) : (s.putHandshake x).session n = s.session n := by
  obtain ⟨l, eq⟩ := s.putHandshake_frame x
  rw [eq]
  rfl

@[simp] theorem State.putHandshake_assocs : (s.putHandshake x).assocs = s.assocs := by
  obtain ⟨l, eq⟩ := s.putHandshake_frame x
  rw [eq]

@[simp] theorem State.putHandshake_port (q : Nat) : (s.putHandshake x).port q = s.port q := by
  obtain ⟨l, eq⟩ := s.putHandshake_frame x
  rw [eq]
  rfl

@[simp] theorem State.putHandshake_credOk (c : Cred) : (s.putHandshake x).credOk c = s.credOk c := by
  obtain ⟨l, eq⟩ := s.putHandshake_frame x
  rw [eq]
  rfl

end

theorem State.negotiated_ok {index least e : Nat}
    (he : negotiate x.lo x.hi (max least (s.entry index 1)) (s.entry index 2) = some e) :
    s.negotiated index least x = (s, some e) := by simp [State.negotiated, he]

/-- A session opens under the lowest free number (R47). -/
theorem State.beginSession_free {n : Nat} (path : MgmtPath) (seq : W16) (keys : Keys) (e : Nat)
    (hn : (List.range 16).find? (fun i => (s.session i).isNone) = some n) :
    s.beginSession path seq x keys e
      = (((s.setSession n
            { role := x.cred.role, edition := e, path := path, scope := BitVec.ofNat 16 x.cred.scope,
              udpPort := s.entry 0x1000 4, served := 0, newest := none, responses := [], subs := [], seg := none,
              keys := keys
              enrolKey := if s.credOk x.cred then none else some (BitVec.ofNat 512 (ofBytes x.cred.subject)) }).bump
            0x9080 1 1).ackHandshake x (BitVec.ofNat 32 n) 0 [BitVec.ofNat 8 e, BitVec.ofNat 8 x.cred.role]).sayOn path
              ((BitVec.ofNat 32 n).setWidth 16) seq
              { type := 0x8B, status := 0, payload := [BitVec.ofNat 8 e, BitVec.ofNat 8 x.cred.role] } := by
  simp only [State.beginSession, hn, State.sayOpen, stOk]

/-- An association opens under the lowest free number (R351). -/
theorem State.beginAssoc_free {n : Nat} (h : HostHdr) (keys : Keys) (e : Nat)
    (hn : ((List.range 16).map (· + 1)).find? (fun i => !s.assocs.any (fun a => a.num.toNat == i)) = some n) :
    s.beginAssoc h x keys e
      = ((({ s with assocs := s.assocs ++
              [{ num := BitVec.ofNat 32 n, ipv6 := h.ipv6, keys := keys, role := x.cred.role, edition := e,
                 scope := if 2 ≤ x.cred.role then 0xFFFF else BitVec.ofNat 16 x.cred.scope }] } : State).bump
            0x9080 1 1).ackHandshake x (BitVec.ofNat 32 n) 0 [BitVec.ofNat 8 e, BitVec.ofNat 8 x.cred.role]).send
              (.host 0x8A { h with assoc := BitVec.ofNat 32 n } 0 [BitVec.ofNat 8 e, BitVec.ofNat 8 x.cred.role]) := by
  simp only [State.beginAssoc, hn, State.sayHost, hostOk]

/-- The first channel of a peer station takes the lowest free number of its port (R348). -/
theorem State.openChannel_first {q n : Nat} {peer : BitVec 48} (keys : Keys)
    (hp : (s.port q).channels.find? (fun d => d.peer == peer) = none)
    (hn : (List.range 256).find? (fun i => !(s.port q).channels.any (fun d => d.num == i)) = some n) :
    s.openChannel q peer keys = s.setPort q { s.port q with
      linkState := 4
      channels := (s.port q).channels ++ [{ num := n, peer := peer, keys := keys, highest := 0, seen := [],
                                            oldKey := false, rekeying := false }] } := by
  simp only [State.openChannel, hp, hn]

/-- A peer station's channel goes on under new keys (R349). -/
theorem State.openChannel_again {q : Nat} {peer : BitVec 48} {d : Channel} (keys : Keys)
    (hp : (s.port q).channels.find? (fun d => d.peer == peer) = some d) :
    s.openChannel q peer keys = s.setPort q { s.port q with channels := (s.port q).channels.map (fun b =>
      if b.num = d.num then { b with keys := keys, rekeying := false, oldKey := true } else b) } := by
  simp only [State.openChannel, hp]

/-! ### The last fragment of H3, on each path -/

section
variable {h3 : List Byte} {path : MgmtPath} {session seq n : W16} {h : HostHdr} {p : HsPath}
variable (ha : x.acked = none) (hs : x.signed = true) (hf : fragFits f (x.withH3 f).h3Total = true)
  (hw : wholeOf (x.withH3 f).h3Total (x.withH3 f).h3 = some h3)
include ha hs hf hw

theorem State.openFinish_fails (hm : s.mode ≠ 3) (hx : s.handshake .tsusen (session.setWidth 32) = some x)
    (bad : (s.putHandshake (x.withH3 f)).h3Ok x h3 = false) :
    s.openFinish path session seq f = (s.putHandshake (x.withH3 f)).failHandshake x := by
  simp [State.openFinish, hm, hx, ha, hs, State.h3Fragment_whole hf hw, bad]

theorem State.openFinish_opens {e : Nat} (hm : s.mode ≠ 3) (hx : s.handshake .tsusen (session.setWidth 32) = some x)
    (ok : (s.putHandshake (x.withH3 f)).h3Ok x h3 = true)
    (he : negotiate x.lo x.hi (s.entry 0x1103 1) (s.entry 0x1103 2) = some e) :
    s.openFinish path session seq f = (s.putHandshake (x.withH3 f)).beginSession path seq x (x.keys h3) e := by
  have agreed : (s.putHandshake (x.withH3 f)).negotiated 0x1103 0 x = (s.putHandshake (x.withH3 f), some e) :=
    State.negotiated_ok (by simpa using he)
  simp [State.openFinish, hm, hx, ha, hs, State.h3Fragment_whole hf hw, ok, agreed]

theorem State.assocFinish_fails (hh : s.hosting = true) (hl : h.length.toNat = 4 + f.bytes.length)
    (hx : s.handshake .host h.assoc = some x) (bad : (s.putHandshake (x.withH3 f)).h3Ok x h3 = false) :
    s.assocFinish h f = (s.putHandshake (x.withH3 f)).failHandshake x := by
  simp [State.assocFinish, hh, hl, hx, ha, hs, State.h3Fragment_whole hf hw, bad]

theorem State.assocFinish_opens {e : Nat} (hh : s.hosting = true) (hl : h.length.toNat = 4 + f.bytes.length)
    (hx : s.handshake .host h.assoc = some x) (ok : (s.putHandshake (x.withH3 f)).h3Ok x h3 = true)
    (he : negotiate x.lo x.hi (max (if h.ipv6 then 2 else 0) (s.entry 0x1101 1)) (s.entry 0x1101 2) = some e) :
    s.assocFinish h f = (s.putHandshake (x.withH3 f)).beginAssoc h x (x.keys h3) e := by
  have agreed : (s.putHandshake (x.withH3 f)).negotiated 0x1101 (if h.ipv6 then 2 else 0) x
      = (s.putHandshake (x.withH3 f), some e) := State.negotiated_ok (by simpa using he)
  simp [State.assocFinish, hh, hl, hx, ha, hs, State.h3Fragment_whole hf hw, ok, agreed]

theorem State.frameH3_fails (hp : s.pathUp p = true) (hx : s.handshake p (n.setWidth 32) = some x)
    (bad : (s.putHandshake (x.withH3 f)).h3Ok x h3 = false) :
    s.frameH3 p n f = (s.putHandshake (x.withH3 f)).failHandshake x := by
  simp [State.frameH3, hp, hx, ha, hs, State.h3Fragment_whole hf hw, bad]

theorem State.frameH3_port {q : BitVec 3} {station : BitVec 48} (hp : s.pathUp (.port q station) = true)
    (hx : s.handshake (.port q station) (n.setWidth 32) = some x)
    (ok : (s.putHandshake (x.withH3 f)).h3Ok x h3 = true) :
    s.frameH3 (.port q station) n f
      = (((s.putHandshake (x.withH3 f)).ackHandshake x x.id 0 []).bump 0x9080 1 1).openChannel q.toNat station
          (x.keys h3) := by
  simp [State.frameH3, hp, hx, ha, hs, State.h3Fragment_whole hf hw, ok]

theorem State.frameH3_fabric {peer : W16} (hp : s.pathUp (.fabric peer) = true)
    (hx : s.handshake (.fabric peer) (n.setWidth 32) = some x)
    (ok : (s.putHandshake (x.withH3 f)).h3Ok x h3 = true) :
    s.frameH3 (.fabric peer) n f
      = (((s.putHandshake (x.withH3 f)).ackHandshake x x.id 0 []).bump 0x9080 1 1).acceptLink peer x (x.keys h3) := by
  simp [State.frameH3, hp, hx, ha, hs, State.h3Fragment_whole hf hw, ok]

end

/-- A message that is heard is served at once. -/
theorem State.Hears.takeMessage {m : MgmtPath} (t : s.Hears m) (msg : MgmtMsg) : s.takeMessage m msg = s.serveMessage msg :=
  State.takeMessage_now msg t.alive t.reached (State.storing_of_idle t.stored t.queued)

/-- Settles O45: path by path, whether H3 verifies, and what then opens; the list of handshakes is all that the fragment
itself changes. -/
theorem handshakesComplete : Obligations.HandshakesComplete := by
  unfold Obligations.HandshakesComplete
  intro s h f x session seq n16 m h3 e n q station peer total g u c ack fails ha hs hf hw
  refine ⟨fun t hm hx => ⟨fun bad => ?_, fun ok he hn => ?_⟩, fun hh hl hx => ⟨fun bad => ?_, fun ok he hn => ?_⟩,
    fun hp hx => ?_, fun hp hx => ⟨fun bad => ?_, fun ok => ?_⟩⟩
  · exact next_congr ((t.takeMessage _).trans (State.openFinish_fails ha hs hf hw hm hx bad))
  · have free : (List.range 16).find? (fun i => (u.session i).isNone) = some n := by simpa [u] using hn
    refine next_congr ((t.takeMessage _).trans ((State.openFinish_opens ha hs hf hw hm hx ok he).trans
      ((State.beginSession_free m seq _ e free).trans ?_)))
    simp only [u, State.putHandshake_entry, State.putHandshake_credOk, c, ack]
  · exact next_congr (State.assocFinish_fails ha hs hf hw hh hl hx bad)
  · have free : ((List.range 16).map (· + 1)).find? (fun i => !u.assocs.any (fun a => a.num.toNat == i)) = some n := by
      simpa only [u, State.putHandshake_assocs] using hn
    refine next_congr ((State.assocFinish_opens ha hs hf hw hh hl hx ok he).trans
      ((State.beginAssoc_free h _ e free).trans ?_))
    simp only [u, State.putHandshake_assocs, c, ack]
  · intro y v
    have up : s.pathUp (.port q station) = true := by simpa [State.pathUp] using hp
    have same : v.port q.toNat = y := by simp [v, u, y, State.ackHandshake]
    refine ⟨fun bad => next_congr (State.frameH3_fails ha hs hf hw up hx bad), fun ok first hn => ?_, fun d ok again => ?_⟩
    · rw [← same] at first hn ⊢
      exact next_congr ((State.frameH3_port ha hs hf hw up hx ok).trans (State.openChannel_first _ first hn))
    · rw [← same] at again ⊢
      exact next_congr ((State.frameH3_port ha hs hf hw up hx ok).trans (State.openChannel_again _ again))
  · exact next_congr (State.frameH3_fails ha hs hf hw hp hx bad)
  · exact next_congr (State.frameH3_fabric ha hs hf hw hp hx ok)

end Sys2Proof.Machine
end

section
/-! ### The supply, the reset pin and the state at reset -/

namespace Sys2Proof.Machine

variable {s : State}

/-- The answer to a deferred write changes what an answer changes (R401). -/
theorem State.defer_frame (s : State) (w : NvWork) :
    ∃ sessions tx dict, s.defer w = { s with sessions := sessions, tx := tx, dict := dict } := by
  cases w with
  | items q vs o =>
    cases o with
    | none => exact s.answer_frame ..
    | some n => exact s.answer_frame ..
  | keptDomain q key data => exact s.answer_frame ..
  | image q data => exact s.answer_frame ..
  | stopped => exact ⟨_, _, _, rfl⟩

theorem State.serveWaiting_of_none (hm : s.mgmtQ = []) : s.serveWaiting = s := by
  simp only [State.serveWaiting, hm, List.foldl_nil]
  rw [← hm]

theorem State.stopWrites_of_none (hq : s.nvQ = []) : s.stopWrites = s := by simp [State.stopWrites, hq]

/-- A write whose last batch has not started is stopped (R401): its batches are dropped, a batch in progress completes
nothing, and the write is answered. -/
theorem State.stopWrites_frame (hq : s.nvQ ≠ []) (hw : s.nvRun.isSome = true ∨ s.mgmtQ = []) :
    ∃ sessions tx dict, s.stopWrites = { s with
      nvQ := [], nvRun := s.nvRun.map (fun b => { b with work := .stopped })
      sessions := sessions, tx := tx, dict := dict } := by
  obtain ⟨b, rest, eq⟩ := List.exists_cons_of_ne_nil hq
  obtain ⟨ss, tx, dict, frame⟩ :=
    State.defer_frame { s with nvQ := [], nvRun := s.nvRun.map (fun r => { r with work := .stopped }) } b.work
  refine ⟨ss, tx, dict, ?_⟩
  simp only [State.stopWrites, eq, frame]
  split
  · rfl
  · next idle =>
    have nothing : s.mgmtQ = [] := hw.resolve_left (by simpa using idle)
    exact State.serveWaiting_of_none nothing

/-- The state in which an input loss stops the writes: its event is on its way, and the rails are off (R430). -/
def State.inputOff (s : State) : State :=
  { (s.event 0x2001 4 1).railsOff with supply := { s.supply with rails := false, pwrok := false, inputLost := true } }

/-- VAON goes with VIN48, once a batch in progress has completed (R430). -/
def State.vaonOff (s : State) : State :=
  let t : State := { s with supply := { s.supply with vaon := false, vhold := false, tripped := false } }
  if s.nvRun.isSome then { t with supply := { t.supply with resetAfterBatch := true } } else t.doReset

theorem State.inputLoss_eq (hv : s.supply.vaon = true) (off : Bool) :
    s.inputLoss off = if off then s.inputOff.stopWrites.vaonOff else s.inputOff.stopWrites := by
  have on : ¬ (!s.supply.vaon) = true := by simp [hv]
  cases off with
  | false => exact if_neg on
  | true => exact if_neg on

theorem State.vaonOff_of_idle (hr : s.nvRun = none) :
    s.vaonOff = ({ s with supply := { s.supply with vaon := false, vhold := false, tripped := false } } : State).doReset := by
  simp [State.vaonOff, hr]

/-- Settles O54: by the pin or the rail that changes, and by the batch in progress. -/
theorem supplyAndReset : Obligations.SupplyAndReset := by
  unfold Obligations.SupplyAndReset
  intro s kept lost
  have reset (p : Supply) : kept (s.afterReset p) := ⟨rfl, rfl, rfl, rfl, rfl, rfl⟩
  have empty (p : Supply) : lost (s.afterReset p) := ⟨rfl, rfl, rfl, rfl, rfl⟩
  refine ⟨fun hv hp => ?_, fun hv hw => ?_, fun hv hq hr => ?_, fun hv => ?_, fun hr => ?_, fun b hb => ?_, fun hv => ?_⟩
  · exact next_congr (by simp [State.powerGood, hv, hp])
  · have loss : s.inputLoss false = s.inputOff.stopWrites := State.inputLoss_eq hv false
    by_cases hq : s.nvQ = []
    · rw [State.stopWrites_of_none (s := s.inputOff) hq] at loss
      exact ⟨s.inputOff, next_congr loss, rfl, ⟨rfl, rfl, rfl, rfl, rfl⟩, ⟨rfl, rfl, rfl, rfl, rfl, rfl⟩, hq,
        fun _ => ⟨rfl, rfl⟩, fun ne => absurd hq ne, rfl⟩
    · obtain ⟨ss, tx, dict, frame⟩ := State.stopWrites_frame (s := s.inputOff) hq (hw.resolve_left hq)
      exact ⟨_, next_congr (loss.trans frame), rfl, ⟨rfl, rfl, rfl, rfl, rfl⟩, ⟨rfl, rfl, rfl, rfl, rfl, rfl⟩, rfl,
        fun nothing => absurd nothing hq, fun _ => rfl, rfl⟩
  · have loss : s.inputLoss true = s.inputOff.stopWrites.vaonOff := State.inputLoss_eq hv true
    rw [State.stopWrites_of_none (s := s.inputOff) hq, State.vaonOff_of_idle (s := s.inputOff) hr] at loss
    exact ⟨_, next_congr loss, rfl, rfl, rfl, rfl, ⟨rfl, rfl, rfl, rfl, rfl⟩, ⟨rfl, rfl, rfl, rfl, rfl, rfl⟩, rfl⟩
  · exact next_congr (if_pos hv)
  · refine ⟨s.doReset, next_congr (by simp [State.resetPin, hr]), reset _, empty _, rfl, rfl, rfl, rfl, rfl, rfl, rfl⟩
  · exact next_congr (by simp [State.resetPin, hb])
  · exact ⟨_, next_congr (if_neg (ne_true_of_eq_false hv)), rfl, rfl, rfl, rfl, reset _, rfl⟩

/-- Settles O57: every part of the state at reset is written out there, and nothing is listed. -/
theorem resetState : Obligations.ResetState := by
  unfold Obligations.ResetState
  refine ⟨fun index sub => rfl, rfl, rfl, rfl, rfl, rfl, fun n => ⟨rfl, rfl⟩, fun s idle => ?_⟩
  simp only [step, idle]

end Sys2Proof.Machine
end

section
/-! ### The canonical forms over a step -/

namespace Sys2Proof.Machine

/-- Settles O59: an operation that keeps each part of the canonical form keeps all of it, and a step is at most one command. -/
theorem stepKeepsCanonical : Obligations.StepKeepsCanonical := by
  unfold Obligations.StepKeepsCanonical
  intro s t hs ht
  have keeps := step_keeps ht
  simp only [State.canonical, Bool.and_eq_true] at hs ⊢
  obtain ⟨⟨⟨⟨mem, check⟩, counters⟩, cores⟩, ctxs⟩ := hs
  exact ⟨⟨⟨⟨keeps.mem mem, keeps.check check⟩, keeps.counters counters⟩, keeps.cores cores⟩, keeps.ctxs ctxs⟩

end Sys2Proof.Machine
end

section
/-! ### Registers, and the scalar slots

Reads after writes of a core's registers, what a ready bundle does as it arrives, and the statements of the S slots. -/

namespace Sys2Proof.Machine

/-! ### Registers after a write -/

@[simp] theorem CoreState.getG_zero (k : CoreState) : k.getG 0 = 0 := rfl

@[simp] theorem CoreState.setG_zero (k : CoreState) (v : W64) : k.setG 0 v = k := rfl

@[simp] theorem CoreState.getP_zero (k : CoreState) : k.getP 0 = true := rfl

@[simp] theorem CoreState.setP_zero (k : CoreState) (b : Bool) : k.setP 0 b = k := rfl

/-- A register other than g0 reads back what was written; the others keep what they hold. -/
theorem CoreState.getG_setG {r : BitVec 6} (k : CoreState) (hr : r ≠ 0) (v : W64) (q : BitVec 6) :
    (k.setG r v).getG q = if q = r then v else k.getG q := by
  simp only [CoreState.getG, CoreState.setG, if_neg hr, cell_putCell, BitVec.toNat_inj]
  by_cases hq : q = r
  · subst hq; rw [if_neg hr, if_pos rfl, if_pos rfl]
  · rw [if_neg hq, if_neg hq]

/-- Bit `j` of a word whose bit `i` is replaced. -/
theorem getLsbD_replaceBit (p : BitVec 16) (i j : BitVec 4) (b : Bool) :
    ((p &&& ~~~((1 : BitVec 16) <<< i.toNat)) ||| (if b then (1 : BitVec 16) <<< i.toNat else 0)).getLsbD j.toNat
      = if j = i then b else p.getLsbD j.toNat := by
  have hj := j.isLt
  have bit : ((1 : BitVec 16) <<< i.toNat).getLsbD j.toNat = decide (j = i) := by
    simp only [BitVec.getLsbD_shiftLeft, ← BitVec.toNat_inj]
    by_cases e : j.toNat = i.toNat
    · simp [e]; omega
    · simp [e]; omega
  have wide : j.toNat < 16 := hj
  have parts : ((p &&& ~~~((1 : BitVec 16) <<< i.toNat))
        ||| (if b then (1 : BitVec 16) <<< i.toNat else 0)).getLsbD j.toNat
      = ((p.getLsbD j.toNat && !decide (j = i)) || (b && decide (j = i))) := by
    cases b <;> simp only [BitVec.getLsbD_or, BitVec.getLsbD_and, BitVec.getLsbD_not, Bool.false_eq_true, if_true, if_false,
      bit, wide] <;> simp
  rw [parts]
  by_cases e : j = i <;> simp [e]

/-- A predicate other than p0 reads back what was written; the others keep what they hold. -/
theorem CoreState.getP_setP {i : BitVec 4} (k : CoreState) (hi : i ≠ 0) (b : Bool) (j : BitVec 4) :
    (k.setP i b).getP j = if j = i then b else k.getP j := by
  simp only [CoreState.getP, CoreState.setP, if_neg hi, getLsbD_replaceBit]
  by_cases hj : j = i
  · subst hj; rw [if_pos rfl, if_pos rfl, beq_false_of_ne hi, Bool.false_or]
  · rw [if_neg hj, if_neg hj]

/-- Settles O5: g0 and p0 have cases of their own in every read and write. -/
theorem registerZero : Obligations.RegisterZero := by
  unfold Obligations.RegisterZero
  intro k r q v i j b
  refine ⟨rfl, rfl, rfl, rfl, fun hr => ?_, fun hq => ?_, fun hi => ?_, fun hj => ?_⟩
  · rw [k.getG_setG hr, if_pos rfl]
  · by_cases hr : r = 0
    · subst hr; rfl
    · rw [k.getG_setG hr, if_neg hq]
  · rw [k.getP_setP hi, if_pos rfl]
  · by_cases hi : i = 0
    · subst hi; rfl
    · rw [k.getP_setP hi, if_neg hj]

/-! ### The results of the S slots -/

theorem cmpNe_eq (a b : W64) : cmpNe a b = decide (a ≠ b) := by
  by_cases e : a = b <;> simp [cmpNe, e]

/-- Where equal operands are as good as each other, a strict comparison chooses what a weak one does. -/
theorem if_slt_eq_if_le {a b x y : W64} (same : a = b → x = y) :
    (if a.slt b then x else y) = if a.toInt ≤ b.toInt then x else y := by
  simp only [BitVec.slt_iff_toInt_lt]
  rcases lt_trichotomy a.toInt b.toInt with lt | eq | gt
  · rw [if_pos lt, if_pos lt.le]
  · rw [same (BitVec.eq_of_toInt_eq eq), ite_self, ite_self]
  · rw [if_neg gt.not_gt, if_neg (not_le.2 gt)]

/-- Settles O2: each slot writes the one register or predicate that its row names. -/
theorem scalarResults : Obligations.ScalarResults := by
  unfold Obligations.ScalarResults
  refine ⟨fun s h f => ?_, fun s h f => ?_⟩
  · refine ⟨fun a => gives_reg _ _ a rfl rfl, fun a => gives_reg _ _ a rfl rfl, fun a => gives_reg _ _ a rfl rfl,
      fun a => gives_reg _ _ a rfl rfl, fun a => gives_reg _ _ a rfl rfl, fun a => gives_reg _ _ a rfl rfl,
      fun a => gives_reg _ _ a rfl rfl, fun a => gives_reg _ _ a rfl rfl, fun a => gives_reg _ _ a rfl rfl,
      fun a => ?_, fun a => ?_⟩
    · rw [← if_slt_eq_if_le id]; exact gives_reg _ _ a rfl rfl
    · rw [← if_slt_eq_if_le Eq.symm]; exact gives_reg _ _ a rfl rfl
  · refine ⟨fun a => gives_pred _ _ a rfl rfl, fun a => ?_, fun a => gives_pred _ _ a rfl rfl,
      fun a => gives_pred _ _ a rfl rfl, fun a => gives_pred _ _ a rfl rfl, fun a => gives_pred _ _ a rfl rfl⟩
    rw [← cmpNe_eq]; exact gives_pred _ _ a rfl rfl

end Sys2Proof.Machine
end

section
/-! ### Bundles that arrive

What a slot that completes its bundle does: the bundle issues, takes its fault, is held, or passes; and the statements
of staging, of scalar memory, of waits and of jumps. -/

namespace Sys2Proof.Machine

variable {s : State} {h : SlotAt} {op : SlotOp}

/-! ### Staging -/

/-- A slot is one of a bundle that its core can take: the core is enabled, a context stands on it, and the operation has
such a slot. -/
structure State.Stages (s : State) (h : SlotAt) (op : SlotOp) : Prop where
  enabled : s.coreEnabled (coreOf h) = true
  context : (s.core (coreOf h)).ctx.isSome = true
  slot : op.slotOk h.slot.toNat = true

/-- Another slot of the bundle is still to come. -/
theorem State.Stages.more (t : s.Stages h op) (last : h.last = false) :
    s.stage h op = s.setCore (coreOf h)
      { s.core (coreOf h) with staged := putSlot (slotOf h op) (s.core (coreOf h)).staged } := by
  have enabled : s.coreEnabled h.core.toNat = true := t.enabled
  have context : (s.core h.core.toNat).ctx.isNone = false := by
    rw [← Option.not_isSome, show (s.core h.core.toNat).ctx.isSome = true from t.context]; rfl
  simp [State.stage, enabled, context, t.slot, last, slotOf, coreOf]

/-- The bundle's only slot has come: the bundle stands at the head of its core's empty queue, and issues if it can. -/
theorem State.Stages.only (t : s.Stages h op) (last : h.last = true) (staged : (s.core (coreOf h)).staged = [])
    (queue : (s.core (coreOf h)).issueQ = []) :
    s.stage h op = (s.setCore (coreOf h) { s.core (coreOf h) with issueQ := [[slotOf h op]] }).pump (coreOf h) := by
  have enabled : s.coreEnabled h.core.toNat = true := t.enabled
  have context : (s.core h.core.toNat).ctx.isNone = false := by
    rw [← Option.not_isSome, show (s.core h.core.toNat).ctx.isSome = true from t.context]; rfl
  have staged : (s.core h.core.toNat).staged = [] := staged
  have queue : (s.core h.core.toNat).issueQ = [] := queue
  simp [State.stage, enabled, context, t.slot, last, staged, queue, slotOf, coreOf, putSlot]

/-- A core that issues has a context. -/
theorem State.ctx_isSome_of_issuing {n : Nat} (i : s.issuing n = true) : (s.core n).ctx.isSome = true := by
  cases c : (s.core n).ctx with
  | none => simp [State.issuing, c] at i
  | some _ => rfl

theorem State.Ready.stages (r : s.Ready h op) : s.Stages h op :=
  ⟨r.enabled, s.ctx_isSome_of_issuing r.issuing, r.slot⟩

/-! ### Issue -/

/-- The head of a core's queue, when nothing makes it wait. -/
theorem State.issueNext_free {n : Nat} {b : List Slot} {rest : List (List Slot)} (i : s.issuing n = true)
    (pc : (s.core n).pc < 2048) (q : (s.core n).issueQ = b :: rest) (free : s.bundleWaits n b = false) :
    s.issueNext n = some ((s.onCore n (fun k => { k with issueQ := rest })).issueBundle n b) := by
  unfold State.issueNext
  simp [i, q, free, Nat.not_le.2 pc]

/-- A bundle that waits does not issue. -/
theorem State.issueNext_waits {n : Nat} {b : List Slot} {rest : List (List Slot)} (pc : (s.core n).pc < 2048)
    (q : (s.core n).issueQ = b :: rest) (waits : s.bundleWaits n b = true) : s.issueNext n = none := by
  unfold State.issueNext
  simp [q, waits, Nat.not_le.2 pc]

/-- A bundle that is held by anything but a full queue waits for no engine. -/
theorem State.noteWait_held {n : Nat} {b : List Slot} {rest : List (List Slot)} (q : (s.core n).issueQ = b :: rest)
    (held : b.any (s.slotHeld n (s.core n)) = true) : s.noteWait n = s := by
  simp [State.noteWait, State.mediaWait, q, held]

/-- A core's record put in place of itself but for its queue. -/
theorem CoreState.with_queue (k : CoreState) (hs : k.staged = []) (q : List (List Slot)) :
    ({ k with issueQ := q } : CoreState) = { k with staged := [], issueQ := q } := by rw [← hs]

/-- A ready bundle issues as it arrives, on the state with its core's record listed. -/
theorem State.Ready.stage_eq (r : s.Ready h op)
    (quiet : (((s.setCore (coreOf h) (s.core (coreOf h))).issueBundle (coreOf h) [slotOf h op]).core
      (coreOf h)).quiet = true) :
    s.stage h op = (s.setCore (coreOf h) (s.core (coreOf h))).issueBundle (coreOf h) [slotOf h op] := by
  have pc := r.inStore
  rw [r.stages.only r.last r.staged r.queue, CoreState.with_queue _ r.staged, State.pump, State.core_setCore_self]
  have next := State.issueNext_free
    (s := s.setCore (coreOf h) { s.core (coreOf h) with staged := [], issueQ := [[slotOf h op]] }) (n := coreOf h)
    (b := [slotOf h op]) (rest := []) (by rw [State.issuing_setCore]; exact r.issuing) (by simp; omega) (by simp)
    (by rw [State.bundleWaits_setCore]; exact r.free)
  have back : ({ s.core (coreOf h) with staged := [], issueQ := [] } : CoreState) = s.core (coreOf h) := by
    rw [← CoreState.with_queue _ r.staged, ← r.queue]
  rw [State.onCore_setCore, back] at next
  simp only [List.length_cons, List.length_nil]
  rw [State.pumpN, next]
  dsimp only
  rw [State.pumpN, State.issueNext_quiet _ _ quiet, State.noteWait_quiet _ _ quiet]

/-- The faults of a bundle of one slot. -/
theorem State.bundleFaults_single (s : State) (n : Nat) (x : Slot) :
    s.bundleFaults n [x]
      = ((s.slotFault n x ((s.core n).guard x.pred x.pneg)).map (fun c => (x.num, c))).toList := by
  have clash : clashes [x] x = false := by simp [clashes]
  cases c : s.slotFault n x ((s.core n).guard x.pred x.pneg) <;>
    simp [State.bundleFaults, State.slotCause, clash, c]

/-- A ready bundle whose slot has a cause of a fault takes that fault, and its slot does nothing (R73). -/
theorem State.Ready.stage_fault (r : s.Ready h op) {c : Cause}
    (cause : s.slotFault (coreOf h) (slotOf h op) ((s.core (coreOf h)).guard h.pred h.pneg) = some c) :
    let taken := (s.setCore (coreOf h) (s.core (coreOf h))).faultAtIssue (coreOf h)
      { code := c.1, detail := c.2, slot := h.slot.toNat, bundle := (s.core (coreOf h)).pc, more := 0 }
    (taken.core (coreOf h)).quiet = true → s.stage h op = taken := by
  intro taken quiet
  have faults : s.bundleFaults (coreOf h) [slotOf h op] = [(h.slot.toNat, c)] := by
    rw [State.bundleFaults_single, show (slotOf h op).pred = h.pred from rfl, show (slotOf h op).pneg = h.pneg from rfl, cause]
    rfl
  have issue : (s.setCore (coreOf h) (s.core (coreOf h))).issueBundle (coreOf h) [slotOf h op] = taken := by
    simp only [State.issueBundle, State.bundleFaults_listed, faults, List.isEmpty_cons, Bool.false_eq_true, if_false,
      State.issueFault, State.core_setCore_self, preciseFault, List.length_nil, taken]
  rw [r.stage_eq (by rw [issue]; exact quiet), issue]

/-- A ready bundle whose slot's guard does not hold takes its place in the program and does nothing else (R54). -/
theorem State.Ready.stage_off (r : s.Ready h op) (off : (s.core (coreOf h)).guard h.pred h.pneg = false)
    (legal : s.slotFault (coreOf h) (slotOf h op) false = none) : s.stage h op = s.passed (coreOf h) := by
  have off' : (s.core (coreOf h)).guard (slotOf h op).pred (slotOf h op).pneg = false := off
  have faults : s.bundleFaults (coreOf h) [slotOf h op] = [] := by
    rw [State.bundleFaults_single, off', legal]; rfl
  rw [s.stage_issue h op r faults (by simpa [off'] using r.quiet_next)]
  simp [off']

/-- A complete bundle that must wait stands at the head of its core's queue (R65). -/
theorem State.Stages.held (t : s.Stages h op) (last : h.last = true) (staged : (s.core (coreOf h)).staged = [])
    (queue : (s.core (coreOf h)).issueQ = []) (pc : (s.core (coreOf h)).pc < 2048)
    (held : s.slotHeld (coreOf h) (s.core (coreOf h)) (slotOf h op) = true) :
    s.stage h op = s.setCore (coreOf h) { s.core (coreOf h) with issueQ := [[slotOf h op]] } := by
  rw [t.only last staged queue, CoreState.with_queue _ staged]
  generalize hu : s.setCore (coreOf h) { s.core (coreOf h) with staged := [], issueQ := [[slotOf h op]] } = u
  have queued : (u.core (coreOf h)).issueQ = [[slotOf h op]] := by rw [← hu]; simp
  have held' : [slotOf h op].any (u.slotHeld (coreOf h) (u.core (coreOf h))) = true := by
    rw [← hu, State.core_setCore_self, List.any_cons, State.slotHeld_setCore, held, Bool.true_or]
  have waits : u.bundleWaits (coreOf h) [slotOf h op] = true := by
    simp only [List.any_cons, List.any_nil, Bool.or_false] at held'
    simp [State.bundleWaits, State.slotWaits, held']
  rw [State.pump, State.pumpN, State.issueNext_waits (by rw [← hu]; simpa using pc) queued waits]
  exact State.noteWait_held queued held'

/-- Settles O6: a slot that is not the last is put among those staged; a bundle whose one slot has no guard passes. -/
theorem bundlesGather : Obligations.BundlesGather := by
  unfold Obligations.BundlesGather
  refine ⟨fun i s h op slot last enabled context ok => ?_, fun i s h op slot ready off legal => ?_⟩
  · rw [exec_slot slot, State.Stages.more ⟨enabled, context, ok⟩ last]
  · have issued := s.issued_more (coreOf h) id id (fun _ => rfl)
    rw [State.passed_listed] at issued
    exact ⟨_, (exec_slot slot s).trans (next_congr (ready.stage_off off legal)), issued⟩

/-! ### Scalar memory (R62) -/

theorem scalarOk_iff (a : W64) : scalarOk a = true ↔ a.toNat % 8 = 0 ∧ a.toNat < 65536 := by
  simp [scalarOk]

/-- Settles O3: by whether the address is a legal one. -/
theorem scalarMemory : Obligations.ScalarMemory := by
  unfold Obligations.ScalarMemory
  refine ⟨fun s h f => ?_, fun s h f => ?_⟩
  · intro k a aligned inside on
    have ok : scalarOk (k.scalarAddr f) = true := (scalarOk_iff _).2 ⟨aligned, inside⟩
    refine ⟨fun r => gives_reg _ _ ⟨r, on, ?_⟩ rfl rfl, fun r => ?_⟩
    · simp [State.slotFault, slotOf, causeOf, ok, k]
    · exact gives_acts (fun q => q.setScalar (k.scalarAddr f).toNat (k.getG f.srcB)) id
        ⟨r, on, by simp [State.slotFault, slotOf, causeOf, ok, k]⟩ rfl rfl (fun _ => rfl) r.quiet_next
  · intro n k a taken bad on quiet
    have no : scalarOk (k.scalarAddr f) = false := eq_false_of_ne_true (fun ok => bad ((scalarOk_iff _).1 ok))
    refine ⟨fun r => next_congr (r.stage_fault (c := ill 4) ?_ quiet), fun r => next_congr (r.stage_fault (c := ill 4) ?_ quiet)⟩
    · rw [on]; simp [State.slotFault, slotOf, causeOf, no, k, n]
    · rw [on]; simp [State.slotFault, slotOf, causeOf, no, k, n]

end Sys2Proof.Machine
end

section
/-! ### System values, waits and jumps -/

namespace Sys2Proof.Machine

variable {s : State} {h : SlotAt} {op : SlotOp}

/-! ### System values (R59) -/

@[simp] theorem State.ctx_passed (s : State) (n c : Nat) : (s.passed n).ctx c = s.ctx c := by
  simp [State.passed, State.coreBump]

@[simp] theorem State.free_passed (s : State) (n : Nat) : (s.passed n).free = s.free := by
  simp [State.passed, State.coreBump]

/-- A selector below 7 reads the core and its context, and the slot writes what it reads. -/
theorem gives_sys {f : SFields} {v : W64} (a : s.Acts h (.sys f)) (timed : f.imm ≠ 7)
    (value : (s.passed (coreOf h)).sysValue (coreOf h) f.imm.toNat = v) :
    Gives (.sSys h f) s h ((s.core (coreOf h)).next.setG f.dst v) := by
  refine gives_reg f.dst v a rfl ?_
  simp only [State.effect, slotOf, State.doSys, if_neg timed, value]

/-- Selector 7 reads the cycles, a free value. -/
theorem gives_cycles {f : SFields} (a : s.Acts h (.sys f)) (timed : f.imm = 7) :
    Gives (.sSys h f) s h ((s.core (coreOf h)).next.setG f.dst (Config.freeBits 64 s.free)) State.usedFree := by
  refine gives_acts (fun k => k.setG f.dst (Config.freeBits 64 s.free)) State.usedFree a rfl ?_ (fun _ => rfl)
    (by rw [CoreState.quiet_setG]; exact a.quiet_next)
  simp only [State.effect, slotOf, State.doSys, timed, if_true, State.putReg]
  have value : (s.passed (coreOf h)).sysValue (coreOf h) (7#64).toNat = Config.freeBits 64 s.free := by
    simp [State.sysValue, State.freeVal]
  simp only [BitVec.ofNat_eq_ofNat, value]
  rfl

theorem ofNat_polderOf (c : W12) : BitVec.ofNat 64 (polderOf c.toNat) = (c.extractLsb' 8 4).setWidth 64 := by
  apply BitVec.eq_of_toNat_eq
  have := c.isLt
  simp [polderOf, Nat.shiftRight_eq_div_pow]

/-- Settles O4: selector by selector. -/
theorem scalarSystemValues : Obligations.ScalarSystemValues := by
  unfold Obligations.ScalarSystemValues
  intro s h f c n k context a
  have context : (s.core (coreOf h)).ctx = some c := context
  refine ⟨fun e => gives_sys a (by rw [e]; decide) ?_, fun e => gives_sys a (by rw [e]; decide) ?_,
    fun e => gives_sys a (by rw [e]; decide) ?_, fun e => gives_sys a (by rw [e]; decide) ?_,
    fun e => gives_sys a (by rw [e]; decide) ?_, fun e => gives_sys a (by rw [e]; decide) ?_,
    fun e => gives_sys a (by rw [e]; decide) ?_, gives_cycles a⟩ <;> rw [e] <;>
    simp [State.sysValue, CoreState.next, context, n, k, siteOf, ofNat_polderOf]

/-! ### Waits and fences (R65) -/

/-- A slot that acts is not held. -/
theorem State.Acts.not_held (a : s.Acts h op) :
    s.slotHeld (coreOf h) (s.core (coreOf h)) (slotOf h op) = false := by
  have free := a.free
  simp only [State.bundleWaits, State.slotWaits, List.any_cons, Bool.or_eq_false_iff] at free
  exact free.2.1.1

/-- A slot that acts names no tag that is held, and its unit is not busy. -/
theorem State.Acts.units (a : s.Acts h op) :
    (∀ t, op.tag = some t → (s.core (coreOf h)).tagHeld t = false)
      ∧ (s.core (coreOf h)).unitBusy (slotOf h op) = false := by
  have guard : (s.core (coreOf h)).guard (slotOf h op).pred (slotOf h op).pneg = true := a.guard
  have free := a.not_held
  simp only [State.slotHeld, guard, Bool.true_and, Bool.or_eq_false_iff] at free
  obtain ⟨⟨⟨-, tag⟩, -⟩, unit⟩ := free
  refine ⟨fun t named => ?_, unit⟩
  have named : (slotOf h op).op.tag = some t := named
  simpa [named] using tag

/-- A fence that acts finds no tag held. -/
theorem State.Acts.fence_free {f : XFields} (a : s.Acts h (.fence f)) :
    ∀ o ∈ (s.core (coreOf h)).ops, o.tag = none := by
  have unit := a.units.2
  simp only [CoreState.unitBusy, slotOf, Bool.or_eq_false_iff, List.any_eq_false] at unit
  intro o ho
  simpa using unit.2 o ho

/-- Settles O8: a slot that acts was held by nothing; a slot whose tag is held is held. -/
theorem waitsPassOrHold : Obligations.WaitsPassOrHold := by
  unfold Obligations.WaitsPassOrHold
  refine ⟨fun s h a m x => ?_, fun i s h op t => ?_⟩
  · intro k
    exact ⟨fun acts => ⟨acts.units.1 _ rfl, gives_pass acts rfl rfl⟩, fun acts => ⟨acts.units.1 _ rfl, gives_pass acts rfl rfl⟩,
      fun acts => ⟨acts.units.1 _ rfl, gives_pass acts rfl rfl⟩, fun acts => ⟨acts.fence_free, gives_pass acts rfl rfl⟩⟩
  · intro n k slot enabled issuing staged queue pc ok last guard named tag
    have stages : s.Stages h op := ⟨enabled, s.ctx_isSome_of_issuing issuing, ok⟩
    have guard' : (s.core (coreOf h)).guard (slotOf h op).pred (slotOf h op).pneg = true := guard
    have named' : (slotOf h op).op.tag = some t := named
    refine (exec_slot slot s).trans (next_congr (stages.held last staged queue pc ?_))
    simp [State.slotHeld, guard', named', show (s.core (coreOf h)).tagHeld t = true from tag]

/-! ### Jumps (R57) -/

/-- A slot that sends its core to a bundle of the store. -/
theorem gives_jump {i : Instr} (a : s.Acts h op) (f : CoreState → CoreState) (slot : slotCommand i = some (h, op))
    (he : (s.passed (coreOf h)).effect (coreOf h) (s.core (coreOf h)) (s.core (coreOf h)).pc (slotOf h op)
      = (s.passed (coreOf h)).onCore (coreOf h) f)
    (queue : (f (s.core (coreOf h)).next).issueQ = (s.core (coreOf h)).issueQ) (target : BitVec 11)
    (pc : (f (s.core (coreOf h)).next).pc = target.toNat) : Gives i s h (f (s.core (coreOf h)).next) :=
  gives_acts f id a (exec_slot slot s) he (fun _ => rfl) (by
    have := target.isLt
    simp [CoreState.quiet, queue, a.queue, pc]
    omega)

/-- Settles O16: each of the four slots writes the bundle address, and calls and returns the stack as well. -/
theorem jumps : Obligations.Jumps := by
  unfold Obligations.Jumps
  intro s h f k
  refine ⟨fun a => ?_, fun a => ?_, fun a => ⟨?_, ?_⟩, fun r rest stack a => ?_⟩
  · exact gives_jump a (fun q => { q with pc := f.target.toNat }) rfl rfl rfl f.target rfl
  · exact gives_jump a (fun q => { q with pc := f.target.toNat }) rfl rfl rfl f.target rfl
  · have legal := a.legal
    simp only [State.slotFault, slotOf, causeOf, Bool.true_and] at legal
    split at legal
    · exact absurd legal (by simp)
    · next small => simpa using small
  · have inStore : (s.core (coreOf h)).pc ≠ 2047 := by have := a.inStore; omega
    refine gives_jump a (fun q => { q with pc := f.target.toNat, calls := BitVec.ofNat 11 (k.pc + 1) :: q.calls }) rfl ?_
      rfl f.target rfl
    simp only [State.effect, slotOf, State.doCall, if_neg inStore, k]
  · have stack : (s.core (coreOf h)).calls = r :: rest := stack
    refine gives_jump a (fun q => { q with pc := r.toNat, calls := rest }) rfl ?_ rfl r rfl
    simp [State.effect, slotOf, stack]

end Sys2Proof.Machine
end

section
/-! ### Operations that take more than one cycle

How they begin, how they end, and what serves them: barriers, work counters and exchanges. -/

namespace Sys2Proof.Machine

variable {s : State} {h : SlotAt} {op : SlotOp}

/-! ### Operations that begin -/

/-- The table of a descriptor is the 35 words from it (R78). -/
theorem CoreState.table_eq (k : CoreState) (desc : BitVec 13) : k.table desc = cells k.sstore desc.toNat 35 := by
  rw [CoreState.table, CoreState.scalars, Nat.mul_div_cancel_left _ (by decide)]

/-- Settles O7: `A.LOOP` changes its generator; each other slot begins the operation of its row. -/
theorem operationsBegin : Obligations.OperationsBegin := by
  unfold Obligations.OperationsBegin
  refine ⟨fun s h f w => ?_, fun s h => ?_⟩
  · intro k a bound
    refine gives_acts (fun q => { q.atPos [f.ag.toNat] 0 with ag := tblPut q.ag f.ag.toNat w }) id a rfl ?_ (fun _ => rfl)
      a.quiet_next
    have bound : (s.core (coreOf h)).bound f = some w := by rw [CoreState.bound, CoreState.table_eq]; exact bound
    simp only [State.effect, slotOf, bound]
    rfl
  · intro k begins update
    have starts {i : Instr} {o : SlotOp} {tag : BitVec 4} {op : Op} (slot : slotCommand i = some (h, o)) he :
        begins i o tag op := fun a => gives_begin tag op a (exec_slot slot s) he
    exact ⟨fun f => ⟨starts rfl rfl, starts rfl rfl, starts rfl rfl⟩,
      fun f => ⟨starts rfl rfl, starts rfl rfl, starts rfl rfl, starts rfl rfl⟩, fun f => starts rfl rfl,
      fun f => ⟨starts rfl rfl, starts rfl rfl, starts rfl rfl⟩, fun f => ⟨starts rfl rfl, starts rfl rfl, starts rfl rfl⟩⟩

/-! ### Cores with nothing to issue -/

/-- Cores that have nothing to issue issue nothing. -/
theorem State.pumpCores_quiet {cs : List Nat} (quiet : ∀ n ∈ cs, (s.core n).quiet = true) : s.pumpCores cs = s := by
  have none_issues : cs.any s.issues = false := by
    rw [List.any_eq_false]
    intro n hn
    have q := quiet n hn
    simp only [CoreState.quiet, Bool.and_eq_true, List.isEmpty_iff, decide_eq_true_eq] at q
    simp [State.issues, q.1, Nat.not_le.2 q.2]
  have still (m : Nat) : State.cycles cs m s = s := by
    cases m with
    | zero => rfl
    | succ m => rw [State.cycles, none_issues]; rfl
  rw [State.pumpCores, still]
  clear none_issues still
  induction cs with
  | nil => rfl
  | cons n cs ih =>
    rw [List.foldl_cons, State.noteWait_quiet _ _ (quiet n List.mem_cons_self)]
    exact ih (fun m hm => quiet m (List.mem_cons_of_mem _ hm))

/-! ### A change of several cores -/

/-- A change of cores one after another, by each core's number, leaves the rest of the state. -/
theorem State.foldl_onCore_rest (f : Nat → CoreState → CoreState) (cs : List Nat) (s : State) :
    cs.foldl (fun s n => s.onCore n (f n)) s = { s with cores := (cs.foldl (fun s n => s.onCore n (f n)) s).cores } := by
  induction cs generalizing s with
  | nil => rfl
  | cons n cs ih => exact ih (s.onCore n (f n))

/-- In a fold that changes one core at each step, each core is changed as if it were changed alone, when changing it twice
is changing it once. -/
theorem State.core_foldl {f : Nat → CoreState → CoreState} {g : State → Nat → State}
    (step : ∀ s n m, (g s n).core m = (s.onCore n (f n)).core m) (once : ∀ n k, f n (f n k) = f n k) (cs : List Nat)
    (s : State) (m : Nat) : (cs.foldl g s).core m = if m ∈ cs then f m (s.core m) else s.core m := by
  induction cs generalizing s with
  | nil => rfl
  | cons n cs ih =>
    rw [List.foldl_cons, ih, step, State.core_onCore]
    by_cases e : n = m
    · subst e; simp [once]
    · have e' : m ≠ n := fun x => e x.symm
      simp [e, e', List.mem_cons]

/-! ### Barriers (R68 to R70) -/

/-- Settles O17: the two slots change their core's hold; a barrier by whether all of its cores have arrived. -/
theorem barriersAndHalt : Obligations.BarriersAndHalt := by
  unfold Obligations.BarriersAndHalt
  refine ⟨fun s h f => ⟨fun a => ?_, fun a => ?_⟩, fun s ctx scope site => ?_⟩
  · exact gives_acts (fun q => { q with hold := .barrier f.scope }) id a rfl rfl (fun _ => rfl) a.quiet_next
  · exact gives_acts (fun q => { q with hold := .halted }) (fun u => u.event (coreIndex (coreOf h) 2) 3 1) a rfl rfl
      (fun _ => rfl) a.quiet_next
  intro cs
  refine ⟨fun runs some_core arrived => ?_, fun late => ?_⟩
  · have all : cs.all (fun n => s.arrived' n scope) = true := List.all_eq_true.2 (fun n hn => (arrived n hn).1)
    let letGo (_ : Nat) (k : CoreState) : CoreState := { k with hold := .none }
    let t := cs.foldl (fun s n => s.onCore n (letGo n)) s
    have core := State.core_foldl (f := letGo) (fun _ _ _ => rfl) (fun _ _ => rfl) cs s
    have released : s.releaseBarrier ctx.toNat scope site.toNat = t.pumpCores cs := by
      have go : (s.ctx ctx.toNat).state = 3 ∧ (!cs.isEmpty) = true ∧ cs.all (fun n => s.arrived' n scope) = true :=
        ⟨runs, by simpa using some_core, all⟩
      exact if_pos go
    have quiet : ∀ n ∈ cs, (t.core n).quiet = true := by
      intro n hn
      rw [core, if_pos hn]
      exact (arrived n hn).2
    refine ⟨t, next_congr (released.trans (State.pumpCores_quiet quiet)), fun n hn => ?_, fun n hn => ?_,
      State.foldl_onCore_rest ..⟩
    · rw [core, if_pos hn]
    · rw [core, if_neg hn]
  · obtain ⟨n, hn, absent⟩ := late
    refine next_congr (if_neg (fun go => ?_))
    have := List.all_eq_true.1 go.2.2 n hn
    simp [absent] at this

end Sys2Proof.Machine
end

section
/-! ### Work counters, exchanges and the ends of operations -/

namespace Sys2Proof.Machine

variable {s : State} {h : SlotAt} {op : SlotOp}

/-! ### Cores that stay quiet -/

@[simp] theorem CoreState.quiet_without (k : CoreState) (a : AsyncOp) : (k.without a).quiet = k.quiet := rfl

@[simp] theorem CoreState.quiet_freeTag (k : CoreState) (t : Nat) : (k.freeTag t).quiet = k.quiet := rfl

@[simp] theorem CoreState.quiet_putWs (k : CoreState) (a : Nat) (bs : List Byte) : (k.putWs a bs).quiet = k.quiet := rfl

/-! ### Work counters (R71, R72) -/

theorem State.coreCtx_numbered (s : State) (n : Nat) : s.numbered.coreCtx n = s.coreCtx n := rfl

/-- A slot that sends a request for a work counter: its operation begins, and the request joins its controller's queue. -/
theorem gives_ask {i : Instr} {f : XFields} {c : W12} (set : Bool) (a : s.Acts h op)
    (slot : slotCommand i = some (h, op)) (context : (s.core (coreOf h)).ctx = some c)
    (he : (s.passed (coreOf h)).effect (coreOf h) (s.core (coreOf h)) (s.core (coreOf h)).pc (slotOf h op)
      = ((s.passed (coreOf h)).begin (coreOf h) (slotOf h op) (s.core (coreOf h)).pc (some f.tag) (.counter f.gDst)
          (op.reads (s.core (coreOf h)) ((s.passed (coreOf h)).cacheCfg ((s.passed (coreOf h)).polderOn (coreOf h))))
          (op.writes (s.core (coreOf h)) ((s.passed (coreOf h)).cacheCfg ((s.passed (coreOf h)).polderOn (coreOf h))))).askCounter
          (coreOf h) (s.core (coreOf h)) f set) :
    let k := s.core (coreOf h)
    let q := counterSite (k.getG f.gA) * 16 + bits (k.getG f.gA) 7 4
    let req : CtrReq :=
      { core := coreOf h, ctx := c, opened := (s.ctx c.toNat).openAt, tag := f.tag.toNat, dst := f.gDst,
        counter := bits (k.getG f.gA) 3 0, isSet := set, operand := k.getG f.gB + f.imm }
    Gives i s h (k.next.holding (s.begun h op (some f.tag.toNat) (.counter f.gDst)))
      (fun u => { u.numbered with ctrQ := tblPut s.ctrQ q ((tblFind s.ctrQ q).getD [] ++ [req]) }.coreBump (coreOf h) 4 7 1) := by
  intro k q req
  refine gives_acts (fun k => k.holding (s.begun h op (some f.tag.toNat) (.counter f.gDst))) _ a (exec_slot slot s) ?_
    (fun u => by simp [State.coreBump, State.numbered]) a.quiet_next
  have started : (s.passed (coreOf h)).begin (coreOf h) (slotOf h op) (s.core (coreOf h)).pc (some f.tag) (.counter f.gDst)
        (op.reads (s.core (coreOf h)) ((s.passed (coreOf h)).cacheCfg ((s.passed (coreOf h)).polderOn (coreOf h))))
        (op.writes (s.core (coreOf h)) ((s.passed (coreOf h)).cacheCfg ((s.passed (coreOf h)).polderOn (coreOf h))))
      = ((s.passed (coreOf h)).onCore (coreOf h)
          (fun k => k.holding (s.begun h op (some f.tag.toNat) (.counter f.gDst)))).numbered := by
    have id : (s.passed (coreOf h)).nextId = s.nextId := by simp [State.passed, State.coreBump]
    simp only [State.begin, id]
    rfl
  have queues : (s.passed (coreOf h)).ctrQ = s.ctrQ := by simp [State.passed, State.coreBump]
  have here : (((s.passed (coreOf h)).onCore (coreOf h)
      (fun k => k.holding (s.begun h op (some f.tag.toNat) (.counter f.gDst)))).coreCtx (coreOf h)) = s.ctx c.toNat := by
    simp [State.coreCtx, CoreState.holding, CoreState.atPos, CoreState.next, context]
  rw [he, started, State.askCounter, State.coreCtx_numbered, here, context]
  simp only [State.numbered, State.onCore_ctrQ, queues, q, req, k]
  rfl

/-- The state in which a controller has served the one request of its queue. -/
def State.countedFor (s : State) (q : Nat) (r : CtrReq) : State :=
  let a := 16 * q + r.counter
  { s with
    counters := putCell s.counters a (if r.isSet then r.operand else cell s.counters a + r.operand)
    ctrQ := tblPut s.ctrQ q [] }.setCore r.core (((s.core r.core).setG r.dst (cell s.counters a)).freeTag r.tag)

theorem State.serveCounter_single {q : Nat} {r : CtrReq} (queue : tblFind s.ctrQ q = some [r])
    (ctx : (s.core r.core).ctx = some r.ctx) (opened : (s.ctx r.ctx.toNat).openAt = r.opened)
    (quiet : (s.core r.core).quiet = true) : s.serveCounter q = s.countedFor q r := by
  have live (m : Store 64) (l : Tbl (List CtrReq)) : ({ s with counters := m, ctrQ := l }.core r.core).ctx = some r.ctx
      ∧ ({ s with counters := m, ctrQ := l }.ctx r.ctx.toNat).openAt = r.opened := ⟨ctx, opened⟩
  simp only [State.serveCounter, queue, Option.getD_some, List.any_nil, Bool.false_eq_true, if_false, if_pos (live _ _),
    State.onCore_setCore]
  exact State.pump_quiet _ _ (by
    rw [State.core_setCore_self, CoreState.quiet_freeTag, CoreState.quiet_setG]; exact quiet)

/-- Settles O18: a request joins its controller's queue, and the one request of a queue is served from it. -/
theorem countersServe : Obligations.CountersServe := by
  unfold Obligations.CountersServe
  refine ⟨fun s h f c => ?_, fun s site channel r => ?_⟩
  · intro n k q req asked context
    exact ⟨fun a => gives_ask false a rfl context rfl, fun a => gives_ask true a rfl context rfl⟩
  · intro q a k queue ctx opened quiet
    have core := State.core_setCore
      { s with
        counters := putCell s.counters a (if r.isSet then r.operand else cell s.counters a + r.operand)
        ctrQ := tblPut s.ctrQ q [] } r.core
    refine ⟨s.countedFor q r, next_congr (State.serveCounter_single queue ctx opened quiet), ?_, fun b hb => ?_, ?_,
      fun n hn => ?_, tblFind_tblPut_self .., fun q' hq => tblFind_tblPut_ne _ _ hq.symm, rfl⟩
    · exact (cell_putCell ..).trans (if_pos rfl)
    · exact (cell_putCell ..).trans (if_neg hb)
    · exact (core r.core _).trans (if_pos rfl)
    · exact (core n _).trans (if_neg hn.symm)

/-! ### Exchanges (R67) -/

/-- The lengths agree: the receiver has the sender's lines, and both tags are free. -/
theorem State.deliver_eq {src dst line n to' r t : Nat} {a b : AsyncOp} (put : a.op = .put r line n t)
    (recv : b.op = .recv to' n) (ne : src ≠ dst) (quiet_src : (s.core src).quiet = true)
    (quiet_dst : (s.core dst).quiet = true) :
    s.deliver src a dst b = (s.onCore dst (fun k =>
      (k.putWs (64 * to') (((s.core src).seenBy a).wsBytes (64 * line) (64 * n))).without b)).onCore src
        (fun k => k.without a) := by
  simp only [State.deliver, put, recv, ne_eq, not_true_eq_false, if_false]
  refine State.pumpCores_quiet (fun m hm => ?_)
  rcases List.mem_pair.1 hm with rfl | rfl
  · simpa [State.core_onCore, ne.symm] using quiet_src
  · simpa [State.core_onCore, ne] using quiet_dst

/-- The lengths differ: the receiver faults, and its receive is over. -/
theorem State.deliver_ne {src dst line n to' m r t : Nat} {a b : AsyncOp} (put : a.op = .put r line n t)
    (recv : b.op = .recv to' m) (ne : n ≠ m) :
    s.deliver src a dst b = s.onCore dst (fun k => (k.without b).noteFault
      { code := faultIllegal, detail := 7, slot := b.slot, bundle := b.bundle, more := 0 }) := by
  simp only [State.deliver, put, recv, ne_eq, ne, not_false_eq_true, if_true, State.raise]
  exact State.onCore_setCore ..

/-- Settles O19: the put and the receive are those that the command finds, and the lengths agree or differ. -/
theorem exchangeCompletes : Obligations.ExchangeCompletes := by
  unfold Obligations.ExchangeCompletes
  intro s core tag c src a b line n to' m r t0 d ctx under first ne put recv
  have found : s.exchange core.toNat tag.toNat = s.deliver src a core.toNat b := by
    simp only [d] at ctx under first
    simp only [State.exchange, ctx, under, first]
  have ne : core.toNat ≠ src := ne.symm
  refine ⟨fun same quiet_src quiet_dst => ?_, fun differ => next_congr (found.trans (State.deliver_ne put recv differ))⟩
  subst same
  refine ⟨_, next_congr (found.trans (State.deliver_eq put recv ne.symm quiet_src quiet_dst)), ?_, ?_, fun q hd hs => ?_, rfl⟩
  · simp [State.core_onCore, ne.symm, CoreState.wsBytes, d]
  · simp [State.core_onCore, ne]
  · have hd : core.toNat ≠ q := hd.symm
    simp [State.core_onCore, hd, hs.symm]

/-! ### The ends of operations (R65, R73) -/

/-- What remains of an operation is done, and its generators stand where its walks ended. -/
def State.worked (s : State) (n : Nat) (a : AsyncOp) : State × Option WalkFault :=
  let r := s.seeing n a (fun u => u.runOp n a.op)
  (r.1.onCore n (fun k => k.walked a.op r.2), r.2)

theorem State.finish_eq {n t : Nat} {kind : Op → Bool} {a : AsyncOp} (found : (s.core n).opUnder t kind = some a) :
    s.finish n t kind = (s.worked n a).1.endOp n a ((s.worked n a).2.map WalkFault.cause) := by
  simp only [State.finish, found, State.worked]

/-- An operation without a fault frees its tag. -/
theorem State.endOp_done {n : Nat} (a : AsyncOp) (quiet : (s.core n).quiet = true) :
    s.endOp n a none = s.onCore n (fun k => k.without a) :=
  State.pump_quiet _ _ (by simpa using quiet)

/-- The fault of an operation that has freed its tag waits at its core. -/
theorem State.endOp_fault (s : State) (n : Nat) (a : AsyncOp) (c : Cause) :
    s.endOp n a (some c) = s.onCore n (fun k => (k.without a).noteFault
      { code := c.1, detail := c.2, slot := a.slot, bundle := a.bundle, more := 0 }) := by
  simp only [State.endOp, State.raise]
  exact State.onCore_setCore ..

/-- The operation that a command finds ends, or leaves its fault. -/
theorem State.finish_ends {n t : Nat} {kind : Op → Bool} {a : AsyncOp} (found : (s.core n).opUnder t kind = some a) :
    ((s.worked n a).2 = none → ((s.worked n a).1.core n).quiet = true →
        s.finish n t kind = (s.worked n a).1.onCore n (fun k => k.without a))
      ∧ (∀ f : WalkFault, (s.worked n a).2 = some f →
        s.finish n t kind = (s.worked n a).1.onCore n (fun k => (k.without a).noteFault
          { code := f.code, detail := f.detail, slot := a.slot, bundle := a.bundle, more := 0 })) := by
  rw [State.finish_eq found]
  refine ⟨fun none quiet => ?_, fun f some => ?_⟩
  · rw [none]; exact State.endOp_done a quiet
  · rw [some]; exact State.endOp_fault ..

/-- The first operation of a kind, where it holds the tag, is the one of the kind under the tag. -/
theorem CoreState.opUnder_of_first {k : CoreState} {t : Nat} {kind : Op → Bool} {a : AsyncOp}
    (first : k.ops.find? (fun b => kind b.op) = some a) (tag : a.tag = some t) : k.opUnder t kind = some a := by
  obtain ⟨is_kind, before, after, ops, others⟩ := List.find?_eq_some_iff_append.1 first
  refine List.find?_eq_some_iff_append.2 ⟨by simp [tag, is_kind], before, after, ops, fun b hb => ?_⟩
  have := others b hb
  simp only [Bool.not_eq_true'] at this
  simp [this]

/-- Settles O9: the unit's command finds the operation, whose work ends with a fault or without. -/
theorem operationsEnd : Obligations.OperationsEnd := by
  unfold Obligations.OperationsEnd
  intro s core tag a n r t done ends endsFirst
  have finish {i : Instr} {kind : Op → Bool} (e : exec i s = .next (s.finish n tag.toNat kind)) : ends i kind := by
    intro found
    obtain ⟨ok, fault⟩ := State.finish_ends found
    exact ⟨fun none quiet => e.trans (next_congr (ok none quiet)), fun f some => e.trans (next_congr (fault f some))⟩
  have first {i : Instr} {kind : Op → Bool} (e : exec i s = .next (s.finishFirst n tag.toNat kind)) : endsFirst i kind := by
    intro found
    refine ⟨fun held => finish (kind := kind) (e.trans (next_congr ?_)) (CoreState.opUnder_of_first found held), fun other => ?_⟩
    · simp only [State.finishFirst, found, held, if_true]
    · refine e.trans (next_congr ?_)
      simp only [State.finishFirst, found, if_neg other]
  exact ⟨finish rfl, finish rfl, finish rfl, finish rfl, finish rfl, first rfl, first rfl⟩

end Sys2Proof.Machine
end

section
/-! ### What accesses of memory leave unchanged

Reads and writes of memory change memory, its check storage, what is counted and the events that errors raise; they leave
every core, every context and what has been sent. -/

namespace Sys2Proof.Machine

variable {s t u : State}

/-- From one state to another memory alone has been accessed. -/
def State.Accessed (s t : State) : Prop :=
  ∃ mem check memErr dict arrived free,
    t = { s with mem := mem, check := check, memErr := memErr, dict := dict, arrived := arrived, free := free }

theorem State.Accessed.refl (s : State) : s.Accessed s := ⟨s.mem, s.check, s.memErr, s.dict, s.arrived, s.free, rfl⟩

theorem State.Accessed.trans (h : s.Accessed t) (h' : t.Accessed u) : s.Accessed u := by
  obtain ⟨_, _, _, _, _, _, rfl⟩ := h
  obtain ⟨_, _, _, _, _, _, rfl⟩ := h'
  exact ⟨_, _, _, _, _, _, rfl⟩

theorem State.Accessed.ite {a b : State} {c : Prop} [Decidable c] (ha : s.Accessed a) (hb : s.Accessed b) :
    s.Accessed (if c then a else b) := by
  split
  · exact ha
  · exact hb

/-- A fold of accesses, of a value that holds a state. -/
theorem State.Accessed.foldl {α β : Type} (get : β → State) {f : β → α → β}
    (step : ∀ b a, (get b).Accessed (get (f b a))) (l : List α) (b : β) : (get b).Accessed (get (l.foldl f b)) := by
  induction l generalizing b with
  | nil => exact .refl _
  | cons a l ih => exact (step b a).trans (ih (f b a))

section
variable (h : s.Accessed t)
include h

theorem State.Accessed.bumpW (w i j n : Nat) : s.Accessed (t.bumpW w i j n) :=
  h.trans ⟨t.mem, t.check, t.memErr, _, t.arrived, t.free, rfl⟩

theorem State.Accessed.bump (i j n : Nat) : s.Accessed (t.bump i j n) := by
  unfold State.bump
  split
  · exact h
  · exact h.bumpW ..

theorem State.Accessed.setEntry (i j v : Nat) : s.Accessed (t.setEntry i j v) :=
  h.trans ⟨t.mem, t.check, t.memErr, _, t.arrived, t.free, rfl⟩

theorem State.Accessed.event (i b n : Nat) : s.Accessed (t.event i b n) := by
  unfold State.event
  split
  · exact h
  · exact h.trans ⟨t.mem, t.check, t.memErr, t.dict, _, t.free, rfl⟩

theorem State.Accessed.usedFree : s.Accessed t.usedFree :=
  h.trans ⟨t.mem, t.check, t.memErr, t.dict, t.arrived, _, rfl⟩

theorem State.Accessed.burst (a : Nat) : s.Accessed (t.burst a) := h.bump ..

theorem State.Accessed.corrected (cw : Nat) (syms : List Nat) : s.Accessed (t.corrected cw syms) := by
  unfold State.corrected
  dsimp only
  refine .ite ?_ ?_
  · exact ((((((h.bump ..).bump ..).setEntry ..).setEntry ..).setEntry ..).event ..).event ..
  · exact (((((h.bump ..).bump ..).setEntry ..).setEntry ..).setEntry ..).event ..

theorem State.Accessed.poisoned (cw : Nat) : s.Accessed (t.poisoned cw) := ((h.bumpW ..).setEntry ..).event ..

theorem State.Accessed.readWord (r : Requester) (cw : Nat) : s.Accessed (t.readWord r cw).state := by
  have counted : s.Accessed ((t.bump (channelIndex (64 * cw)) 1 1).bump (0x3020 + r.polder)
    (if r.near (64 * cw) then 1 else 2) 64) := (h.bump ..).bump ..
  unfold State.readWord
  dsimp only
  generalize (t.bump (channelIndex (64 * cw)) 1 1).bump (0x3020 + r.polder) (if r.near (64 * cw) then 1 else 2) 64 = c
    at counted ⊢
  split
  · exact counted
  split
  · exact counted.corrected ..
  split
  · exact counted.poisoned ..
  split
  · exact counted.usedFree.poisoned ..
  · exact counted.usedFree.usedFree.usedFree.corrected ..

theorem State.Accessed.writeWord (r : Requester) (cw : Nat) (data : List Byte) : s.Accessed (t.writeWord r cw data) := by
  have counted := (h.bump (channelIndex (64 * cw)) 2 1).bump (0x3020 + r.polder) (if r.near (64 * cw) then 3 else 4) 64
  exact counted.trans ⟨_, _, _, _, _, _, rfl⟩

theorem State.Accessed.readView (r : Requester) (a : W64) (n : Nat) : s.Accessed (t.readView r a n).state := by
  unfold State.readView
  dsimp only
  refine h.trans (State.Accessed.foldl Prod.fst (fun b cw => ?_) _ (t, [], []))
  split
  · exact .refl _
  · split
    · exact ((State.Accessed.refl _).burst _).readWord ..
    · exact (State.Accessed.refl _).readWord ..

theorem State.Accessed.writeView (r : Requester) (a : W64) (bs : List Byte) : s.Accessed (t.writeView r a bs) := by
  unfold State.writeView
  refine h.trans (State.Accessed.foldl id (fun b cw => ?_) _ t)
  dsimp only [id]
  split
  · exact .refl _
  · split
    · exact ((State.Accessed.refl _).burst _).writeWord ..
    · exact (State.Accessed.refl _).writeWord ..

theorem State.Accessed.cores : t.cores = s.cores := by
  obtain ⟨_, _, _, _, _, _, rfl⟩ := h; rfl

theorem State.Accessed.ctxs : t.ctxs = s.ctxs := by
  obtain ⟨_, _, _, _, _, _, rfl⟩ := h; rfl

end

end Sys2Proof.Machine
end

section
/-! ### The end of a context

What tearing a context down leaves of the others, and that a context that is CLOSED stays as it is: the operations on
memory, on the cache and on units change no context, the others change the one they are about. -/

namespace Sys2Proof.Machine

variable {s t : State}

/-! ### Operations that change no context -/

@[simp] theorem State.readView_ctxs (s : State) (r : Requester) (a : W64) (n : Nat) :
    (s.readView r a n).state.ctxs = s.ctxs := ((State.Accessed.refl s).readView r a n).ctxs

@[simp] theorem State.writeView_ctxs (s : State) (r : Requester) (a : W64) (bs : List Byte) :
    (s.writeView r a bs).ctxs = s.ctxs := ((State.Accessed.refl s).writeView r a bs).ctxs

@[simp] theorem State.burst_ctxs (s : State) (a : Nat) : (s.burst a).ctxs = s.ctxs := ((State.Accessed.refl s).burst a).ctxs

@[simp] theorem State.readWord_ctxs (s : State) (r : Requester) (cw : Nat) : (s.readWord r cw).state.ctxs = s.ctxs :=
  ((State.Accessed.refl s).readWord r cw).ctxs

@[simp] theorem State.writeWord_ctxs (s : State) (r : Requester) (cw : Nat) (data : List Byte) :
    (s.writeWord r cw data).ctxs = s.ctxs := ((State.Accessed.refl s).writeWord r cw data).ctxs

/-- A fold of operations that change no context, of a value that holds a state. -/
theorem foldl_ctxs {α β : Type} (get : β → State) {f : β → α → β} (step : ∀ b a, (get (f b a)).ctxs = (get b).ctxs)
    (l : List α) (b : β) : (get (l.foldl f b)).ctxs = (get b).ctxs := by
  induction l generalizing b with
  | nil => rfl
  | cons a l ih => exact (ih (f b a)).trans (step b a)

/-! The cache home -/

@[simp] theorem Home.fetch_ctxs (h : Home) (a : W64) : (h.fetch a).state.ctxs = h.state.ctxs := by
  unfold Home.fetch
  split
  · dsimp only
    split
    · rfl
    · dsimp only
      rw [State.readWord_ctxs]
      split <;> simp
  · rfl

@[simp] theorem Home.put_ctxs (h : Home) (a : W64) (bs : List Byte) : (h.put a bs).state.ctxs = h.state.ctxs := by
  have fetched : (if bs.length = 64 then h else h.fetch a).state.ctxs = h.state.ctxs := by split <;> simp
  unfold Home.put
  dsimp only
  split <;> exact fetched

@[simp] theorem Home.poke_ctxs (h : Home) (a : W64) (n v : Nat) : (h.poke a n v).state.ctxs = h.state.ctxs := h.put_ctxs ..

@[simp] theorem Home.lowered_ctxs (h : Home) (n refs pins : Nat) : (h.lowered n refs pins).state.ctxs = h.state.ctxs := by
  unfold Home.lowered
  dsimp only
  split
  · exact (Home.poke_ctxs ..).trans (Home.poke_ctxs ..)
  · exact Home.poke_ctxs ..

@[simp] theorem Home.unpin_ctxs (h : Home) (n : Nat) : (h.unpin n).state.ctxs = h.state.ctxs :=
  (Home.lowered_ctxs ..).trans (Home.fetch_ctxs ..)

@[simp] theorem State.setStackDepth_ctxs (s : State) (p d : Nat) : (s.setStackDepth p d).ctxs = s.ctxs := by
  unfold State.setStackDepth State.setCacheCount
  dsimp only
  split <;> simp

@[simp] theorem Home.rewrite_ctxs (h : Home) : h.rewrite.ctxs = h.state.ctxs := by
  unfold Home.rewrite
  refine foldl_ctxs Prod.fst (fun b n => ?_) _ (h.state, none)
  dsimp only
  rw [State.writeWord_ctxs]
  split <;> simp

@[simp] theorem Home.close_ctxs (h : Home) : h.close.ctxs = h.state.ctxs := by
  unfold Home.close
  split
  · rfl
  · dsimp only
    rw [State.bump_ctxs, State.bump_ctxs]
    have count (u : State) (c : Prop) [Decidable c] (sub v : Nat) :
        (if c then u else u.setCacheCount h.polder sub v).ctxs = u.ctxs := by split <;> rfl
    have depth (u : State) (c : Prop) [Decidable c] : (if c then u else u.setStackDepth h.polder h.depth).ctxs = u.ctxs := by
      split <;> simp
    rw [depth, count, count, Home.rewrite_ctxs]

@[simp] theorem State.zeroRange_ctxs (s : State) (p : Nat) (base : W64) (n : Nat) : (s.zeroRange p base n).ctxs = s.ctxs := by
  unfold State.zeroRange
  refine foldl_ctxs id (fun b u => ?_) _ s
  dsimp only [id]
  split <;> simp

@[simp] theorem State.initCache_ctxs (s : State) (p : Nat) : (s.initCache p).ctxs = s.ctxs := by
  unfold State.initCache State.setCacheCount
  simp only [State.setEntry_ctxs, State.onPolder_ctxs, Home.close_ctxs]
  refine (foldl_ctxs Home.state (fun b i => Home.poke_ctxs ..) _ _).trans ?_
  simp [State.home]

/-! Posts, fabric and media -/

@[simp] theorem State.setMapBit_ctxs (s : State) (x : Post) : (s.setMapBit x).1.ctxs = s.ctxs := by
  unfold State.setMapBit
  dsimp only
  split <;> simp

@[simp] theorem State.servePosts_ctxs (s : State) (c : Nat) : (s.servePosts c).ctxs = s.ctxs := by
  unfold State.servePosts
  exact (foldl_ctxs id (fun b x => State.setMapBit_ctxs b x) _ _).trans (State.onPolder_ctxs ..)

@[simp] theorem State.abandonFabric_ctxs (s : State) (c : Nat) : (s.abandonFabric c).ctxs = s.ctxs := by
  unfold State.abandonFabric
  refine foldl_ctxs id (fun b o => ?_) _ s
  dsimp only [id]
  split
  · exact foldl_ctxs id (f := fun u d => u.send (.fabricAbort d o.collId)) (fun u _ => State.send_ctxs u _) _ b
  · rfl

@[simp] theorem State.dropMedia_ctxs (s : State) (c : Nat) : (s.dropMedia c).ctxs = s.ctxs := rfl

@[simp] theorem State.leaveCore_ctxs (s : State) (c n : Nat) : (s.leaveCore c n).ctxs = s.ctxs := by
  unfold State.leaveCore
  dsimp only
  split
  · rfl
  · split <;> rfl

@[simp] theorem State.writeRecord_ctxs (s : State) (c : Nat) : (s.writeRecord c).ctxs = s.ctxs :=
  (State.writeView_ctxs ..).trans rfl

@[simp] theorem State.bump32_ctxs (s : State) (i j : Nat) : (s.bump32 i j).ctxs = s.ctxs := State.bumpW_ctxs ..

/-! Wake requests -/

@[simp] theorem State.requestWake_ctxs (s : State) (n : Nat) : (s.requestWake n).ctxs = s.ctxs := by
  unfold State.requestWake State.queueWake
  dsimp only
  split
  · rfl
  · split
    · split <;> rfl
    · split
      · rfl
      · split <;> rfl

/-! ### One context by its number -/

/-- A context by its number depends on the table of contexts alone. -/
theorem State.ctx_congr (e : t.ctxs = s.ctxs) (m : Nat) : t.ctx m = s.ctx m := by simp only [State.ctx, e]

/-- A listed context is the one found under its number. -/
theorem tblFind_of_mem {α : Type} {l : List (Nat × α)} (r : rising l = true) {k : Nat} {x : α} (m : (k, x) ∈ l) :
    tblFind l k = some x := by
  induction l with
  | nil => simp at m
  | cons y l ih =>
    obtain ⟨a, v⟩ := y
    obtain ⟨first, rest⟩ := (rising_cons a v l).1 r
    rcases List.mem_cons.1 m with e | m
    · cases e; simp [tblFind]
    · have lt : a < k := first _ m
      simp only [tblFind, if_neg lt.ne]
      exact ih rest m

theorem State.ctx_of_mem (r : rising s.ctxs = true) {k : Nat} {c : Ctx} (m : (k, c) ∈ s.ctxs) : s.ctx k = c := by
  simp only [State.ctx, tblFind_of_mem r m, Option.getD_some]

/-- What a fold of operations on a state keeps. -/
theorem foldl_ctx_of_ne {α : Type} {f : State → α → State} {m : Nat} (step : ∀ u a, (f u a).ctx m = u.ctx m) (l : List α)
    (s : State) : (l.foldl f s).ctx m = s.ctx m := by
  induction l generalizing s with
  | nil => rfl
  | cons a l ih => exact (ih (f s a)).trans (step s a)

/-! ### Completion records -/

/-- A record that enters its slot changes the slots of its context alone. -/
theorem State.placeRecord_ctx (s : State) (n : Nat) (u : Unplaced) (m : Nat) :
    ∃ slots, (s.placeRecord n u).ctx m = if n = m then { s.ctx n with slots := slots } else s.ctx m := by
  have put (w : State) (e : w.ctxs = s.ctxs) (i tag : Nat) (r : ResultSlot) : ∃ slots,
      ((w.onCtx n (fun c => { c with slots := tblPut c.slots i r })).notifyReady n i tag).ctx m
        = if n = m then { s.ctx n with slots := slots } else s.ctx m := by
    refine ⟨tblPut (s.ctx n).slots i r, ?_⟩
    rw [State.notifyReady, foldl_ctx_of_ne (f := fun s a => s.send _) (fun u a => State.ctx_send ..), State.ctx_onCtx,
      State.ctx_congr e, State.ctx_congr e]
  unfold State.placeRecord
  dsimp only
  split
  · exact put s rfl ..
  · refine put _ ?_ ..
    have free (w : State) (b : Bool) : (if b = true then w.usedFree else w).ctxs = w.ctxs := by split <;> rfl
    rw [free, free, State.readView_ctxs]

/-- A package that completes changes the slots of its context, or what waits for one. -/
theorem State.completePkg_ctx (s : State) (n : Nat) (u : Unplaced) (m : Nat) :
    ∃ slots discards, (s.completePkg n u).ctx m
      = if n = m then { s.ctx n with slots := slots, discards := discards } else s.ctx m := by
  unfold State.completePkg
  split
  · obtain ⟨slots, e⟩ := s.placeRecord_ctx n u m
    exact ⟨slots, (s.ctx n).discards, e⟩
  · exact ⟨(s.ctx n).slots, _, State.ctx_onCtx ..⟩

/-! ### A context that has ended -/

/-- The context is CLOSED with a code and a scope, and keeps nothing of what it ran (R331). -/
def Ctx.ended (c : Ctx) (code scope : Nat) : Prop :=
  c.state = 0 ∧ c.lastFault = code ∧ c.faultScope = scope ∧ c.cores = [] ∧ c.images = [] ∧ c.queue = [] ∧ c.asm = []
    ∧ c.running = none ∧ c.granted = false ∧ c.group = none

theorem State.completePkg_ended {n code scope : Nat} (u : Unplaced) (e : (s.ctx n).ended code scope) :
    ((s.completePkg n u).ctx n).ended code scope := by
  obtain ⟨slots, discards, eq⟩ := s.completePkg_ctx n u n
  rw [eq, if_pos rfl]
  exact e

theorem State.completePkg_ctx_ne {n m : Nat} (ne : n ≠ m) (u : Unplaced) : (s.completePkg n u).ctx m = s.ctx m := by
  obtain ⟨slots, discards, eq⟩ := s.completePkg_ctx n u m
  rw [eq, if_neg ne]

/-! ### Teardown -/

theorem State.dismantle_of_closed {n : Nat} (code scope : Nat) (closed : (s.ctx n).state = 0) :
    s.dismantle n code scope = (s, false) := if_pos closed

/-- A context that is torn down has ended, and the others are as they were. -/
theorem State.dismantle_ctx {n : Nat} (code scope : Nat) (opened : (s.ctx n).state ≠ 0) :
    ((s.dismantle n code scope).1.ctx n).ended code scope
      ∧ ∀ m, n ≠ m → (s.dismantle n code scope).1.ctx m = s.ctx m := by
  let P (u : State) : Prop := (u.ctx n).ended code scope ∧ ∀ m, n ≠ m → u.ctx m = s.ctx m
  have send {u : State} (h : P u) (x : Tx) : P (u.send x) := by simpa [P] using h
  have complete {u : State} (h : P u) (x : Unplaced) : P (u.completePkg n x) :=
    ⟨State.completePkg_ended x h.1, fun m ne => (State.completePkg_ctx_ne ne x).trans (h.2 m ne)⟩
  have bump {u : State} (h : P u) (i j k : Nat) : P (u.bump i j k) := by simpa [P] using h
  have close {u : State} (e : u.ctxs = s.ctxs) (c : Ctx) (h : c.ended code scope) : P (u.setCtx n c) := by
    refine ⟨by simpa using h, fun m ne => ?_⟩
    rw [State.ctx_setCtx, if_neg ne, State.ctx_congr e]
  unfold State.dismantle
  dsimp only
  rw [if_neg opened]
  refine bump (bump ?_ ..) ..
  refine foldl_keeps P (fun u k h => complete h _) _ ?_
  suffices h : P (((s.ctx n).asm.flatMap Assembly.replies).foldl (fun s h => s.send (.host 0x85 h 0 [])) _) by
    split
    · exact complete h _
    · exact h
  refine foldl_keeps P (fun u x h => send h _) _ (close ?_ _ ⟨rfl, rfl, rfl, rfl, rfl, rfl, rfl, rfl, rfl, rfl⟩)
  refine (foldl_ctxs id (fun u k => State.leaveCore_ctxs u n k) _ _).trans ?_
  simp only [id, State.dropMedia_ctxs, State.abandonFabric_ctxs, State.onPolder_ctxs, Home.close_ctxs]
  refine (foldl_ctxs Home.state (fun h k => Home.unpin_ctxs h k) _ _).trans ?_
  simp [State.home]

/-! ### Scheduling leaves a CLOSED context -/

theorem State.preempt_ctx_ne {n m : Nat} (ne : n ≠ m) : (s.preempt n).ctx m = s.ctx m := by
  unfold State.preempt
  dsimp only
  split
  · rw [State.ctx_setCtx, if_neg ne]
  · rw [State.ctx_setCtx, if_neg ne]
    exact foldl_ctx_of_ne (f := fun s n => s.onCore n _) (fun u k => State.ctx_onCore ..) _ s

theorem State.grant_ctx_ne {n m : Nat} (ne : n ≠ m) : (s.grant n).ctx m = s.ctx m := by
  have asked (u : State) : ((s.ctx n).cores.foldl State.requestWake u).ctx m = u.ctx m :=
    foldl_ctx_of_ne (fun u k => State.ctx_congr (State.requestWake_ctxs u k) m) _ u
  unfold State.grant State.afterWake
  dsimp only
  split
  · rw [State.ctx_setCtx, if_neg ne, asked, State.ctx_setCtx, if_neg ne]
  · rw [asked, State.ctx_setCtx, if_neg ne]

/-- A state that lists no context twice, where a context is the given one. -/
def State.holdsCtx (s : State) (m : Nat) (c : Ctx) : Prop := rising s.ctxs = true ∧ s.ctx m = c

/-- Contexts that stand in another's way are open. -/
theorem State.inTheWay_ne {n m : Nat} {c : Ctx} (h : s.holdsCtx m c) (closed : c.state = 0) :
    ∀ x ∈ s.inTheWay n, x.1 ≠ m := by
  intro x hx e
  obtain ⟨listed, stands⟩ := List.mem_filter.1 hx
  have : x.2 = c := by rw [← h.2, ← e]; exact (State.ctx_of_mem h.1 listed).symm
  simp [this, closed] at stands

theorem State.consider_holdsCtx {n m : Nat} {c : Ctx} (h : s.holdsCtx m c) (closed : c.state = 0) :
    (s.consider n).holdsCtx m c := by
  refine ⟨(State.consider_keeps (Keeps.refl s) n).ctxs h.1, ?_⟩
  unfold State.consider
  by_cases waits : (s.ctx n).waits = true
  · have ne : n ≠ m := by
      rintro rfl
      simp [Ctx.waits, h.2, closed] at waits
    have yield : ((s.inTheWay n).foldl (fun s x => s.preempt x.1) s).ctx m = c := by
      have others := State.inTheWay_ne (n := n) h closed
      generalize s.inTheWay n = l at others
      have kept : s.ctx m = c := h.2
      clear h waits
      induction l generalizing s with
      | nil => exact kept
      | cons x l ih =>
        exact ih (fun y hy => others y (List.mem_cons_of_mem _ hy))
          ((State.preempt_ctx_ne (others x List.mem_cons_self)).trans kept)
    simp only [waits, Bool.not_true, Bool.false_eq_true, if_false]
    split
    · exact (State.grant_ctx_ne ne).trans h.2
    · split
      · split
        · exact (State.grant_ctx_ne ne).trans yield
        · exact yield
      · exact h.2
  · simp only [Bool.not_eq_true] at waits
    simpa [waits] using h.2

theorem State.schedule_holdsCtx {p m : Nat} {c : Ctx} (h : s.holdsCtx m c) (closed : c.state = 0) :
    (s.schedule p).holdsCtx m c :=
  foldl_keeps (State.holdsCtx · m c) (fun _ _ hu => State.consider_holdsCtx hu closed) _ h

/-! ### A polder that is reset leaves a CLOSED context -/

theorem State.dismantle_holdsCtx {n m code scope : Nat} {c : Ctx} (h : s.holdsCtx m c) (closed : c.state = 0) :
    (s.dismantle n code scope).1.holdsCtx m c := by
  refine ⟨(State.dismantle_keeps (Keeps.refl s) n code scope).ctxs h.1, ?_⟩
  by_cases opened : (s.ctx n).state = 0
  · rw [State.dismantle_of_closed code scope opened]; exact h.2
  · refine ((State.dismantle_ctx code scope opened).2 m ?_).trans h.2
    rintro rfl
    exact opened (by rw [h.2]; exact closed)

theorem State.holdsCtx_congr {m : Nat} {c : Ctx} (h : s.holdsCtx m c) (e : t.ctxs = s.ctxs) : t.holdsCtx m c :=
  ⟨by rw [e]; exact h.1, (State.ctx_congr e m).trans h.2⟩

theorem State.resetPolder_holdsCtx {p m code : Nat} {c : Ctx} (h : s.holdsCtx m c) (closed : c.state = 0) :
    (s.resetPolder p code).holdsCtx m c := by
  unfold State.resetPolder
  have torn : ((s.openCtxs p).foldl (fun s c => (s.dismantle c code 2).1) s).holdsCtx m c :=
    foldl_keeps (State.holdsCtx · m c) (fun _ _ hu => State.dismantle_holdsCtx hu closed) _ h
  refine State.schedule_holdsCtx (State.holdsCtx_congr torn ?_) closed
  have records (l : List Nat) (u : State) (b : Bool) :
      (if b = true then l.foldl (fun s c => s.writeRecord (256 * p + c)) u else u).ctxs = u.ctxs := by
    split
    · exact foldl_ctxs id (f := fun s c => s.writeRecord (256 * p + c)) (fun u i => State.writeRecord_ctxs u _) l u
    · rfl
  have cache (u : State) (b : Bool) : (if b = true then u.initCache p else u).ctxs = u.ctxs := by split <;> simp
  have zero (l : List Nat) (u : State) : (l.foldl State.zeroCounters u).ctxs = u.ctxs :=
    foldl_ctxs id (f := State.zeroCounters) (fun _ _ => rfl) l u
  simp only [State.event_ctxs, State.bump32_ctxs, State.eraseSeals, State.closeStreams, records, cache, zero]

/-- A context that ends with a fault other than a poisoned word has ended with its code (R331). -/
theorem State.faultContext_ended {n code : Nat} (detail : W64) (r : rising s.ctxs = true) (opened : (s.ctx n).state ≠ 0)
    (clean : code ≠ faultUncorrectable) : ((s.faultContext n code detail).ctx n).ended code 1 := by
  let s₁ := s.event (polderIndex (polderOf n) 1) 0 1
  have shared : s₁.sharedPoison n code detail = false := by simp [State.sharedPoison, clean]
  have opened₁ : (s₁.ctx n).state ≠ 0 := by simpa [s₁] using opened
  have torn := (State.dismantle_ctx code 1 opened₁).1
  have holds : (s₁.dismantle n code 1).1.holdsCtx n ((s₁.dismantle n code 1).1.ctx n) :=
    ⟨(State.dismantle_keeps (Keeps.refl s₁) n code 1).ctxs (by simpa [s₁] using r), rfl⟩
  have after : (s₁.teardown n code 1).holdsCtx n ((s₁.dismantle n code 1).1.ctx n) := by
    unfold State.teardown
    dsimp only
    split
    · exact State.resetPolder_holdsCtx holds torn.1
    · exact holds
  have eq : s.faultContext n code detail = (s₁.teardown n code 1).schedule (polderOf n) := by
    simp only [State.faultContext, s₁] at shared ⊢
    rw [shared]
    rfl
  rw [eq, (State.schedule_holdsCtx after torn.1).2]
  exact torn

end Sys2Proof.Machine
end

section
/-! ### Faults that a core takes

What its own entries record, and which of two faults of one cycle ends the context. -/

namespace Sys2Proof.Machine

variable {s : State}

/-! ### The record of a fault (R77) -/

theorem entryKey_inj {i j k : Nat} : entryKey i j = entryKey i k ↔ j = k := by
  unfold entryKey; omega

/-- The value that a fault gives an entry of its core's record. -/
def PendingFault.field (f : PendingFault) (c : Nat) : Nat → Option Nat
  | 1 => some f.code
  | 2 => some f.slot
  | 3 => some f.bundle
  | 4 => some f.detail.toNat
  | 5 => some c
  | 6 => some f.more
  | _ => none

theorem State.recordFault_find (s : State) (c n : Nat) (f : PendingFault) (j : Nat) :
    tblFind (s.recordFault c (n, f)).dict (entryKey (coreIndex n 3) j)
      = (f.field c j).orElse (fun _ => tblFind s.dict (entryKey (coreIndex n 3) j)) := by
  simp only [State.recordFault, State.event_dict, State.find_setEntry, entryKey_inj]
  match j with
  | 0 | 1 | 2 | 3 | 4 | 5 | 6 => rfl
  | j + 7 => simp [PendingFault.field]

theorem State.recordFault_find_ne (s : State) (c n : Nat) (f : PendingFault) {k : Nat}
    (other : ∀ j, 1 ≤ j → j ≤ 6 → k ≠ entryKey (coreIndex n 3) j) :
    tblFind (s.recordFault c (n, f)).dict k = tblFind s.dict k := by
  have ne (j : Nat) (lo : 1 ≤ j) (hi : j ≤ 6) := (other j lo hi).symm
  simp only [State.recordFault, State.event_dict, State.find_setEntry, if_neg (ne 1 (by omega) (by omega)),
    if_neg (ne 2 (by omega) (by omega)), if_neg (ne 3 (by omega) (by omega)), if_neg (ne 4 (by omega) (by omega)),
    if_neg (ne 5 (by omega) (by omega)), if_neg (ne 6 (by omega) (by omega))]

/-- A write of an entry leaves all but the dictionary. -/
theorem State.setEntry_rest {t : State} (h : t = { s with dict := t.dict }) (i j v : Nat) :
    t.setEntry i j v = { s with dict := (t.setEntry i j v).dict } := by
  generalize t.dict = d at h
  subst h
  rfl

/-- The record changes the core's own entries and raises its event alone. -/
theorem State.recordFault_rest (s : State) (c n : Nat) (f : PendingFault) :
    s.recordFault c (n, f)
      = { s with dict := (s.recordFault c (n, f)).dict, arrived := s.arrived ++ [(coreIndex n 2, 0, 1)] } := by
  have entries := State.setEntry_rest (State.setEntry_rest (State.setEntry_rest (State.setEntry_rest (State.setEntry_rest
    (State.setEntry_rest (s := s) (t := s) rfl (coreIndex n 3) 1 f.code) (coreIndex n 3) 2 f.slot) (coreIndex n 3) 3 f.bundle)
    (coreIndex n 3) 4 f.detail.toNat) (coreIndex n 3) 5 c) (coreIndex n 3) 6 f.more
  have event (t : State) (h : t = { s with dict := t.dict }) : t.event (coreIndex n 2) 0 1
      = { s with dict := (t.event (coreIndex n 2) 0 1).dict, arrived := s.arrived ++ [(coreIndex n 2, 0, 1)] } := by
    generalize t.dict = d at h
    subst h
    rfl
  exact event _ entries

/-! ### The faults that are taken together -/

/-- The faults that other cores of a core's context have found (R331). -/
def State.alsoFound (s : State) (c n : Nat) : List (Nat × PendingFault) :=
  (s.ctx c).cores.filterMap (fun m => if m = n then none else (s.core m).fault.map (fun g => (m, g)))

/-- A fault that no other core of the context has met is taken alone. -/
theorem State.takeFault_alone {n : Nat} {c : W12} (ctx : (s.core n).ctx = some c) (alone : s.alsoFound c.toNat n = [])
    (f : PendingFault) :
    s.takeFault n f = (s.recordFault c.toNat (n, f)).faultContext c.toNat f.code f.detail := by
  have alone : (s.ctx c.toNat).cores.filterMap (fun m => if m = n then none else (s.core m).fault.map (fun g => (m, g))) = [] :=
    alone
  simp only [State.takeFault, ctx, alone, sortBy, List.foldr_cons, List.foldr_nil, insertBy, List.foldl_cons, List.foldl_nil,
    List.headD_cons, List.find?_cons, List.find?_nil]
  split <;> rfl

/-- Of two cores that fault in one cycle each records its own, and the lower one's ends the context, where neither met a
poisoned word. -/
theorem State.takeFault_pair {n lo hi : Nat} {f f₁ g₁ g : PendingFault} {m : Nat} {c : W12}
    (ctx : (s.core n).ctx = some c) (also : s.alsoFound c.toNat n = [(m, g)])
    (order : (n = lo ∧ f = f₁ ∧ m = hi ∧ g = g₁) ∨ (n = hi ∧ f = g₁ ∧ m = lo ∧ g = f₁)) (lt : lo < hi)
    (clean₁ : f₁.code ≠ faultUncorrectable) (clean₂ : g₁.code ≠ faultUncorrectable) :
    s.takeFault n f
      = ((s.recordFault c.toNat (lo, f₁)).recordFault c.toNat (hi, g₁)).faultContext c.toNat f₁.code f₁.detail := by
  have also : (s.ctx c.toNat).cores.filterMap (fun m => if m = n then none else (s.core m).fault.map (fun g => (m, g)))
      = [(m, g)] := also
  have sorted : sortBy (fun x y : Nat × PendingFault => Decidable.decide (x.1 ≤ y.1)) [(n, f), (m, g)] = [(lo, f₁), (hi, g₁)] := by
    rcases order with ⟨rfl, rfl, rfl, rfl⟩ | ⟨rfl, rfl, rfl, rfl⟩
    · simp [sortBy, insertBy, lt.le]
    · simp [sortBy, insertBy, lt]
  have shared (x : PendingFault) (clean : x.code ≠ faultUncorrectable) : s.sharedPoison c.toNat x.code x.detail = false := by
    simp [State.sharedPoison, clean]
  simp only [State.takeFault, ctx, also, sorted, List.find?_cons, List.find?_nil, shared f₁ clean₁, shared g₁ clean₂,
    Option.getD_none, List.headD_cons, List.foldl_cons, List.foldl_nil]

/-- A list without repetition in which one element alone gives something. -/
theorem filterMap_eq_singleton {α β : Type} {f : α → Option β} {l : List α} {a : α} {b : β} (nodup : l.Nodup) (mem : a ∈ l)
    (here : f a = some b) (others : ∀ x ∈ l, x ≠ a → f x = none) : l.filterMap f = [b] := by
  obtain ⟨before, after, rfl⟩ := List.append_of_mem mem
  rw [List.nodup_middle, List.nodup_cons, List.mem_append, not_or] at nodup
  obtain ⟨⟨not_before, not_after⟩, -⟩ := nodup
  have none_before : before.filterMap f = [] := List.filterMap_eq_nil_iff.2 (fun x hx =>
    others x (by simp [hx]) (fun e => not_before (e ▸ hx)))
  have none_after : after.filterMap f = [] := List.filterMap_eq_nil_iff.2 (fun x hx =>
    others x (by simp [hx]) (fun e => not_after (e ▸ hx)))
  simp [here, none_before, none_after]

/-- The faults found beside a core's own, where one other core of the context alone has found one. -/
theorem State.alsoFound_single {c n m : Nat} {g : PendingFault} (nodup : (s.ctx c).cores.Nodup) (mem : m ∈ (s.ctx c).cores)
    (ne : m ≠ n) (found : (s.core m).fault = some g)
    (others : ∀ x ∈ (s.ctx c).cores, x ≠ m → x ≠ n → (s.core x).fault = none) : s.alsoFound c n = [(m, g)] := by
  refine filterMap_eq_singleton nodup mem (by simp [ne, found]) (fun x hx hm => ?_)
  split
  · rfl
  · next hn => simp [others x hx hm hn]

theorem State.boundary_eq {n : Nat} {f : PendingFault} (found : (s.core n).fault = some f) :
    s.boundary n = s.takeFault n f := by simp only [State.boundary, found]

/-- Settles O40: by the faults that the context's other cores have found; the end of the context from its teardown. -/
theorem faultsEndContexts : Obligations.FaultsEndContexts := by
  unfold Obligations.FaultsEndContexts
  refine ⟨fun s core f c => ?_, fun s core lo hi f g c => ?_, fun s ctx code detail => ?_⟩
  · intro n e found ctx others
    have alone : s.alsoFound c.toNat core.toNat = [] := by
      refine List.filterMap_eq_nil_iff.2 (fun m hm => ?_)
      split
      · rfl
      · next ne => rw [others m hm ne]; rfl
    have find := s.recordFault_find c.toNat core.toNat f
    exact ⟨s.recordFault c.toNat (core.toNat, f),
      next_congr ((State.boundary_eq found).trans (State.takeFault_alone ctx alone f)), find 1, find 2, find 3, find 4, find 5,
      find 6, fun k other => s.recordFault_find_ne c.toNat core.toNat f other, s.recordFault_rest c.toNat core.toNat f⟩
  · intro lt which found_lo found_hi ctx_lo ctx_hi mem_lo mem_hi nodup others clean_lo clean_hi
    rcases which with e | e
    · have also := State.alsoFound_single nodup mem_hi lt.ne' found_hi (fun x hx h l => others x hx l h)
      exact next_congr ((State.boundary_eq (by rw [e]; exact found_lo)).trans (State.takeFault_pair (by rw [e]; exact ctx_lo)
        (by rw [e]; exact also) (.inl ⟨e, rfl, rfl, rfl⟩) lt clean_lo clean_hi))
    · have also := State.alsoFound_single nodup mem_lo lt.ne found_lo (fun x hx l h => others x hx l h)
      exact next_congr ((State.boundary_eq (by rw [e]; exact found_hi)).trans (State.takeFault_pair (by rw [e]; exact ctx_hi)
        (by rw [e]; exact also) (.inr ⟨e, rfl, rfl, rfl⟩) lt clean_lo clean_hi))
  · intro r opened clean _ t
    exact State.faultContext_ended detail r opened clean

end Sys2Proof.Machine
end

section
/-! ### Reads of memory without errors

Such a read counts itself and nothing else: it gives the bytes that stand there, the same from every state that differs by
reads and by cores alone. -/

namespace Sys2Proof.Machine

variable {s t u : State}

/-! ### Addresses -/

theorem mem_sitesOf {m x : Nat} (h : x ∈ sitesOf m) : x < 16 := by
  simp only [sitesOf, List.mem_filter, List.mem_range] at h
  exact h.1

theorem getD_sitesOf_lt (m i : Nat) : (sitesOf m).getD i 0 < 16 := by
  rcases Nat.lt_or_ge i (sitesOf m).length with lt | ge
  · rw [List.getD_eq_getElem _ _ lt]
    exact mem_sitesOf (List.getElem_mem lt)
  · rw [List.getD_eq_default _ _ ge]
    decide

/-- What an address reaches lies below 2^40, whatever the size of the spread region. -/
theorem State.resolve_lt {p ph : Nat} {a : W64} (h : s.resolve p a = some ph) : ph < 2 ^ 40 := by
  unfold State.resolve at h
  dsimp only at h
  split at h
  · exact absurd h (by simp)
  split at h
  · split at h
    · exact absurd h (by simp)
    · split at h
      · simp only [Option.some.injEq] at h; omega
      · exact absurd h (by simp)
  · split at h
    · exact absurd h (by simp)
    · simp only [Option.some.injEq] at h
      have site := getD_sitesOf_lt (s.polderMask p) ((a.toNat - 2 ^ 39) / 32768 % (sitesOf (s.polderMask p)).length)
      have unit := Nat.div_le_self ((a.toNat - 2 ^ 39) / 32768) (sitesOf (s.polderMask p)).length
      generalize (sitesOf (s.polderMask p)).getD ((a.toNat - 2 ^ 39) / 32768 % (sitesOf (s.polderMask p)).length) 0 = x at *
      generalize (a.toNat - 2 ^ 39) / 32768 / (sitesOf (s.polderMask p)).length = y at *
      omega

/-! ### States that differ by reads and cores -/

/-- From one state to another cores have changed and reads have been counted; what an address reaches is the same. -/
def State.Counted (s t : State) : Prop :=
  ∃ cores dict, t = { s with cores := cores, dict := dict }
    ∧ ∀ p, tblFind dict (entryKey (polderIndex p 0) 1) = tblFind s.dict (entryKey (polderIndex p 0) 1)
      ∧ tblFind dict (entryKey (0x3010 + p) 0) = tblFind s.dict (entryKey (0x3010 + p) 0)

theorem State.Counted.refl (s : State) : s.Counted s := ⟨s.cores, s.dict, rfl, fun _ => ⟨rfl, rfl⟩⟩

theorem State.Counted.trans (h : s.Counted t) (h' : t.Counted u) : s.Counted u := by
  obtain ⟨_, _, rfl, same⟩ := h
  obtain ⟨_, _, rfl, same'⟩ := h'
  exact ⟨_, _, rfl, fun p => ⟨(same' p).1.trans (same p).1, (same' p).2.trans (same p).2⟩⟩

section
variable (h : s.Counted t)
include h

theorem State.Counted.mem : t.mem = s.mem := by obtain ⟨_, _, rfl, -⟩ := h; rfl

theorem State.Counted.memErr : t.memErr = s.memErr := by obtain ⟨_, _, rfl, -⟩ := h; rfl

theorem State.Counted.ctxs : t.ctxs = s.ctxs := by obtain ⟨_, _, rfl, -⟩ := h; rfl

theorem State.Counted.arrived : t.arrived = s.arrived := by obtain ⟨_, _, rfl, -⟩ := h; rfl

theorem State.Counted.onCore (n : Nat) (f : CoreState → CoreState) : s.Counted (t.onCore n f) :=
  h.trans ⟨_, t.dict, rfl, fun _ => ⟨rfl, rfl⟩⟩

theorem State.Counted.resolve (p : Nat) (a : W64) : t.resolve p a = s.resolve p a := by
  have mask : t.polderMask p = s.polderMask p := by
    obtain ⟨_, _, rfl, same⟩ := h
    simp only [State.polderMask, State.entry, (same p).1]
  have spread : t.spreadBytes p = s.spreadBytes p := by
    obtain ⟨_, _, rfl, same⟩ := h
    simp only [State.spreadBytes, State.entry, (same p).2]
  simp only [State.resolve, mask, spread]

theorem State.Counted.bump {i j : Nat} (n : Nat) (mask : ∀ p, entryKey i j ≠ entryKey (polderIndex p 0) 1)
    (spread : ∀ p, entryKey i j ≠ entryKey (0x3010 + p) 0) : s.Counted (t.bump i j n) := by
  unfold State.bump
  split
  · exact h
  · exact h.trans ⟨t.cores, _, rfl, fun p => ⟨tblFind_tblPut_ne _ _ (mask p), tblFind_tblPut_ne _ _ (spread p)⟩⟩

theorem State.Counted.burst (a : Nat) : s.Counted (t.burst a) :=
  h.bump 1 (fun p => by unfold entryKey; omega) (fun p => by unfold entryKey; omega)

/-- The counts of one read of a word. -/
theorem State.Counted.countRead {r : Requester} (polder : r.polder < 16) {a n : Nat} (lt : a < 2 ^ 40) {i : Nat}
    (hi : i = 1 ∨ i = 2) : s.Counted ((t.bump (channelIndex a) 1 1).bump (0x3020 + r.polder) i n) := by
  refine (h.bump 1 (fun p => ?_) (fun p => ?_)).bump n (fun p => ?_) (fun p => ?_) <;>
    unfold entryKey <;> (try unfold polderIndex) <;> (try unfold channelIndex) <;> omega

end

/-! ### Reads -/

theorem State.readWord_eq_of_clean (clean : s.memErr = []) (r : Requester) (cw : Nat) :
    s.readWord r cw
      = { state := (s.bump (channelIndex (64 * cw)) 1 1).bump (0x3020 + r.polder) (if r.near (64 * cw) then 1 else 2) 64,
          data := cells s.mem (64 * cw) 64, poisoned := false } := by
  have h := State.wordError_clean (s := (s.bump (channelIndex (64 * cw)) 1 1).bump (0x3020 + r.polder)
    (if r.near (64 * cw) then 1 else 2) 64) (by simp [clean]) cw
  simp [State.readWord, h, WordError.symbols]

/-- The bytes of a code word of a view, as they stand. -/
def State.viewWord (s : State) (p cw : Nat) : List Byte :=
  match s.resolve p (BitVec.ofNat 64 (64 * cw)) with
  | none => List.replicate 64 0
  | some ph => cells s.mem (64 * (ph / 64)) 64

theorem State.Counted.viewWord (h : s.Counted t) (p cw : Nat) : t.viewWord p cw = s.viewWord p cw := by
  simp only [State.viewWord, h.resolve, h.mem]

/-- A code word of a view is read: the state, the words read so far, the last first, and those that were poisoned. -/
def readInto (r : Requester) (first : Nat) (acc : State × List (List Byte) × List Nat) (cw : Nat) :
    State × List (List Byte) × List Nat :=
  match acc.1.resolve r.polder (BitVec.ofNat 64 (64 * cw)) with
  | none => (acc.1, List.replicate 64 0 :: acc.2.1, acc.2.2)
  | some ph =>
    let w := (if beginsBurst first cw then acc.1.burst ph else acc.1).readWord r (ph / 64)
    (w.state, w.data :: acc.2.1, if w.poisoned then acc.2.2 ++ [cw] else acc.2.2)

/-- A read of a view reads its words one after another. -/
theorem State.readView_eq (s : State) (r : Requester) (a : W64) (n : Nat) :
    let go := (wordsOf a.toNat n).foldl (readInto (r.entering (s.resolve r.polder a)) (a.toNat / 64)) (s, [], [])
    (s.readView r a n).state = go.1
      ∧ (s.readView r a n).data = ((go.2.1.reverse.flatten).drop (a.toNat % 64)).take n := ⟨rfl, rfl⟩

theorem Requester.entering_polder (r : Requester) (first : Option Nat) : (r.entering first).polder = r.polder := by
  unfold Requester.entering
  split <;> rfl

section
variable (clean : s.memErr = []) {r : Requester} (polder : r.polder < 16)
include clean polder

theorem State.Counted.readInto {acc : State × List (List Byte) × List Nat} (h : s.Counted acc.1) (first cw : Nat) :
    s.Counted (readInto r first acc cw).1 ∧ (readInto r first acc cw).2.1 = s.viewWord r.polder cw :: acc.2.1 := by
  unfold Machine.readInto State.viewWord
  rw [h.resolve]
  cases found : s.resolve r.polder (BitVec.ofNat 64 (64 * cw)) with
  | none => exact ⟨h, rfl⟩
  | some ph =>
    have lt := State.resolve_lt found
    have h' : s.Counted (if beginsBurst first cw then acc.1.burst ph else acc.1) := by
      split
      · exact h.burst ph
      · exact h
    dsimp only
    generalize (if beginsBurst first cw then acc.1.burst ph else acc.1) = v at h' ⊢
    rw [State.readWord_eq_of_clean (h'.memErr.trans clean)]
    dsimp only
    rw [h'.mem]
    exact ⟨h'.countRead polder (by omega) (by split <;> simp), rfl⟩

theorem State.Counted.foldl_readInto (first : Nat) (l : List Nat) {acc : State × List (List Byte) × List Nat}
    (h : s.Counted acc.1) :
    s.Counted (l.foldl (Machine.readInto r first) acc).1
      ∧ (l.foldl (Machine.readInto r first) acc).2.1.reverse = acc.2.1.reverse ++ l.map (s.viewWord r.polder) := by
  induction l generalizing acc with
  | nil => exact ⟨h, by simp⟩
  | cons cw l ih =>
    obtain ⟨counted, word⟩ := h.readInto clean polder first cw
    obtain ⟨counted', words⟩ := ih counted
    exact ⟨counted', by rw [List.foldl_cons, words, word]; simp⟩

/-- A read of memory without errors counts itself and gives what stands there. -/
theorem State.readView_of_clean (a : W64) (n : Nat) :
    s.Counted (s.readView r a n).state
      ∧ (s.readView r a n).data
        = ((((wordsOf a.toNat n).map (s.viewWord r.polder)).flatten).drop (a.toNat % 64)).take n := by
  obtain ⟨state, data⟩ := s.readView_eq r a n
  have entering := r.entering_polder (s.resolve r.polder a)
  obtain ⟨counted, words⟩ := (State.Counted.refl s).foldl_readInto clean (r := r.entering (s.resolve r.polder a))
    (by rw [entering]; exact polder) (a.toNat / 64) (wordsOf a.toNat n) (acc := (s, [], []))
  rw [state, data, words, entering]
  exact ⟨counted, rfl⟩

end

/-- The bytes read are the same from every state that differs by reads and cores alone. -/
theorem State.Counted.readView_data (h : s.Counted t) (clean : s.memErr = []) {r : Requester} (polder : r.polder < 16) (a : W64)
    (n : Nat) : (t.readView r a n).data = (s.readView r a n).data := by
  rw [(State.readView_of_clean (h.memErr.trans clean) polder a n).2, (State.readView_of_clean clean polder a n).2,
    funext (h.viewWord r.polder)]

end Sys2Proof.Machine
end

section
/-! ### Packages

How the next package of a context starts on its cores, and what the closing barrier of one leaves. -/

namespace Sys2Proof.Machine

variable {s t : State}

/-! ### Cores changed with a value of their own -/

/-- In a fold that changes at each step one core, each of them once, with a value of its own, each core is changed as if it
were changed alone, and an invariant of the steps is kept. -/
theorem State.core_foldl_keyed {β : Type} {I : State → Prop} {g : State → Nat × β → State}
    {f : Nat × β → CoreState → CoreState}
    (step : ∀ u x, I u → I (g u x) ∧ ∀ m, (g u x).core m = (u.onCore x.1 (f x)).core m) (l : List (Nat × β))
    (once : (l.map Prod.fst).Nodup) (start : I s) :
    I (l.foldl g s) ∧ (∀ x ∈ l, (l.foldl g s).core x.1 = f x (s.core x.1))
      ∧ ∀ m, m ∉ l.map Prod.fst → (l.foldl g s).core m = s.core m := by
  induction l generalizing s with
  | nil => exact ⟨start, by simp, fun _ _ => rfl⟩
  | cons x l ih =>
    obtain ⟨kept, first⟩ := step s x start
    rw [List.map_cons, List.nodup_cons] at once
    obtain ⟨keeps, changed, others⟩ := ih once.2 kept
    have ne {m : Nat} (h : x.1 ≠ m) : (g s x).core m = s.core m := by rw [first, State.core_onCore, if_neg h]
    refine ⟨keeps, fun y hy => ?_, fun m hm => ?_⟩
    · rcases List.mem_cons.1 hy with rfl | hy
      · rw [List.foldl_cons, others _ once.1, first, State.core_onCore_self]
      · rw [List.foldl_cons, changed y hy, ne (fun e => once.1 (List.mem_map.2 ⟨y, hy, e.symm⟩))]
    · rw [List.map_cons, List.mem_cons, not_or] at hm
      rw [List.foldl_cons, others m hm.2, ne (Ne.symm hm.1)]

/-! ### The start of a package (R64, R70, R353) -/

/-- The words of a package's program as a core of its context reads them. -/
def State.programFor (s : State) (ctx core : Nat) (x : Pkg) : List (BitVec 1024) :=
  (pieces 128 x.bundles (s.readView (coreFor (polderOf ctx) core) x.program (128 * x.bundles)).data).map
    (fun b => BitVec.ofNat 1024 (ofBytes b))

/-- A core of a context, with its rank, loads a package's program; the first core of the context that met a poisoned word,
with its address. -/
def loadNext (ctx : Nat) (fresh : Bool) (x : Pkg) (a : State × Option (Nat × W64)) (y : Nat × Nat) :
    State × Option (Nat × W64) :=
  let l := a.1.loadPkg ctx y.2 y.1 fresh x
  (l.1, match a.2 with
    | none => l.2.map (fun b => (y.1, b))
    | some f => some f)

theorem polderOf_lt (ctx : Nat) : polderOf ctx < 16 := Nat.mod_lt _ (by decide)

/-- Where memory has no errors a core loads the program that stands there, whatever its context's other cores have read. -/
theorem State.Counted.loadPkg (clean : s.memErr = []) (h : s.Counted t) (ctx rank core : Nat) (fresh : Bool) (x : Pkg) :
    s.Counted (t.loadPkg ctx rank core fresh x).1 ∧ (t.loadPkg ctx rank core fresh x).2 = none
      ∧ ∀ m, (t.loadPkg ctx rank core fresh x).1.core m
        = (t.onCore core (fun k => k.startPkg ctx rank fresh x (s.programFor ctx core x))).core m := by
  have polder : (coreFor (polderOf ctx) core).polder < 16 := polderOf_lt ctx
  have read := (State.readView_of_clean (h.memErr.trans clean) polder x.program (128 * x.bundles)).1
  refine ⟨by unfold State.loadPkg; dsimp only; exact (h.trans read).onCore .., (State.readView_clean _ _ _ (h.memErr.trans clean)).1, fun m => ?_⟩
  have cores : ∀ m, (t.readView (coreFor (polderOf ctx) core) x.program (128 * x.bundles)).state.core m = t.core m :=
    fun m => by simp only [State.core, ((State.Accessed.refl t).readView ..).cores]
  simp only [State.loadPkg, State.programFor, State.core_onCore, cores, h.readView_data clean polder]

/-- Where memory has no errors all cores of a context load their package. -/
theorem State.foldl_loadNext (clean : s.memErr = []) (ctx : Nat) (fresh : Bool) (x : Pkg) (cs : List Nat) (once : cs.Nodup) :
    let loaded := cs.zipIdx.foldl (loadNext ctx fresh x) (s, none)
    s.Counted loaded.1 ∧ loaded.2 = none
      ∧ (∀ (i q : Nat), cs[i]? = some q →
          loaded.1.core q = (s.core q).startPkg ctx i fresh x (s.programFor ctx q x))
      ∧ ∀ q, q ∉ cs → loaded.1.core q = s.core q := by
  intro loaded
  have poison : s.Counted loaded.1 ∧ loaded.2 = none := by
    refine foldl_keeps (fun a : State × Option (Nat × W64) => s.Counted a.1 ∧ a.2 = none) (fun a y h => ?_) _
      ⟨.refl s, rfl⟩
    obtain ⟨counted, none_met, -⟩ := h.1.loadPkg clean ctx y.2 y.1 fresh x
    exact ⟨counted, by simp only [loadNext, h.2, none_met, Option.map_none]⟩
  have state : loaded.1 = cs.zipIdx.foldl (fun u y => (u.loadPkg ctx y.2 y.1 fresh x).1) s :=
    (List.foldl_hom Prod.fst (fun _ _ => rfl)).symm
  obtain ⟨-, changed, others⟩ := State.core_foldl_keyed (s := s) (I := s.Counted)
    (g := fun u y => (u.loadPkg ctx y.2 y.1 fresh x).1)
    (f := fun y k => k.startPkg ctx y.2 fresh x (s.programFor ctx y.1 x))
    (fun u y h => ⟨(h.loadPkg clean ctx y.2 y.1 fresh x).1, (h.loadPkg clean ctx y.2 y.1 fresh x).2.2⟩) cs.zipIdx
    (by rw [List.zipIdx_map_fst]; exact once) (.refl s)
  rw [← state] at changed others
  exact ⟨poison.1, poison.2, fun i q at_i => changed (q, i) (List.mem_zipIdx_iff_getElem?.2 at_i),
    fun q out => others q (by rw [List.zipIdx_map_fst]; exact out)⟩

/-- A context whose cores have loaded its next package runs it, or takes the fault of the core that met a poisoned word. -/
def State.started (s : State) (n : Nat) (x : Pkg) (rest : List Pkg) (loaded : State × Option (Nat × W64)) : State :=
  let t := loaded.1.setCtx n { s.ctx n with state := 3, queue := rest, running := some x, hasState := true }
  match loaded.2 with
  | none => t
  | some p =>
    t.takeFault p.1 { code := faultUncorrectable, detail := p.2, slot := 7, bundle := x.start, more := 0 }

/-- The next package of a chosen context starts once all its cores are in RUN. -/
theorem State.startPackage_eq {n : Nat} {x : Pkg} {rest : List Pkg} (queue : (s.ctx n).queue = x :: rest)
    (granted : (s.ctx n).granted = true) (ready : (s.ctx n).state = 2) (run : s.allRun (s.ctx n) = true)
    (idle : (s.ctx n).running = none) :
    s.startPackage n
      = s.started n x rest ((s.ctx n).cores.zipIdx.foldl (loadNext n (!(s.ctx n).hasState) x) (s, none)) := by
  have same : (fun (a : State × Option (Nat × W64)) (y : Nat × Nat) =>
      let l := a.1.loadPkg n y.2 y.1 (!(s.ctx n).hasState) x
      (l.1, match a.2, l.2 with
        | none, some p => some (y.1, p)
        | o, _ => o)) = loadNext n (!(s.ctx n).hasState) x := by
    funext a y
    unfold loadNext
    dsimp only
    cases a.2 <;> cases (a.1.loadPkg n y.2 y.1 (!(s.ctx n).hasState) x).2 <;> rfl
  rw [← same]
  unfold State.startPackage
  dsimp only
  split
  next empty => rw [queue] at empty; cases empty
  next y ys listed =>
    rw [queue] at listed
    cases listed
    rw [if_neg (by simp [granted, ready, run, idle])]
    unfold State.started
    rfl

/-- Settles O36: by whether a core met a poisoned word; with no error in memory none does, and each core loads what stands
there. -/
theorem packageStarts : Obligations.PackageStarts := by
  unfold Obligations.PackageStarts
  intro s ctx x rest n c loaded t queue granted ready run idle
  have start : s.startPackage n = s.started n x rest loaded := State.startPackage_eq queue granted ready run idle
  have goes (none_met : loaded.2 = none) : exec (.packageStart ctx) s = .next t :=
    next_congr (start.trans (by simp only [State.started, none_met]; rfl))
  refine ⟨goes, fun core a met => next_congr (start.trans (by simp only [State.started, met]; rfl)), fun clean once => ?_⟩
  obtain ⟨counted, none_met, changed, others⟩ := State.foldl_loadNext clean n (!c.hasState) x c.cores once
  have core (q : Nat) : t.core q = loaded.1.core q := State.core_setCtx ..
  refine ⟨goes none_met, fun m hm => ?_, fun i q at_i => ?_, fun q out => ?_, ?_⟩
  · rw [State.ctx_setCtx, if_neg (Ne.symm hm)]
    exact State.ctx_congr counted.ctxs m
  · exact (core q).trans (changed i q at_i)
  · exact (core q).trans (others q out)
  · obtain ⟨cores, dict, e, -⟩ := counted
    have e : loaded.1 = { s with cores := cores, dict := dict } := e
    simp only [t, e]
    rfl

end Sys2Proof.Machine
end

section
/-! ### The end of a package

The record enters its slot, the associations hear of it, and the cores and the context stand as between packages (R70,
R359, R367). -/

namespace Sys2Proof.Machine

variable {s t : State}

/-! ### What reads of memory leave -/

section
variable (h : s.Accessed t)
include h

theorem State.Accessed.tx : t.tx = s.tx := by
  obtain ⟨_, _, _, _, _, _, rfl⟩ := h; rfl

theorem State.Accessed.assocs : t.assocs = s.assocs := by
  obtain ⟨_, _, _, _, _, _, rfl⟩ := h; rfl

theorem State.Accessed.readyCount : t.readyCount = s.readyCount := by
  obtain ⟨_, _, _, _, _, _, rfl⟩ := h; rfl

end

/-! ### Notices -/

theorem State.bump_rest (s : State) (i j n : Nat) : ∃ dict, s.bump i j n = { s with dict := dict } := by
  unfold State.bump
  split
  · exact ⟨s.dict, rfl⟩
  · exact ⟨_, rfl⟩

/-- What is sent is appended to what was sent before, and counted. -/
theorem State.send_rest (s : State) (x : Tx) : ∃ dict, s.send x = { s with tx := s.tx ++ [x], dict := dict } := by
  unfold State.send
  dsimp only
  split
  · next q n _ =>
    split
    · obtain ⟨_, e⟩ := State.bump_rest { s with tx := s.tx ++ [x] } (0x6102 + 16 * q) 1 1
      obtain ⟨_, e'⟩ := State.bump_rest (State.bump { s with tx := s.tx ++ [x] } (0x6102 + 16 * q) 1 1) (0x6102 + 16 * q) 3 n
      exact ⟨_, by rw [e', e]⟩
    · exact ⟨s.dict, rfl⟩
  · exact ⟨s.dict, rfl⟩

/-- What is sent one after another stands in that order. -/
theorem State.foldl_send {α : Type} (f : α → Tx) (l : List α) (s : State) :
    ∃ dict, l.foldl (fun s a => s.send (f a)) s = { s with tx := s.tx ++ l.map f, dict := dict } := by
  induction l generalizing s with
  | nil => exact ⟨s.dict, by simp⟩
  | cons a l ih =>
    obtain ⟨_, first⟩ := s.send_rest (f a)
    obtain ⟨dict, rest⟩ := ih (s.send (f a))
    exact ⟨dict, by rw [List.foldl_cons, rest, first]; simp⟩

/-! ### The record of a package -/

/-- The record of a package that ran and is not sealed, with the check of its result where the package asks for it. -/
def Pkg.resultSlot (x : Pkg) (result : List Byte) : ResultSlot :=
  { tag := resultTag x.ordinal
    record := some (completionRecord 0 (if x.e2e then 2 else 0) x.resBytes x.ordinal
      (if x.e2e then (crc64 result).toNat else 0) [])
    released := false, resAddr := x.resAddr, resBytes := x.resBytes, sealed := none }

/-- The read of a package's result for its check. -/
def State.readResult (s : State) (n : Nat) (x : Pkg) : BytesRead :=
  s.readView (ioFor (polderOf n)) x.resAddr (if x.e2e then x.resBytes else 0)

/-- The record of a package that ran to its end enters its slot, where its result holds no poisoned word. -/
theorem State.placeRecord_ran {n : Nat} {x : Pkg} (plain : x.sealed = false) (clean : (s.readResult n x).poison = none) :
    s.placeRecord n { ordinal := x.ordinal, code := 0, ran := some x }
      = ((s.readResult n x).state.onCtx n (fun c =>
          { c with slots := tblPut c.slots (x.ordinal % 256) (x.resultSlot (s.readResult n x).data) })).notifyReady n
            (x.ordinal % 256) (resultTag x.ordinal) := by
  have asked : (if (x.e2e || (x.sealed && x.key.isSome)) = true then x.resBytes else 0) = if x.e2e = true then x.resBytes else 0 := by
    rw [plain]; simp
  unfold State.readResult at clean ⊢
  unfold State.placeRecord Pkg.resultSlot
  dsimp only
  rw [asked, clean, plain]
  cases x.e2e <;> rfl

/-! ### The cores and the context after it -/

/-- The cores of a context, and the context itself, between two packages. -/
def State.afterPackage (s : State) (n : Nat) (cs : List Nat) (idle : Bool) : State :=
  let u := (cs.foldl (fun s q => s.onCore q (fun k => k.endPkg idle)) s).onCtx n
    (fun c => { c with state := if idle then 1 else 2, running := none, granted := false })
  if idle then u else u.stampReady n

theorem State.afterPackage_rest (s : State) (n : Nat) (cs : List Nat) (idle : Bool) :
    s.afterPackage n cs idle
      = { s with cores := (s.afterPackage n cs idle).cores, ctxs := (s.afterPackage n cs idle).ctxs,
                 readyCount := if idle then s.readyCount else s.readyCount + 1 } := by
  have cores := State.foldl_onCore_rest (fun _ k => k.endPkg idle) cs s
  unfold State.afterPackage
  generalize cs.foldl (fun s q => s.onCore q (fun k => k.endPkg idle)) s = v at cores ⊢
  generalize v.cores = d at cores
  subst cores
  cases idle <;> rfl

theorem State.afterPackage_core (s : State) (n : Nat) (cs : List Nat) (idle : Bool) (m : Nat) :
    (s.afterPackage n cs idle).core m = if m ∈ cs then (s.core m).endPkg idle else s.core m := by
  have twice (k : CoreState) : (k.endPkg idle).endPkg idle = k.endPkg idle := by cases idle <;> rfl
  have cores := State.core_foldl (f := fun _ k => k.endPkg idle) (fun _ _ _ => rfl) (fun _ k => twice k) cs s m
  cases idle <;> exact cores

theorem State.afterPackage_ctx (s : State) (n : Nat) (cs : List Nat) (idle : Bool) (m : Nat) :
    (s.afterPackage n cs idle).ctx m
      = if n = m then { s.ctx n with
          state := if idle then 1 else 2, running := none, granted := false,
          readyAt := if idle then (s.ctx n).readyAt else s.readyCount }
        else s.ctx m := by
  have ctxs : (cs.foldl (fun s q => s.onCore q (fun k => k.endPkg idle)) s).ctxs = s.ctxs :=
    foldl_ctxs id (f := fun s q => s.onCore q (fun k => k.endPkg idle)) (fun _ _ => rfl) cs s
  have count : (cs.foldl (fun s q => s.onCore q (fun k => k.endPkg idle)) s).readyCount = s.readyCount := by
    rw [State.foldl_onCore_rest (fun _ k => k.endPkg idle)]
  unfold State.afterPackage
  generalize cs.foldl (fun s q => s.onCore q (fun k => k.endPkg idle)) s = v at ctxs count ⊢
  have waits (m : Nat) (f : Ctx → Ctx) : (v.onCtx n f).ctx m = if n = m then f (s.ctx n) else s.ctx m := by
    rw [State.ctx_onCtx, State.ctx_congr ctxs, State.ctx_congr ctxs]
  cases idle with
  | true => exact waits m (fun c => { c with state := 1, running := none, granted := false })
  | false =>
    have stamped (w : State) : (w.stampReady n).ctx m = (w.onCtx n (fun c => { c with readyAt := w.readyCount })).ctx m := rfl
    simp only [Bool.false_eq_true, if_false, stamped]
    rw [State.ctx_onCtx, waits, waits, State.onCtx_readyCount, count, if_pos rfl]
    split <;> rfl

/-- A package whose cores have all arrived and whose slot is FREE ends. -/
theorem State.endPackage_eq {n : Nat} {x : Pkg} (runs : (s.ctx n).running = some x) (state : (s.ctx n).state = 3)
    (free : (s.ctx n).slotFree (x.ordinal % 256) = true) (arrived : (s.ctx n).cores.all s.closed = true) :
    s.endPackage n
      = ((s.placeRecord n { ordinal := x.ordinal, code := 0, ran := some x }).afterPackage n (s.ctx n).cores
          (s.ctx n).queue.isEmpty).schedule (polderOf n) := by
  unfold State.endPackage
  dsimp only
  split
  next none_runs => rw [runs] at none_runs; cases none_runs
  next y listed =>
    rw [runs] at listed
    cases listed
    rw [if_neg (by simp [state, free, arrived])]
    rfl

/-- Settles O37: the record, the notices, then the cores and the context, each as its lemma says. -/
theorem packageEnds : Obligations.PackageEnds := by
  unfold Obligations.PackageEnds
  intro s ctx x n p c slot idle r record runs state free arrived plain clean
  have placed := State.placeRecord_ran (s := s) (n := n) plain clean
  have read : s.Accessed r.state := (State.Accessed.refl s).readView ..
  let put := r.state.onCtx n (fun c => { c with slots := tblPut c.slots slot (x.resultSlot r.data) })
  obtain ⟨dict, sent⟩ := State.foldl_send
    (fun a : Association => Tx.ready a.num (BitVec.ofNat 12 n) slot (resultTag x.ordinal))
    (put.assocs.filter (fun a => a.scope.toNat.testBit p)) put
  let v := s.placeRecord n { ordinal := x.ordinal, code := 0, ran := some x }
  have v_eq : v = _ := placed.trans sent
  have v_core (m : Nat) : v.core m = s.core m := by
    rw [v_eq]; simp only [State.core, put, State.onCtx_cores, read.cores]
  have v_count : v.readyCount = s.readyCount := by rw [v_eq]; exact read.readyCount
  have v_ctx (m : Nat) : v.ctx m = put.ctx m := by rw [v_eq]; rfl
  have put_ctx (m : Nat) := r.state.ctx_onCtx n m (fun c => { c with slots := tblPut c.slots slot (x.resultSlot r.data) })
  have r_ctx (m : Nat) : r.state.ctx m = s.ctx m := State.ctx_congr read.ctxs m
  let u := v.afterPackage n c.cores idle
  have u_ctx (m : Nat) := v.afterPackage_ctx n c.cores idle m
  have rest : u = { v with cores := u.cores, ctxs := u.ctxs, readyCount := if idle then v.readyCount else v.readyCount + 1 } :=
    v.afterPackage_rest n c.cores idle
  have sends : u.tx = v.tx := (congrArg State.tx rest).trans rfl
  have counts : u.dict = v.dict := (congrArg State.dict rest).trans rfl
  refine ⟨u, next_congr (State.endPackage_eq runs state free arrived), ?_, fun m hm => ?_, fun q hq => ?_, fun q hq => ?_,
    ?_, ?_⟩
  · rw [u_ctx, if_pos rfl, v_ctx, put_ctx, if_pos rfl, r_ctx, v_count]
    rfl
  · rw [u_ctx, if_neg (Ne.symm hm), v_ctx, put_ctx, if_neg (Ne.symm hm), r_ctx]
  · rw [State.afterPackage_core, if_pos hq, v_core]
  · rw [State.afterPackage_core, if_neg hq, v_core]
  · have same : (BitVec.ofNat 12 n : W12) = ctx := by simp [n]
    rw [sends, v_eq]
    simp only [put, State.onCtx_tx, State.onCtx_assocs, read.tx, read.assocs, same]
  · refine rest.trans ?_
    rw [sends, counts, v_count]
    clear_value u
    rw [v_eq]
    rfl

end Sys2Proof.Machine
end

section
/-! ### Saves and restores

A save takes the states of a context's cores as they stand, but for the pipeline image, which is captured, and frees the
cores; a restore puts the images back (R75, R76, R327). -/

namespace Sys2Proof.Machine

variable {s t : State}

/-! ### Events raised one after another -/

theorem foldl_arrived {α : Type} {g : State → α → State} {e : α → Nat × Nat × Nat}
    (step : ∀ s a, (g s a).arrived = s.arrived ++ [e a]) (l : List α) (s : State) :
    (l.foldl g s).arrived = s.arrived ++ l.map e := by
  induction l generalizing s with
  | nil => simp
  | cons a l ih => rw [List.foldl_cons, ih, step]; simp

/-! ### The capture of the pipelines (R75) -/

def CoreState.piped (k : CoreState) (image : BitVec 1048576) : CoreState := { k with pipeline := image }

/-- The capture gives each core some pipeline image and changes nothing else of it, nor anything of another core. -/
theorem State.foldl_capture (cs : List Nat) (s : State) :
    let t := cs.foldl State.capture s
    (∃ cores free, t = { s with cores := cores, free := free })
      ∧ ∀ m, t.core m = if m ∈ cs then (s.core m).piped (t.core m).pipeline else s.core m := by
  induction cs generalizing s with
  | nil => exact ⟨⟨s.cores, s.free, rfl⟩, fun _ => rfl⟩
  | cons n cs ih =>
    obtain ⟨⟨cores, free, e⟩, core⟩ := ih (s.capture n)
    refine ⟨⟨cores, free, e⟩, fun m => ?_⟩
    have first : (s.capture n).core m = if n = m then (s.core n).piped (s.freeVal 1048576) else s.core m :=
      State.core_onCore ..
    have rest := core m
    rw [List.foldl_cons]
    generalize (cs.foldl State.capture (s.capture n)).core m = k at rest ⊢
    by_cases e : n = m
    · subst e
      rw [first, if_pos rfl] at rest
      rw [if_pos List.mem_cons_self]
      split at rest
      · exact rest
      · rw [rest]; rfl
    · rw [first, if_neg e] at rest
      have listed : m ∈ n :: cs ↔ m ∈ cs := by simp [Ne.symm e]
      simpa only [listed] using rest

/-! ### What is written -/

theorem State.writeView_arrived (s : State) (r : Requester) (a : W64) (bs : List Byte) :
    (s.writeView r a bs).arrived = s.arrived := by
  unfold State.writeView
  refine foldl_keeps (fun u : State => u.arrived = s.arrived) (fun u cw h => ?_) _ rfl
  dsimp only
  split
  · exact h
  · split
    · simpa [State.writeWord, State.burst] using h
    · simpa [State.writeWord] using h

theorem State.writeImage_accessed (s : State) (p n : Nat) (a : W64) (k : CoreState) :
    s.Accessed (s.writeImage p n a k) ∧ (s.writeImage p n a k).arrived = s.arrived := by
  unfold State.writeImage
  refine foldl_keeps (fun u : State => s.Accessed u ∧ u.arrived = s.arrived) (fun u x h => ?_) _
    ⟨(State.Accessed.refl s).usedFree, rfl⟩
  exact ⟨h.1.writeView .., (u.writeView_arrived ..).trans h.2⟩

/-- The images of a context's cores, and its record, change memory, and raise no event. -/
def State.writeSaved (s : State) (n : Nat) (cs : List Nat) (saveOff : W64) : State :=
  (cs.foldl (fun s q => s.writeImage (polderOf n) q (imageAddr saveOff q) (s.core q)) s).writeRecord n

theorem State.writeSaved_accessed (s : State) (n : Nat) (cs : List Nat) (saveOff : W64) :
    s.Accessed (s.writeSaved n cs saveOff) ∧ (s.writeSaved n cs saveOff).arrived = s.arrived := by
  have images := foldl_keeps (fun u : State => s.Accessed u ∧ u.arrived = s.arrived)
    (f := fun u q => u.writeImage (polderOf n) q (imageAddr saveOff q) (u.core q))
    (fun u q h => ⟨h.1.trans (u.writeImage_accessed ..).1, (u.writeImage_accessed ..).2.trans h.2⟩) cs
    (a := s) ⟨.refl s, rfl⟩
  exact ⟨images.1.usedFree.writeView .., (State.writeView_arrived ..).trans images.2⟩

/-! ### The cores after a save (R327) -/

/-- A core that a saved context has left. -/
def CoreState.vacated (k : CoreState) : CoreState :=
  { CoreState.reset with power := if k.power = 0 then 1 else k.power, waking := k.waking }

theorem CoreState.vacated_vacated (k : CoreState) : k.vacated.vacated = k.vacated := by
  have left : ¬ (if k.power = 0 then 1 else k.power) = 0 := by split <;> simp_all
  unfold CoreState.vacated
  rw [if_neg left]

/-- A context's cores are free, and each tells of its save. -/
def State.vacateAll (s : State) (cs : List Nat) : State :=
  cs.foldl (fun s q => (s.vacate q).event (coreIndex q 2) 1 1) s

theorem State.vacateAll_core (s : State) (cs : List Nat) (m : Nat) :
    (s.vacateAll cs).core m = if m ∈ cs then (s.core m).vacated else s.core m :=
  State.core_foldl (f := fun _ k => k.vacated) (fun _ _ _ => State.core_event ..) (fun _ k => k.vacated_vacated) cs s m

theorem State.vacateAll_arrived (s : State) (cs : List Nat) :
    (s.vacateAll cs).arrived = s.arrived ++ cs.map (fun q => (coreIndex q 2, 1, 1)) :=
  foldl_arrived (fun _ _ => rfl) cs s

theorem State.vacateAll_ctxs (s : State) (cs : List Nat) : (s.vacateAll cs).ctxs = s.ctxs :=
  foldl_ctxs id (f := fun s q => (s.vacate q).event (coreIndex q 2) 1 1) (fun _ _ => rfl) cs s

theorem State.vacateAll_readyCount (s : State) (cs : List Nat) : (s.vacateAll cs).readyCount = s.readyCount :=
  foldl_keeps (fun u : State => u.readyCount = s.readyCount) (f := fun s q => (s.vacate q).event (coreIndex q 2) 1 1)
    (fun _ _ h => h) cs rfl

/-! ### The context after a save -/

/-- A context's state is saved: the save is counted, and the context takes its place among the ready ones unless it has
nothing to run. -/
def State.countSave (s : State) (n : Nat) (c : Ctx) (idle : Bool) : State :=
  let u := (s.setCtx n c).bump (polderIndex (polderOf n) 3) 2 1
  if idle then u else u.stampReady n

theorem State.countSave_ctx (s : State) (n : Nat) (c : Ctx) (idle : Bool) (m : Nat) :
    (s.countSave n c idle).ctx m
      = if n = m then { c with readyAt := if idle then c.readyAt else s.readyCount } else s.ctx m := by
  unfold State.countSave
  cases idle with
  | true => exact State.ctx_setCtx ..
  | false =>
    have stamped (w : State) : (w.stampReady n).ctx m = (w.onCtx n (fun c => { c with readyAt := w.readyCount })).ctx m := rfl
    simp only [Bool.false_eq_true, if_false, stamped]
    rw [State.ctx_onCtx]
    by_cases e : n = m
    · simp [e]
    · simp [e, State.ctx_setCtx]

theorem State.countSave_core (s : State) (n : Nat) (c : Ctx) (idle : Bool) (m : Nat) :
    (s.countSave n c idle).core m = s.core m := by
  cases idle <;> rfl

theorem State.countSave_arrived (s : State) (n : Nat) (c : Ctx) (idle : Bool) :
    (s.countSave n c idle).arrived = s.arrived := by
  cases idle <;> rfl

/-- A context that is saved and not moved. -/
theorem State.saved_eq {n : Nat} (state : (s.ctx n).state = 4) (savable : (s.ctx n).cores.all s.savable = true)
    (stays : (s.ctx n).moveTo = none) :
    let c := s.ctx n
    let captured := c.cores.foldl State.capture s
    s.saved n
      = (((captured.writeSaved n c.cores c.saveOff).vacateAll c.cores).countSave n
          { c with state := 5, granted := false, images := c.cores.map captured.core,
                   preempted := (c.preempted + 1) % 2 ^ 32 }
          (c.queue.isEmpty && c.running.isNone)).schedule (polderOf n) := by
  intro c captured
  unfold State.saved
  rw [if_neg (by simp [state, savable])]
  dsimp only
  rw [stays]
  rfl

/-! ### The images read back -/

/-- From one state to another sound memory has been read: it has been accessed, nothing but counts has changed, and no
word was poisoned so far. -/
def State.ReadsSound (s : State) (a : State × Option W64) : Prop := s.Accessed a.1 ∧ s.Counted a.1 ∧ a.2 = none

theorem State.ReadsSound.probeBytes (clean : s.memErr = []) {a : State × Option W64} (h : s.ReadsSound a) {r : Requester}
    (polder : r.polder < 16) (address : W64) (n : Nat) : s.ReadsSound (a.1.probeBytes r address n a.2) := by
  obtain ⟨accessed, counted, sound⟩ := h
  have clean := counted.memErr.trans clean
  have poison := (State.readView_clean r address n clean).1
  unfold State.probeBytes
  exact ⟨accessed.readView .., counted.trans (State.readView_of_clean clean polder address n).1,
    by simp only [sound, poison]; rfl⟩

/-- Where memory has no errors the images are read back without a poisoned word. -/
theorem State.readImages_of_clean (clean : s.memErr = []) (n : Nat) : s.ReadsSound (s.readImages n) := by
  have record : s.ReadsSound (s.probeBytes (ioFor (polderOf n))
      (s.recordsAt (polderOf n) + BitVec.ofNat 64 (256 * (n % 256))) 256 none) :=
    State.ReadsSound.probeBytes clean (a := (s, none)) ⟨.refl s, .refl s, rfl⟩ (polderOf_lt n) _ _
  unfold State.readImages
  exact foldl_keeps s.ReadsSound (fun a q h => h.probeBytes clean (polderOf_lt n) _ _) _ record

/-! ### The cores after a restore (R327) -/

/-- A core that holds an image again. -/
def CoreState.resumed (idle : Bool) (image k : CoreState) : CoreState :=
  { image with power := if idle then 1 else k.power, waking := k.waking }

/-- Cores hold their images again, and each tells of its restore. -/
def State.resumeAll (s : State) (idle : Bool) (l : List (Nat × CoreState)) : State :=
  l.foldl (fun s x => (s.onCore x.1 (x.2.resumed idle)).event (coreIndex x.1 2) 2 1) s

theorem State.resumeAll_core (s : State) (idle : Bool) {l : List (Nat × CoreState)} (once : (l.map Prod.fst).Nodup) :
    (∀ x ∈ l, (s.resumeAll idle l).core x.1 = x.2.resumed idle (s.core x.1))
      ∧ ∀ m, m ∉ l.map Prod.fst → (s.resumeAll idle l).core m = s.core m :=
  (State.core_foldl_keyed (β := CoreState) (I := fun _ => True)
    (g := fun s x => (s.onCore x.1 (x.2.resumed idle)).event (coreIndex x.1 2) 2 1) (f := fun x k => x.2.resumed idle k)
    (fun _ _ _ => ⟨trivial, fun _ => State.core_event ..⟩) l once trivial).2

theorem State.resumeAll_arrived (s : State) (idle : Bool) (l : List (Nat × CoreState)) :
    (s.resumeAll idle l).arrived = s.arrived ++ l.map (fun x => (coreIndex x.1 2, 2, 1)) :=
  foldl_arrived (fun _ _ => rfl) l s

theorem State.resumeAll_ctxs (s : State) (idle : Bool) (l : List (Nat × CoreState)) :
    (s.resumeAll idle l).ctxs = s.ctxs :=
  foldl_ctxs id (f := fun s (x : Nat × CoreState) => (s.onCore x.1 (x.2.resumed idle)).event (coreIndex x.1 2) 2 1)
    (fun _ _ => rfl) l s

/-- A context whose images are sound, and that is not moved, resumes. -/
theorem State.restored_eq {n : Nat} (state : (s.ctx n).state = 6) (sound : (s.readImages n).2 = none)
    (stays : (s.ctx n).moveTo = none) :
    let c := s.ctx n
    let idle := c.running.isNone && c.queue.isEmpty
    s.restored n
      = (((((s.readImages n).1.resumeAll idle (c.cores.zip c.images)).setCtx n
          { c with state := if c.running.isSome then 3 else if idle then 1 else 2, images := [], granted := !idle }).bump
            (polderIndex (polderOf n) 3) 3 1).pumpCores c.cores) := by
  intro c idle
  unfold State.restored
  rw [if_neg (by simp [state])]
  dsimp only
  rw [sound, stays]
  rfl

/-- What a save leaves: the capture, the writes, the cores, then the context. -/
theorem State.saved_leaves {n : Nat} (state : (s.ctx n).state = 4) (savable : (s.ctx n).cores.all s.savable = true)
    (stays : (s.ctx n).moveTo = none) :
    let c := s.ctx n
    let idle := c.queue.isEmpty && c.running.isNone
    ∃ (u : State) (pipes : List (BitVec 1048576)), s.saved n = u.schedule (polderOf n)
      ∧ pipes.length = c.cores.length
      ∧ (∀ m, u.ctx m = if n = m then { c with
          state := 5, granted := false, preempted := (c.preempted + 1) % 2 ^ 32,
          readyAt := if idle then c.readyAt else s.readyCount
          images := (c.cores.zip pipes).map (fun y => (s.core y.1).piped y.2) } else s.ctx m)
      ∧ (∀ m, u.core m = if m ∈ c.cores then (s.core m).vacated else s.core m)
      ∧ u.arrived = s.arrived ++ c.cores.map (fun q => (coreIndex q 2, 1, 1)) := by
  intro c idle
  have saved := State.saved_eq state savable stays
  obtain ⟨⟨cores, free, rest⟩, captured⟩ := State.foldl_capture c.cores s
  let v := c.cores.foldl State.capture s
  have v_eq : v = { s with cores := cores, free := free } := rest
  obtain ⟨accessed, quiet⟩ := v.writeSaved_accessed n c.cores c.saveOff
  let w := v.writeSaved n c.cores c.saveOff
  have images : (c.cores.zip (c.cores.map (fun q => (v.core q).pipeline))).map (fun y => (s.core y.1).piped y.2)
      = c.cores.map v.core := by
    rw [← List.map_prod_left_eq_zip, List.map_map]
    exact List.map_congr_left (fun q hq => ((captured q).trans (if_pos hq)).symm)
  have vacated (m : Nat) : (v.core m).vacated = (s.core m).vacated := by
    rw [show v.core m = _ from captured m]
    split <;> rfl
  refine ⟨_, c.cores.map (fun q => (v.core q).pipeline), saved, List.length_map .., fun m => ?_, fun m => ?_, ?_⟩
  · have ctxs : (w.vacateAll c.cores).ctxs = s.ctxs := by
      rw [State.vacateAll_ctxs, accessed.ctxs, v_eq]
    have count : (w.vacateAll c.cores).readyCount = s.readyCount := by
      rw [State.vacateAll_readyCount, accessed.readyCount, v_eq]
    rw [State.countSave_ctx, count, State.ctx_congr ctxs, images]
  · have core : w.core m = v.core m := by simp only [State.core, w, accessed.cores]
    rw [State.countSave_core, State.vacateAll_core, core, vacated]
    split
    · rfl
    · next out => exact (captured m).trans (if_neg out)
  · rw [State.countSave_arrived, State.vacateAll_arrived, quiet, v_eq]

/-- Settles O39: a save by what it leaves; a restore by the images read back and the cores that hold them again. -/
theorem savesAndRestores : Obligations.SavesAndRestores := by
  unfold Obligations.SavesAndRestores
  refine ⟨fun s ctx => ?_, fun s ctx => ?_⟩
  · intro n c p idle state savable stays _
    obtain ⟨u, pipes, saved, length, ctxs, cores, arrived⟩ := State.saved_leaves state savable stays
    exact ⟨u, pipes, next_congr saved, length, (ctxs n).trans (if_pos rfl), fun m hm => (ctxs m).trans (if_neg (Ne.symm hm)),
      fun q hq => (cores q).trans (if_pos hq), fun q hq => (cores q).trans (if_neg hq), arrived⟩
  · intro n c idle state stays clean once length quiet
    obtain ⟨accessed, counted, sound⟩ := State.readImages_of_clean clean n
    have restored := State.restored_eq state sound stays
    have firsts : (c.cores.zip c.images).map Prod.fst = c.cores := List.map_fst_zip length.ge
    have read (m : Nat) : (s.readImages n).1.core m = s.core m := by simp only [State.core, accessed.cores]
    obtain ⟨resumed, others⟩ := (s.readImages n).1.resumeAll_core idle (l := c.cores.zip c.images)
      (by rw [firsts]; exact once)
    let u := (s.readImages n).1.resumeAll idle (c.cores.zip c.images)
    let t := (u.setCtx n
      { c with state := if c.running.isSome then 3 else if idle then 1 else 2, images := [], granted := !idle }).bump
        (polderIndex (polderOf n) 3) 3 1
    have core (m : Nat) : t.core m = u.core m := rfl
    have holds (i q : Nat) (k : CoreState) (at_i : c.cores[i]? = some q) (image : c.images[i]? = some k) :
        t.core q = k.resumed idle (s.core q) := by
      have listed : (q, k) ∈ c.cores.zip c.images :=
        List.mem_of_getElem? (List.getElem?_zip_eq_some.2 ⟨at_i, image⟩)
      rw [core, show u.core q = _ from resumed (q, k) listed, read]
    have still : ∀ q ∈ c.cores, (t.core q).quiet = true := by
      intro q hq
      obtain ⟨i, lt, rfl⟩ := List.getElem_of_mem hq
      have lt' : i < c.images.length := length ▸ lt
      rw [holds i _ c.images[i] (List.getElem?_eq_getElem lt) (List.getElem?_eq_getElem lt')]
      have image_quiet := quiet _ (List.getElem_mem lt')
      exact image_quiet
    refine ⟨t, next_congr (restored.trans (State.pumpCores_quiet still)), State.ctx_setCtx_self .., fun m hm => ?_, holds,
      fun q out => ?_, ?_⟩
    · have ctxs : u.ctxs = s.ctxs := (State.resumeAll_ctxs ..).trans counted.ctxs
      exact (State.ctx_setCtx ..).trans ((if_neg (Ne.symm hm)).trans (State.ctx_congr ctxs m))
    · rw [core, show u.core q = _ from others q (by rw [firsts]; exact out), read]
    · have arrived : u.arrived = _ := State.resumeAll_arrived ..
      have told : (c.cores.zip c.images).map (fun x => (coreIndex x.1 2, 2, 1))
          = ((c.cores.zip c.images).map Prod.fst).map (fun q => (coreIndex q 2, 2, 1)) := by rw [List.map_map]; rfl
      rw [show t.arrived = u.arrived from rfl, arrived, counted.arrived, told, firsts]

end Sys2Proof.Machine
end

section
/-! ### Vector slots that finish in their own bundle (R125, R154, R183 to R185, R189, R279)

What a vector result adds beside its register, and the slots that write one. -/

namespace Sys2Proof.Machine

variable {s : State} {h : SlotAt} {op : SlotOp} {i : Instr} {vd : BitVec 6} {r : VResult} {more : State → State}

@[simp] theorem CoreState.ctx_setV (k : CoreState) (d : BitVec 6) (v : BitVec 4096) : (k.setV d v).ctx = k.ctx := rfl

@[simp] theorem CoreState.quiet_setV (k : CoreState) (d : BitVec 6) (v : BitVec 4096) : (k.setV d v).quiet = k.quiet := rfl

@[simp] theorem State.vecCounts_cores (s : State) (n p : Nat) (r : VResult) : (s.vecCounts n p r).cores = s.cores := by
  simp [State.vecCounts, State.tally, State.coreBump]

/-! ### The context of a core whose bundle has issued -/

/-- A core's polder is that of its context, which the write of a vector register leaves. -/
theorem State.polderOn_passed_setV (s : State) (n : Nat) (d : BitVec 6) (v : BitVec 4096) :
    ((s.passed n).onCore n (fun k => k.setV d v)).polderOn n = s.polderOn n := by
  simp [State.polderOn, CoreState.next]

theorem State.coreCtx_passed (s : State) (n : Nat) : (s.passed n).coreCtx n = s.coreCtx n := by
  simp [State.coreCtx, CoreState.next]

/-- The E4M3 mode under which a slot acts is that of the context its core had when the bundle came (R122). -/
theorem State.satE4_passed (s : State) (n : Nat) : (s.passed n).satE4 n = !(s.coreCtx n).e4nan := by
  rw [State.satE4, State.coreCtx_passed]

/-! ### Their results -/

/-- A vector result in an issued bundle: its register, then what it counts in its core's polder. -/
theorem State.passed_putVec (s : State) (n : Nat) (vd : BitVec 6) (r : VResult) :
    (s.passed n).putVec n vd r
      = ((s.passed n).onCore n (fun k => k.setV vd r.value)).vecCounts n (s.polderOn n) r := by
  simp only [State.putVec, State.vecCounts, State.polderOn_passed_setV]

/-- A slot that writes a vector result and, beside its events and counters, counts what `more` says. -/
theorem gives_vec (slot : slotCommand i = some (h, op)) (a : s.Acts h op)
    (he : (s.passed (coreOf h)).effect (coreOf h) (s.core (coreOf h)) (s.core (coreOf h)).pc (slotOf h op)
      = more ((s.passed (coreOf h)).putVec (coreOf h) vd r))
    (hm : ∀ u, (more u).cores = u.cores) :
    Gives i s h ((s.core (coreOf h)).next.setV vd r.value)
      (fun u => more (u.vecCounts (coreOf h) (s.polderOn (coreOf h)) r)) := by
  refine gives_acts (fun k => k.setV vd r.value) _ a (exec_slot slot s) ?_ (fun u => ?_) ?_
  · rw [he, State.passed_putVec]
  · rw [hm, State.vecCounts_cores]
  · rw [CoreState.quiet_setV]; exact a.quiet_next

/-- Settles O10: a plain slot is its vector result alone; a special function counts its elements beside it, and a row
reduction itself. V.CVT, V.EXP2 and V.LOG2 take the E4M3 mode of the state in which they act. -/
theorem vectorResults : Obligations.VectorResults := by
  unfold Obligations.VectorResults
  intro s h f n p k j sat out sfu red
  have mode : (s.passed n).satE4 n = sat := s.satE4_passed n
  have plain {i : Instr} {op : SlotOp} {r : VResult} (slot : slotCommand i = some (h, op))
      (he : (s.passed n).effect n k k.pc (slotOf h op) = (s.passed n).putVec n f.vd r) (a : s.Acts h op) : out i r id :=
    gives_vec (more := id) slot a he (fun _ => rfl)
  have special {i : Instr} {op : SlotOp} {r : VResult} (slot : slotCommand i = some (h, op))
      (he : (s.passed n).effect n k k.pc (slotOf h op) = (s.passed n).putSfu n f r) (a : s.Acts h op) : out i r sfu :=
    gives_vec (more := sfu) slot a he (fun u => u.bump_cores ..)
  have reduction {i : Instr} {m : Nat} (slot : slotCommand i = some (h, .vRsum m f)) (a : s.Acts h (.vRsum m f)) :
      out i (rsumOf k m f) red :=
    gives_vec (more := red) slot a rfl (fun u => u.bump_cores ..)
  exact ⟨plain rfl rfl, plain rfl rfl, plain rfl rfl, plain rfl rfl, plain rfl rfl, plain rfl rfl, plain rfl rfl,
    plain rfl (congrArg (fun b => (s.passed n).putVec n f.vd (vCvtOf k j b f)) mode),
    special rfl (congrArg (fun b => (s.passed n).putSfu n f (vExp2Of k b f)) mode),
    special rfl (congrArg (fun b => (s.passed n).putSfu n f (vLog2Of k b f)) mode),
    reduction rfl, reduction rfl, reduction rfl, reduction rfl, reduction rfl, reduction rfl⟩

end Sys2Proof.Machine
end

section
/-! ### Writes that act at once

The write-only entries whose action takes effect with the write: which entries they are, what the action of each is, and
the answer that follows it. -/

namespace Sys2Proof.Machine

section
variable {s : State} {h : Hdr} {x : Session} {i j v : Nat} {data : List Byte}

/-! ### An entry that acts -/

/-- Whether an entry is write-only and its action waits for no record of the store (R22, R28). -/
def actsAtOnce (i j : Nat) : Bool := (entryRow i j).any (fun r => r.access = .wo ∧ r.needsNv = false)

/-- A write that passes its checks takes effect as the entry's action, and is answered. -/
theorem State.Takes.write_acts (t : s.Takes h x) (hj : j < 256) (row : actsAtOnce i j = true)
    (hc : s.checkItem x ⟨i, j, data⟩ = .ok v) :
    s.request h (.write i j data) = (s.act i j v).reply ⟨h, .write i j data⟩ 0 [] := by
  obtain ⟨r, hr, both⟩ := (entryRow i j).any_eq_true _ |>.1 row
  obtain ⟨hw, hn⟩ := of_decide_eq_true both
  rw [t.write_now hj hr hc hn, if_pos hw]

/-- A write that passes its checks has reached an entry of the dictionary. -/
theorem State.entryRow_of_checkItem (hc : s.checkItem x ⟨i, j, data⟩ = .ok v) : (entryRow i j).isSome = true := by
  cases hr : entryRow i j with
  | some r => rfl
  | none =>
    obtain ⟨e, he⟩ : ∃ e, s.reachEntry x i j .write = .error e := by
      unfold State.reachEntry
      rw [hr]
      split
      · exact ⟨_, rfl⟩
      · split <;> exact ⟨_, rfl⟩
    simp [State.checkItem, he] at hc

/-! ### A block of entries -/

section
variable {r : EntryRow} {base n stride k sub : Nat}

/-- Whether a row lies apart from a block of `n` indices `stride` apart: before it, behind it, or between its indices. -/
def EntryRow.apart (r : EntryRow) (base n stride : Nat) : Bool :=
  r.base + r.stride * (r.count - 1) < base ∨ base + stride * (n - 1) < r.base
    ∨ (r.stride = stride ∧ r.base % stride ≠ base % stride)

theorem EntryRow.not_coversIndex_of_apart (ha : r.apart base n stride = true) (hk : k < n) :
    ¬ r.coversIndex (base + stride * k) = true := by
  intro hc
  simp only [EntryRow.coversIndex, inBlock, Bool.and_eq_true, decide_eq_true_eq, beq_iff_eq] at hc
  obtain ⟨⟨low, whole⟩, below⟩ := hc
  have place := Nat.mul_div_cancel' (Nat.dvd_of_mod_eq_zero whole)
  have top := Nat.mul_le_mul_left r.stride (Nat.le_sub_one_of_lt below)
  have last := Nat.mul_le_mul_left stride (Nat.le_sub_one_of_lt hk)
  obtain before | behind | ⟨rfl, between⟩ := of_decide_eq_true ha
  · omega
  · omega
  · refine between ?_
    rw [← Nat.add_mul_mod_self_left base r.stride k, ← Nat.sub_add_cancel low, ← place, Nat.mul_add_mod]

theorem EntryRow.covers_iff {i j : Nat} :
    r.covers i j = true ↔ r.coversIndex i = true ∧ r.sub ≤ j ∧ j < r.sub + r.subs := by
  simp [EntryRow.covers, and_assoc]

/-- Whether a row of the dictionary holds a block at a subindex, and each row that does acts at once. -/
def blockActs (base n stride sub : Nat) : Bool :=
  entryRows.any (fun r => r.base = base ∧ r.count = n ∧ r.stride = stride ∧ r.sub ≤ sub ∧ sub < r.sub + r.subs)
  && entryRows.all (fun r => r.apart base n stride || !(r.sub ≤ sub && sub < r.sub + r.subs)
      || (r.access = .wo ∧ r.needsNv = false))

/-- One look at the rows settles all entries of a block. -/
theorem actsAtOnce_of_block (hb : blockActs base n stride sub = true) (hs : 0 < stride) (hk : k < n) :
    actsAtOnce (base + stride * k) sub = true := by
  simp only [blockActs, Bool.and_eq_true, List.any_eq_true, List.all_eq_true, decide_eq_true_eq] at hb
  obtain ⟨⟨own, hown, rfl, rfl, rfl, low, high⟩, acts⟩ := hb
  have covers : own.covers (own.base + own.stride * k) sub = true :=
    EntryRow.covers_iff.2 ⟨by simp [EntryRow.coversIndex, inBlock, hs, hk], low, high⟩
  cases hr : rowOf (own.base + own.stride * k) sub with
  | none => exact absurd covers (List.find?_eq_none.1 hr own hown)
  | some r =>
    have found : entryRow (own.base + own.stride * k) sub = some r := by simp only [entryRow, hr]
    have hc := List.find?_some hr
    obtain ⟨index, low', high'⟩ := EntryRow.covers_iff.1 hc
    have row := acts r (List.mem_of_find?_eq_some hr)
    have near : r.apart own.base own.count own.stride = false :=
      Bool.eq_false_iff.2 (fun ha => EntryRow.not_coversIndex_of_apart ha hk index)
    simpa [actsAtOnce, found, near, low', high'] using row

/-- Where all rows lie apart, no entry stands. -/
theorem entryRow_eq_none_of_apart (ha : entryRows.all (fun r => r.apart base n stride) = true) (hk : k < n) :
    entryRow (base + stride * k) sub = none := by
  have off (r : EntryRow) (hr : r ∈ entryRows) : ¬ r.coversIndex (base + stride * k) = true :=
    EntryRow.not_coversIndex_of_apart (List.all_eq_true.1 ha r hr) hk
  have noRow : rowOf (base + stride * k) sub = none :=
    List.find?_eq_none.2 (fun r hr hc => off r hr (EntryRow.covers_iff.1 hc).1)
  have nothing : rowsAt (base + stride * k) = [] := List.filter_eq_nil_iff.2 off
  simp [entryRow, noRow, nothing]

end

/-! ### The entries -/

/-- The control entries of a polder (R340). -/
theorem actsAtOnce_polderControl (p : BitVec 4) {sub : Nat} (hs : sub ∈ [1, 2, 3, 4]) :
    actsAtOnce (0x5102 + 16 * p.toNat) sub = true := by
  have blocks : ∀ sub ∈ [1, 2, 3, 4], blockActs 0x5102 16 16 sub = true := by decide +kernel
  exact actsAtOnce_of_block (blocks sub hs) (by decide) p.isLt

theorem actsAtOnce_snapshot (p : BitVec 4) : actsAtOnce (0x5105 + 16 * p.toNat) 0 = true :=
  actsAtOnce_of_block (n := 16) (by decide +kernel) (by decide) p.isLt

theorem actsAtOnce_cacheInit (p : BitVec 4) : actsAtOnce (0x7010 + p.toNat) 14 = true := by
  have block : blockActs 0x7010 16 1 14 = true := by decide +kernel
  simpa using actsAtOnce_of_block block Nat.one_pos p.isLt

theorem actsAtOnce_sealClear (p : BitVec 4) : actsAtOnce (0x9050 + p.toNat) 2 = true := by
  have block : blockActs 0x9050 16 1 2 = true := by decide +kernel
  simpa using actsAtOnce_of_block block Nat.one_pos p.isLt

theorem actsAtOnce_histClear {core : Nat} (hc : core < 144) : actsAtOnce (0x4007 + 16 * core) 0 = true :=
  actsAtOnce_of_block (n := 144) (by decide +kernel) (by decide) hc

/-- The device has 144 cores: at another number no entry stands (R144). -/
theorem core_lt_of_histClear {core : Byte} (hr : (entryRow (0x4007 + 16 * core.toNat) 0).isSome = true) :
    core.toNat < 144 := by
  by_contra beyond
  have hcore := core.isLt
  have place : 0x4007 + 16 * core.toNat = 0x4907 + 16 * (core.toNat - 144) := by omega
  have apart : entryRows.all (fun r => r.apart 0x4907 112 16) = true := by decide +kernel
  rw [place, entryRow_eq_none_of_apart apart (by omega)] at hr
  exact Bool.false_ne_true hr

/-! ### Their actions -/

theorem polderBlock_at {o : Nat} (p : BitVec 4) (ho : o < 16) :
    polderBlock (0x5100 + o + 16 * p.toNat) = some (p.toNat, o) := by
  have hp := p.isLt
  have inside : 0x5100 ≤ 0x5100 + o + 16 * p.toNat ∧ 0x5100 + o + 16 * p.toNat < 0x5200 := by omega
  rw [polderBlock, if_pos inside]
  congr 2 <;> omega

theorem State.act_polderReset (p : BitVec 4) : s.act (0x5102 + 16 * p.toNat) 1 v = s.resetPolder p.toNat 0 := by
  simp only [State.act, polderBlock_at (o := 2) p (by decide)]

theorem State.act_contextPreempt (p : BitVec 4) :
    s.act (0x5102 + 16 * p.toNat) 2 v = s.requestPreempt (256 * p.toNat + v) := by
  simp only [State.act, polderBlock_at (o := 2) p (by decide)]

theorem State.act_contextClose (p : BitVec 4) :
    s.act (0x5102 + 16 * p.toNat) 3 v = (s.teardown (256 * p.toNat + v) 0 0).schedule p.toNat := by
  simp only [State.act, polderBlock_at (o := 2) p (by decide)]

/-- Byte 0 of the value is the context, and the rest its new mask (R329, R340). -/
theorem State.act_contextMove (p : BitVec 4) (context : Byte) (mask : W16) :
    s.act (0x5102 + 16 * p.toNat) 4 (65536 * context.toNat + mask.toNat)
      = s.moveContext (256 * p.toNat + context.toNat) mask := by
  have hm := mask.isLt
  have number : (65536 * context.toNat + mask.toNat) / 65536 = context.toNat := by omega
  have rest : BitVec.ofNat 16 (65536 * context.toNat + mask.toNat) = mask := by
    apply BitVec.eq_of_toNat_eq
    rw [BitVec.toNat_ofNat]
    omega
  simp only [State.act, polderBlock_at (o := 2) p (by decide), number, rest]

theorem State.act_snapshot (p : BitVec 4) : s.act (0x5105 + 16 * p.toNat) 0 v = s.takeSnapshot p.toNat := by
  simp only [State.act, polderBlock_at (o := 5) p (by decide)]

theorem State.act_histClear {core : Nat} (hc : core < 144) : s.act (0x4007 + 16 * core) 0 v = s.clearHist core := by
  have outside : polderBlock (0x4007 + 16 * core) = none := if_neg (by omega)
  have inside : 0x4000 ≤ 0x4007 + 16 * core ∧ 0x4007 + 16 * core < 0x4900 := by omega
  have number : (0x4007 + 16 * core - 0x4000) / 16 = core := by omega
  simp only [State.act, outside, if_pos inside, number]

theorem State.act_cacheInit (p : BitVec 4) : s.act (0x7010 + p.toNat) 14 v = s.initCache p.toNat := by
  have outside : polderBlock (0x7010 + p.toNat) = none := if_neg (by omega)
  have noCore : ¬ (0x4000 ≤ 0x7010 + p.toNat ∧ 0x7010 + p.toNat < 0x4900) := by omega
  simp only [State.act, outside, if_neg noCore, polderAt_block]

theorem State.act_sealClear (p : BitVec 4) :
    s.act (0x9050 + p.toNat) 2 v = { s with sealKeys := tblDrop s.sealKeys (16 * p.toNat + v) } := by
  have hp := p.isLt
  have outside : polderBlock (0x9050 + p.toNat) = none := if_neg (by omega)
  have noCore : ¬ (0x4000 ≤ 0x9050 + p.toNat ∧ 0x9050 + p.toNat < 0x4900) := by omega
  have noCache : polderAt 0x7010 (0x9050 + p.toNat) = none := if_neg (by omega)
  simp only [State.act, outside, if_neg noCore, noCache, polderAt_block]

theorem State.act_attestNonce (nonce : BitVec 256) :
    s.act 0x9060 1 nonce.toNat = { s with attest := some nonce } := by
  simp [State.act, polderBlock, polderAt]

end

/-! ### Statement -/

/-- Settles O34: each write by its row, which needs no store, and its entry's action. A context that a write closes gets
`FAULT_SCOPE` 0 (log entry 53), and a seal slot is cleared under R413; a histogram exists for the device's cores only. -/
theorem actionsTake : Obligations.ActionsTake := by
  unfold Obligations.ActionsTake
  intro s h x polder context core value mask nonce p b acts taken
  have act {i : Instr} {index sub : Nat} {data : List Byte} {v : Nat} {t : State} (hj : sub < 256)
      (row : actsAtOnce index sub = true) (hi : exec i s = .next (s.request h (.write index sub data)))
      (ht : s.act index sub v = t) : acts i index sub data v t := by
    intro hc
    rw [hi, taken.write_acts hj row hc, ht]
  have control {sub : Nat} (hs : sub ∈ [1, 2, 3, 4]) : actsAtOnce b sub = true := actsAtOnce_polderControl polder hs
  refine ⟨?reset, ?preempt, ?close, ?move, ?snapshot, ?histogram, ?cache, ?sealSlot, ?report⟩
  case reset => exact act (by decide) (control (by decide)) rfl (State.act_polderReset polder)
  case preempt => exact act (by decide) (control (by decide)) rfl (State.act_contextPreempt polder)
  case close => exact act (by decide) (control (by decide)) rfl (State.act_contextClose polder)
  case move => exact act (by decide) (control (by decide)) rfl (State.act_contextMove polder context mask)
  case snapshot =>
    have place : b + 3 = 0x5105 + 16 * polder.toNat := by omega
    rw [place]
    exact act (by decide) (actsAtOnce_snapshot polder) rfl (State.act_snapshot polder)
  case histogram =>
    intro hc
    have hcore := core_lt_of_histClear (State.entryRow_of_checkItem hc)
    exact act (by decide) (actsAtOnce_histClear hcore) rfl (State.act_histClear hcore) hc
  case cache => exact act (by decide) (actsAtOnce_cacheInit polder) rfl (State.act_cacheInit polder)
  case sealSlot => exact act (by decide) (actsAtOnce_sealClear polder) rfl (State.act_sealClear polder)
  case report => exact act (by decide) (by decide +kernel) rfl (State.act_attestNonce nonce)

end Sys2Proof.Machine
end

section
/-! ### Sliding windows

A V.WIN begins on its pipe without a tag, and the end of the pipe's V.WIN writes its register. -/

namespace Sys2Proof.Machine

variable {s : State} {h : SlotAt} {i : Instr}

/-! ### Their beginning (R154, R155) -/

theorem State.polderOn_passed (s : State) (n : Nat) : (s.passed n).polderOn n = s.polderOn n := by
  simp [State.polderOn, CoreState.next]

@[simp] theorem State.tally_cores (s : State) (p : Nat) (t : Tally) : (s.tally p t).cores = s.cores := by
  simp [State.tally]

/-- The operation that a slot of an issued bundle begins, under a tag or without one, is its core's from then on. -/
theorem State.begin_passed (s : State) (h : SlotAt) (o : SlotOp) (tag : Option (BitVec 4)) (op : Op) :
    let n := coreOf h
    let c := (s.passed n).cacheCfg ((s.passed n).polderOn n)
    (s.passed n).begin n (slotOf h o) (s.core n).pc tag op (o.reads (s.core n) c) (o.writes (s.core n) c)
      = State.starts n op
          ((s.passed n).onCore n (fun k => k.holding (s.begun h o (tag.map BitVec.toNat) op))) := by
  intro n c
  have number : (s.passed n).nextId = s.nextId := by simp [State.passed, State.coreBump]
  simp only [State.begin, State.starts, State.numbered, State.marks_onCore, State.onCore_nextId, State.marks_nextId, number]
  rfl

/-- Slot 6 is the one of pipe V1. -/
theorem slotOf_num_beq_six (h : SlotAt) (o : SlotOp) : ((slotOf h o).num == 6) = (h.slot == 6) := by
  rw [Bool.eq_iff_iff, beq_iff_eq, beq_iff_eq, ← BitVec.toNat_inj]
  rfl

/-- A V.WIN in an issued bundle takes its pipe, and counts itself and the numeric events of its value (R125). -/
theorem State.doWin_passed (s : State) (h : SlotAt) (wop : Nat) (f : WFields) :
    let n := coreOf h
    let r := winOf (s.core n) (s.coreCtx n).mEd wop f
    (s.passed n).doWin n (s.core n) (slotOf h (.vWin wop f)) wop f (s.core n).pc
      = ((((s.passed n).onCore n (fun k => k.holding (s.begun h (.vWin wop f) none
          (.win (h.slot == 6) f.vd r.1 (f.kh.toNat * f.kw.toNat))))).numbered.tally (s.polderOn n) r.2).coreBump n 10 2 1) := by
  intro n r
  simp only [State.doWin, slotOf_num_beq_six, State.coreCtx_passed, State.polderOn_passed]
  have began := s.begin_passed h (.vWin wop f) none (.win (h.slot == 6) f.vd r.1 (f.kh.toNat * f.kw.toNat))
  simp only [State.polderOn_passed] at began
  exact congrArg (fun u => (u.tally (s.polderOn n) r.2).coreBump n 10 2 1) began

/-- A slot that is a V.WIN begins it. -/
theorem gives_win {wop : Nat} {f : WFields} (slot : slotCommand i = some (h, .vWin wop f)) (a : s.Acts h (.vWin wop f)) :
    let n := coreOf h
    let r := winOf (s.core n) (s.coreCtx n).mEd wop f
    Gives i s h ((s.core n).next.holding
        (s.begun h (.vWin wop f) none (.win (h.slot == 6) f.vd r.1 (f.kh.toNat * f.kw.toNat))))
      (fun u => (u.numbered.tally (s.polderOn n) r.2).coreBump n 10 2 1) := by
  intro n r
  refine gives_acts (fun k => k.holding (s.begun h (.vWin wop f) none _)) _ a (exec_slot slot s) (s.doWin_passed h wop f)
    (fun u => (State.bump_cores ..).trans (u.numbered.tally_cores ..)) a.quiet_next

/-! ### Their end (R155, R166) -/

/-- Whether an operation is the V.WIN of a pipe. -/
def Op.isWinOn (pipe : Bool) : Op → Bool
  | .win b _ _ _ => b == pipe
  | _ => false

/-- A core's counter and a core's change do not meet. -/
theorem State.coreBump_onCore (s : State) (n off sub m c : Nat) (f : CoreState → CoreState) :
    (s.coreBump n off sub m).onCore c f = (s.onCore c f).coreBump n off sub m := by
  simp only [State.coreBump, State.bump]
  split <;> rfl

/-- The state in which a core's V.WIN has ended, its register written and its taps counted. -/
def State.windowed (s : State) (n : Nat) (a : AsyncOp) (vd : BitVec 6) (v : BitVec 4096) (taps : Nat) : State :=
  ((s.onCore n (fun k => (k.setV vd v).without a)).coreBump n 9 3 1).coreBump n 9 4 taps

section
variable (s : State) (n : Nat) (a : AsyncOp) (vd : BitVec 6) (v : BitVec 4096) (taps : Nat)

theorem State.windowed_core (m : Nat) :
    (s.windowed n a vd v taps).core m = if n = m then ((s.core n).setV vd v).without a else s.core m := by
  simp [State.windowed, State.coreBump, State.core_onCore]

/-- Beside the cores it differs in the two counters alone. -/
theorem State.windowed_rest :
    s.windowed n a vd v taps
      = ({ s with cores := (s.windowed n a vd v taps).cores }.coreBump n 9 3 1).coreBump n 9 4 taps := by
  have cores : (s.windowed n a vd v taps).cores = (s.onCore n (fun k => (k.setV vd v).without a)).cores := by
    simp [State.windowed, State.coreBump]
  exact congrArg (fun c => ({ s with cores := c }.coreBump n 9 3 1).coreBump n 9 4 taps) cores.symm

end

/-- The V.WIN that holds a pipe writes its register and its counters, and gives the pipe up. -/
theorem State.endWin_found {n : Nat} {pipe b : Bool} {a : AsyncOp} {vd : BitVec 6} {v : BitVec 4096} {taps : Nat}
    (found : (s.core n).ops.find? (fun o => o.op.isWinOn pipe) = some a) (win : a.op = .win b vd v taps)
    (quiet : (s.core n).quiet = true) : s.endWin n pipe = s.windowed n a vd v taps := by
  have ends : s.endWin n pipe
      = (((s.onCore n (fun k => k.setV vd v)).coreBump n 9 3 1).coreBump n 9 4 taps).endOp n a none := by
    unfold State.endWin
    split
    · next missing => exact absurd (missing.symm.trans found) (by simp)
    · next a' found' =>
      obtain rfl : a = a' := Option.some.inj (found.symm.trans found')
      rw [win]
  rw [ends, State.endOp_done a (by simpa [State.coreBump] using quiet), State.coreBump_onCore, State.coreBump_onCore]
  exact congrArg (fun u => (State.coreBump u n 9 3 1).coreBump n 9 4 taps) (State.onCore_setCore ..)

/-- Settles O13: each `OP` begins as its row's command, with the value that it computes at issue (log entry 26); the
operation that holds the pipe ends, and `WIN_TAPS` counts KH times KW taps (log entry 40). -/
theorem windowRuns : Obligations.WindowRuns := by
  unfold Obligations.WindowRuns
  refine ⟨fun s h f => ?_, fun s core pipe a vd v taps => ?_⟩
  · intro n k began
    exact ⟨gives_win rfl, gives_win rfl, gives_win rfl⟩
  · intro n k found win quiet
    exact ⟨s.windowed n a vd v taps, next_congr (State.endWin_found found win quiet),
      (s.windowed_core ..).trans (if_pos rfl), fun m hm => (s.windowed_core ..).trans (if_neg hm.symm), s.windowed_rest ..⟩

end Sys2Proof.Machine
end

section
/-! ### Lane by lane, byte by byte (R167, R168, R171)

Each element of V.FMA, V.ADD and V.MUL, and the bytes that V.LD and V.ST move. -/

namespace Sys2Proof.Machine

/-! ### The elements of a register made from codes -/

theorem codesOf_length (w : Nat) (v : BitVec 4096) : (codesOf w v).length = 4096 / w := by
  simp [codesOf, elemsOf_length]

theorem codesOf_getElem {w : Nat} {v : BitVec 4096} {e : Nat} (h : e < (codesOf w v).length) :
    (codesOf w v)[e] = (elem w v e).toNat := by
  simp [codesOf, elemsOf_getElem]

theorem elem_ofCodes {w : Nat} {xs : List Nat} (full : w * xs.length = 4096) {e : Nat} (he : e < xs.length) :
    elem w (ofCodes w xs) e = BitVec.ofNat w xs[e] := by
  simp [ofCodes, elem_ofElems w (xs.map (BitVec.ofNat w)) (by simpa using full) e (by simpa using he)]

/-! ### One element of an arithmetic operation (R171) -/

/-- Source B is a register's elements where `IMM_SEL` is 0. -/
theorem sourceB_register {f : VFields} (reg : f.immSel = false) (ty : Nat) (vb : BitVec 4096) :
    sourceB ty f vb = (codesOf (laneW ty) vb, {}) := by
  simp [sourceB, reg]

section
variable (k : CoreState) (slot : Nat) {f : VFields} {e : Nat} (fl : List Fv → Fv) (int : W32 → W32 → W32 → W32)

/-- An I32 element is the operation on the words at its place. -/
theorem elem_vArith_int (reg : f.immSel = false) (i32 : f.ty = 3) (he : e < 128) :
    elem 32 (vArith k slot f fl int).value e
      = int (elem 32 (k.getV f.va) e) (elem 32 (k.getV f.vb) e) (elem 32 (k.getV f.vc) e) := by
  have ty : f.ty.toNat = 3 := by rw [i32]; rfl
  have width : laneW 3 = 32 := rfl
  simp only [vArith, ty, if_true, sourceB_register reg, width]
  rw [elem_ofCodes (by simp [codesOf_length]) (by simpa [codesOf_length] using he)]
  simp [codesOf_getElem]

/-- A floating element is the operation on the values at its place, written once to the format of `TYPE`. -/
theorem elem_vArith_float (reg : f.immSel = false) (float : f.ty ≠ 3) (he : e < 4096 / laneW f.ty.toNat) :
    let w := laneW f.ty.toNat
    let fmt := laneFmt f.ty.toNat
    elem w (vArith k slot f fl int).value e
      = BitVec.ofNat w (fmt.write
          (elemRnd k.rng slot f.rnd.toNat e (patternOf f.ty.toNat (elem w (k.getV f.va) e).toNat)) true
          (fl ([f.va, f.vb, f.vc].map (fun v => fmt.decode (elem w (k.getV v) e).toNat)))).1 := by
  intro w fmt
  have ty : f.ty.toNat ≠ 3 := fun h => float (BitVec.eq_of_toNat_eq h)
  simp only [vArith, if_neg ty, sourceB_register reg]
  rw [elem_ofCodes (by simpa [codesOf_length] using laneW_mul f.ty.toNat) (by simpa [codesOf_length] using he)]
  simp [codesOf_getElem, arithElem, w, fmt]

end

/-- Settles O11: each operation is `vArith` of its function on words and its function on values. -/
theorem vectorElements : Obligations.VectorElements := by
  unfold Obligations.VectorElements
  intro k slot f e reg he
  refine ⟨fun i32 => ?_, fun float => ?_⟩
  · have width : laneW f.ty.toNat = 32 := by rw [i32]; rfl
    rw [width] at he ⊢
    exact ⟨elem_vArith_int k slot _ _ reg i32 he,
      elem_vArith_int (f := { f with vc := f.va }) k slot _ _ reg i32 he,
      elem_vArith_int (f := { f with vc := f.va }) k slot _ _ reg i32 he⟩
  · exact ⟨elem_vArith_float k slot _ _ reg float he,
      elem_vArith_float (f := { f with vc := f.va }) k slot _ _ reg float he,
      elem_vArith_float (f := { f with vc := f.va }) k slot _ _ reg float he⟩

/-! ### The bytes of eight lines (R168) -/

theorem elem_lineReg_cells (ws : Store 8) (a : Nat) {i : Nat} (hi : i < 512) :
    elem 8 (lineReg (cells ws a 512)) i = cell ws (a + i) := by
  rw [cells_eq, lineReg, elem_ofElems 8 _ (by simp) i (by simpa using hi)]
  simp

theorem regBytes_length (v : BitVec 4096) : (regBytes v).length = 512 := elemsOf_length 8 v

theorem cell_putRegBytes (ws : Store 8) (a : Nat) (v : BitVec 4096) {i : Nat} (hi : i < 512) :
    cell (putCells ws a (regBytes v)) (a + i) = elem 8 v i := by
  have byte : i < (regBytes v).length := by rwa [regBytes_length]
  rw [cell_putCells, if_pos ⟨by omega, by omega⟩, Nat.add_sub_cancel_left, List.getD_eq_getElem _ _ byte]
  exact elemsOf_getElem 8 v i byte

theorem cell_putRegBytes_outside (ws : Store 8) (a : Nat) (v : BitVec 4096) {b : Nat} (out : b < a ∨ a + 512 ≤ b) :
    cell (putCells ws a (regBytes v)) b = cell ws b := by
  rw [cell_putCells, regBytes_length, if_neg (by omega)]

/-- Bits moved unchanged raise no numeric event and round nothing: their instruction alone is counted. -/
theorem State.vecCounts_moved (s : State) (n p : Nat) (v : BitVec 4096) :
    s.vecCounts n p { value := v, tally := {}, rounded := 0 } = s.coreBump n 10 2 1 := rfl

/-- Settles O12: V.LD is a vector result made of the lines' bytes; V.ST writes the bytes of its register to the lines. -/
theorem vectorMemory : Obligations.VectorMemory := by
  unfold Obligations.VectorMemory
  intro s h f n k a
  refine ⟨fun acts => ⟨lineReg (cells k.ws a 512), fun i => elem_lineReg_cells k.ws a, ?_⟩,
    fun acts => ⟨putCells k.ws a (regBytes (k.getV f.va)), fun i => cell_putRegBytes k.ws a _,
      fun b => cell_putRegBytes_outside k.ws a _, ?_⟩⟩
  · have gives := gives_vec (i := .vLd h f) (vd := f.vd)
      (r := { value := lineReg (cells k.ws a 512), tally := {}, rounded := 0 }) (more := id) rfl acts rfl (fun _ => rfl)
    simp only [State.vecCounts_moved] at gives
    exact gives
  · exact gives_acts (fun q => q.putWs a (regBytes (k.getV f.va))) (fun u => u.coreBump n 10 2 1) acts rfl rfl
      (fun u => u.bump_cores ..) acts.quiet_next

end Sys2Proof.Machine
end

section
/-! ### What the cache home leaves unchanged

Until an operation of the home is complete it only accesses memory (R244); its end writes back what it has changed. No core,
no context and no request that waits is touched. -/

namespace Sys2Proof.Machine

variable {s t u : State}

/-! ### Accesses of the home -/

theorem State.Accessed.zeroRange (h : s.Accessed t) (p : Nat) (base : W64) (n : Nat) : s.Accessed (t.zeroRange p base n) := by
  unfold State.zeroRange
  refine (h.trans (State.Accessed.foldl id (fun b u => ?_) (unitsOf base.toNat n) t)).trans ⟨_, _, _, _, _, _, rfl⟩
  dsimp only [id]
  split
  · exact .refl _
  · exact (((State.Accessed.refl b).burst _).bump ..).bump ..

theorem Home.fetch_accessed (h : Home) (a : W64) : h.state.Accessed (h.fetch a).state := by
  unfold Home.fetch
  split
  · dsimp only
    split
    · exact .refl _
    · exact (State.Accessed.ite (.refl _) ((State.Accessed.refl _).burst _)).readWord ..
  · exact .refl _

theorem Home.fetchAll_accessed (h : Home) (as : List W64) : h.state.Accessed (h.fetchAll as).state :=
  State.Accessed.foldl Home.state Home.fetch_accessed as h

theorem Home.put_accessed (h : Home) (a : W64) (bs : List Byte) : h.state.Accessed (h.put a bs).state := by
  have fetched : h.state.Accessed (if bs.length = 64 then h else h.fetch a).state := by
    split
    · exact .refl _
    · exact h.fetch_accessed a
  unfold Home.put
  dsimp only
  split <;> exact fetched

theorem Home.setMeta_accessed (h : Home) (n refs pins : Nat) : h.state.Accessed (h.setMeta n refs pins).state :=
  h.put_accessed ..

theorem Home.setPtEntry_accessed (h : Home) (a : W64) (page : Option Nat) : h.state.Accessed (h.setPtEntry a page).state :=
  h.put_accessed ..

theorem Home.setSeqEntry_accessed (h : Home) (q : Nat) (e : SeqEntry) : h.state.Accessed (h.setSeqEntry q e).state :=
  h.put_accessed ..

theorem Home.push_accessed (h : Home) (n : Nat) : h.state.Accessed (h.push n).state := h.put_accessed ..

theorem Home.pop_accessed (h : Home) : h.state.Accessed h.pop.1.state :=
  (h.fetch_accessed _).trans (Home.fetch_accessed ..)

theorem Home.lowered_accessed (h : Home) (n refs pins : Nat) : h.state.Accessed (h.lowered n refs pins).state := by
  unfold Home.lowered
  dsimp only
  split
  · exact (h.setMeta_accessed ..).trans (Home.push_accessed ..)
  · exact h.setMeta_accessed ..

theorem Home.dropRef_accessed (h : Home) (n : Nat) : h.state.Accessed (h.dropRef n).state :=
  (h.fetch_accessed _).trans (Home.lowered_accessed ..)

theorem Home.addRef_accessed (h : Home) (n : Nat) : h.state.Accessed (h.addRef n).state :=
  (h.fetch_accessed _).trans (Home.setMeta_accessed ..)

theorem Home.pin_accessed (h : Home) (n : Nat) : h.state.Accessed (h.pin n).state :=
  (h.fetch_accessed _).trans (Home.setMeta_accessed ..)

theorem Home.unpin_accessed (h : Home) (n : Nat) : h.state.Accessed (h.unpin n).state :=
  (h.fetch_accessed _).trans (Home.lowered_accessed ..)

theorem Home.invalidate_accessed (h : Home) (a : W64) : h.state.Accessed (h.invalidate a).state := by
  unfold Home.invalidate
  dsimp only
  split
  · exact h.fetch_accessed a
  · exact ((h.fetch_accessed a).trans (Home.setPtEntry_accessed ..)).trans (Home.dropRef_accessed ..)

/-! ### `X.SEQ` (R236) -/

theorem Home.newSeq_accessed (h : Home) (r : SeqReq) (n : Nat) : h.state.Accessed (h.newSeq r n).state :=
  (h.setSeqEntry_accessed ..).trans (State.Accessed.foldl Home.state (fun h _ => h.put_accessed ..) _ _)

theorem Home.foldl_invalidate_accessed {α : Type} (h : Home) (a : α → W64) (l : List α) :
    h.state.Accessed (l.foldl (fun (h : Home) y => h.invalidate (a y)) h).state :=
  State.Accessed.foldl Home.state (fun h y => h.invalidate_accessed (a y)) l h

theorem Home.seqDo_accessed (h : Home) (r : SeqReq) : h.state.Accessed (h.seqDo r).state := by
  unfold Home.seqDo
  dsimp only
  split
  · exact h.newSeq_accessed ..
  · refine ((h.fetchAll_accessed _).trans (Home.newSeq_accessed ..)).trans (State.Accessed.foldl Home.state (fun h y => ?_) _ _)
    split
    · exact .refl _
    · exact (h.setPtEntry_accessed ..).trans (Home.addRef_accessed ..)
  · exact (h.foldl_invalidate_accessed ..).trans (Home.setSeqEntry_accessed ..)
  · split
    · exact (h.foldl_invalidate_accessed ..).trans (Home.setSeqEntry_accessed ..)
    · exact h.setSeqEntry_accessed ..
  · exact .refl _

theorem State.seqHome_accessed (s : State) (p : Nat) (r : SeqReq) : s.Accessed (s.seqHome p r).state :=
  (s.home p).fetchAll_accessed _

theorem State.kvFault_accessed (s : State) (p : Nat) (f : KvFault) : s.Accessed (s.kvFault p f).1 := by
  have noted : s.Accessed ((if f.low.isNone then s.usedFree else s).event (0x7030 + p) 2 1) :=
    (State.Accessed.ite (State.Accessed.refl s).usedFree (.refl s)).event ..
  exact .ite (noted.event ..) noted

/-! ### The end of an operation -/

/-- From one state to another the home has served operations: no core, context or engine has changed, and no request waits
that did not, nor has one left. -/
structure State.Tended (s t : State) : Prop where
  cores : t.cores = s.cores
  ctxs : t.ctxs = s.ctxs
  engines : t.engines = s.engines
  homeQ : ∀ p, (t.polder p).homeQ = (s.polder p).homeQ

theorem State.Accessed.tended (h : s.Accessed t) : s.Tended t := by
  obtain ⟨_, _, _, _, _, _, rfl⟩ := h
  exact ⟨rfl, rfl, rfl, fun _ => rfl⟩

theorem State.Tended.refl (s : State) : s.Tended s := ⟨rfl, rfl, rfl, fun _ => rfl⟩

theorem State.Tended.trans (h : s.Tended t) (h' : t.Tended u) : s.Tended u :=
  ⟨h'.cores.trans h.cores, h'.ctxs.trans h.ctxs, h'.engines.trans h.engines, fun p => (h'.homeQ p).trans (h.homeQ p)⟩

theorem State.setStackDepth_tended (s : State) (p d : Nat) : s.Tended (s.setStackDepth p d) := by
  have depth : s.Tended (s.onPolder p (fun x => { x with stackDepth := d })) := by
    refine ⟨rfl, rfl, rfl, fun q => ?_⟩
    rw [State.polder_onPolder]
    split
    · next e => rw [e]
    · rfl
  have counted :=
    (State.Accessed.refl (s.onPolder p (fun x => { x with stackDepth := d }))).setEntry (0x7020 + p) 2 (d % 2 ^ 32)
  exact depth.trans (State.Accessed.ite (counted.event ..) counted).tended

theorem Home.rewrite_accessed (h : Home) : h.state.Accessed h.rewrite := by
  refine State.Accessed.foldl Prod.fst (fun b n => ?_) _ (h.state, none)
  exact (State.Accessed.ite (.refl _) ((State.Accessed.refl _).burst _)).writeWord ..

theorem Home.close_tended (h : Home) : h.state.Tended h.close := by
  have count (u : State) (c : Prop) [Decidable c] (sub v : Nat) :
      u.Tended (if c then u else u.setCacheCount h.polder sub v) :=
    (State.Accessed.ite (.refl u) ((State.Accessed.refl u).setEntry ..)).tended
  have depth (u : State) (c : Prop) [Decidable c] : u.Tended (if c then u else u.setStackDepth h.polder h.depth) := by
    split
    · exact .refl u
    · exact u.setStackDepth_tended ..
  have bumps (u : State) (i j i' j' n n' : Nat) : u.Tended ((u.bump i j n).bump i' j' n') :=
    (((State.Accessed.refl u).bump ..).bump ..).tended
  unfold Home.close
  split
  · exact .refl _
  · exact ((((h.rewrite_accessed.tended).trans (count ..)).trans (count ..)).trans (depth ..)).trans (bumps ..)

theorem State.serveSeq_tended (s : State) (p : Nat) (r : SeqReq) : s.Tended (s.serveSeq p r).state := by
  have read := s.seqHome_accessed p r
  unfold State.serveSeq
  dsimp only
  split
  · exact read.tended
  · exact (read.trans (State.kvFault_accessed ..)).tended
  · exact (read.trans (Home.seqDo_accessed ..)).tended.trans (Home.close_tended _)

end Sys2Proof.Machine
end

section
/-! ### Calm states and the queue of the home

In a calm state nothing waits to issue, so no bundle issues when the home is done; and what stands first in the home's queue
decides whether it goes on without a command. -/

namespace Sys2Proof.Machine

variable {s t : State} {n p : Nat}

/-! ### Calm states -/

/-- A record put in a table is the one that all may have to satisfy beside those listed. -/
theorem forall_mem_tblPut {α : Type} {P : α → Prop} {l : List (Nat × α)} {k : Nat} {x : α} (put : P x)
    (listed : ∀ y ∈ l, P y.2) : ∀ y ∈ tblPut l k x, P y.2 := by
  induction l with
  | nil => simpa [tblPut] using put
  | cons z r ih =>
    obtain ⟨first, rest⟩ := List.forall_mem_cons.1 listed
    unfold tblPut
    split
    · exact List.forall_mem_cons.2 ⟨put, listed⟩
    · split
      · exact List.forall_mem_cons.2 ⟨put, rest⟩
      · exact List.forall_mem_cons.2 ⟨first, ih rest⟩

theorem State.calm_iff :
    s.calm = true ↔ (∀ c ∈ s.cores, c.2.issueQ = []) ∧ ∀ e ∈ s.engines, e.2.waiters = [] := by
  simp [State.calm]

theorem State.calm_congr (cores : t.cores = s.cores) (engines : t.engines = s.engines) : t.calm = s.calm := by
  rw [State.calm, State.calm, cores, engines]

theorem State.Tended.calm (h : s.Tended t) : t.calm = s.calm := State.calm_congr h.cores h.engines

theorem State.core_issueQ_of_calm (calm : s.calm = true) (n : Nat) : (s.core n).issueQ = [] := by
  unfold State.core
  cases found : tblFind s.cores n with
  | none => rfl
  | some k => exact (State.calm_iff.1 calm).1 _ (tblFind_mem found)

theorem State.waiters_of_calm (calm : s.calm = true) (e : Nat) : (s.engine e).waiters = [] := by
  unfold State.engine
  cases found : tblFind s.engines e with
  | none => rfl
  | some g => exact (State.calm_iff.1 calm).2 _ (tblFind_mem found)

/-- A change of a core that issues nothing leaves the state calm. -/
theorem State.calm_onCore {f : CoreState → CoreState} (queue : ∀ k, (f k).issueQ = k.issueQ) (calm : s.calm = true) :
    (s.onCore n f).calm = true :=
  State.calm_iff.2 ⟨forall_mem_tblPut (P := fun k : CoreState => k.issueQ = [])
    ((queue _).trans (State.core_issueQ_of_calm calm n)) (State.calm_iff.1 calm).1,
    (State.calm_iff.1 calm).2⟩

theorem State.calm_atRank {c rank : Nat} {f : CoreState → CoreState} (queue : ∀ k, (f k).issueQ = k.issueQ)
    (calm : s.calm = true) : (s.atRank c rank f).calm = true := by
  unfold State.atRank
  dsimp only
  split
  · split
    · split
      · exact State.calm_onCore queue calm
      · exact calm
    · exact calm
  · exact calm

/-- In a calm state no bundle issues. -/
theorem State.pumpAll_of_calm (calm : s.calm = true) : s.pumpAll = s := by
  have places (e : Nat) : State.grantPlaces e (s.engine e).waiters.length s = s := by
    rw [State.waiters_of_calm calm e]; rfl
  have idle : s.cores.filter (fun c => !c.2.issueQ.isEmpty) = [] :=
    List.filter_eq_nil_iff.2 (fun c hc => by simp [(State.calm_iff.1 calm).1 c hc])
  simp only [State.pumpAll, List.foldl_cons, List.foldl_nil, places, idle, List.map_nil]
  exact State.pumpCores_quiet (fun n hn => absurd hn List.not_mem_nil)

/-! ### What a core keeps of its queue -/

theorem CoreState.setG_issueQ (k : CoreState) (d : BitVec 6) (v : W64) : (k.setG d v).issueQ = k.issueQ := by
  unfold CoreState.setG
  split <;> rfl

theorem CoreState.noteFault_frame (k : CoreState) (f : PendingFault) : ∃ g, k.noteFault f = { k with fault := g } := by
  unfold CoreState.noteFault
  split
  · exact ⟨_, rfl⟩
  · split
    · exact ⟨k.fault, rfl⟩
    · split <;> exact ⟨_, rfl⟩

theorem CoreState.noteFault_issueQ (k : CoreState) (f : PendingFault) : (k.noteFault f).issueQ = k.issueQ := by
  obtain ⟨g, e⟩ := k.noteFault_frame f
  rw [e]

theorem CoreState.quiet_noteFault (k : CoreState) (f : PendingFault) : (k.noteFault f).quiet = k.quiet := by
  obtain ⟨g, e⟩ := k.noteFault_frame f
  rw [e]; rfl

/-! ### Requests that the home holds (R242) -/

/-- What the home holds depends on the contexts and on the appends of the cores alone. -/
theorem State.heldReq_congr (ctxs : t.ctxs = s.ctxs)
    (appends : ∀ m q, (t.core m).ops.any (fun a => a.op.appendsTo q) = (s.core m).ops.any (fun a => a.op.appendsTo q))
    (p : Nat) (r : HomeReq) : t.heldReq p r = s.heldReq p r := by
  cases r <;> simp only [State.heldReq, State.heldSeq, State.appending, State.ctxsOf, ctxs, appends]

/-- A request that arrives is served after those that wait before it. -/
theorem State.servable_append {x : HomeReq} (held : ∀ r, t.heldReq p r = s.heldReq p r)
    (queue : (t.polder p).homeQ = (s.polder p).homeQ ++ [x]) :
    t.servable p = (s.servable p).or (if s.heldReq p x then none else some x) := by
  unfold State.servable
  rw [queue, List.find?_append]
  simp only [held, List.find?_singleton]
  cases s.heldReq p x <;> rfl

/-- The home waits for a command when an `X.SEQ` is next, or nothing. -/
theorem State.drainHome_waits (next : ∀ r, s.servable p = some r → ∃ x, r = .seq x) (m : Nat) :
    State.drainHome p m s = s := by
  cases m with
  | zero => rfl
  | succ m =>
    cases first : s.servable p with
    | none => simp only [State.drainHome, first]
    | some r =>
      obtain ⟨x, rfl⟩ := next r first
      simp only [State.drainHome, first]

theorem State.servable_mem {r : HomeReq} (next : s.servable p = some r) : r ∈ (s.polder p).homeQ :=
  List.mem_of_find?_eq_some next

/-! ### A request that arrives (R234) -/

/-- A request that has joined the queue. -/
def State.arriving (s : State) (p : Nat) (r : HomeReq) : State :=
  (s.onPolder p (fun q => { q with homeQ := q.homeQ ++ [r] })).mark (0x7020 + p) 7

/-- The home once it has taken the one request of its queue. -/
def State.attended (s : State) (p : Nat) : State := (s.onPolder p (fun q => { q with homeQ := [] })).mark (0x7020 + p) 7

theorem State.askHome_eq (s : State) (p : Nat) (r : HomeReq) :
    s.askHome p r = State.drainHome p ((s.arriving p r).polder p).homeQ.length (s.arriving p r) := rfl

theorem State.homeQ_arriving (s : State) (p : Nat) (r : HomeReq) :
    ((s.arriving p r).polder p).homeQ = (s.polder p).homeQ ++ [r] := by simp [State.arriving, State.mark]

theorem State.servable_arriving (s : State) (p : Nat) (x : HomeReq) :
    (s.arriving p x).servable p = (s.servable p).or (if s.heldReq p x then none else some x) :=
  State.servable_append (State.heldReq_congr rfl (fun _ _ => rfl) p) (s.homeQ_arriving p x)

/-- The request waits: an `X.SEQ` is before it. -/
theorem State.askHome_behind {x : HomeReq} {r : SeqReq} (next : s.servable p = some (.seq r)) :
    s.askHome p x = s.arriving p x := by
  refine State.drainHome_waits (s := s.arriving p x) (fun y hy => ⟨r, ?_⟩) _
  rw [State.servable_arriving, next] at hy
  exact (Option.some.inj hy).symm

/-- An `X.SEQ` waits for the command that serves it. -/
theorem State.askHome_seq {r : SeqReq} (next : ∀ y, s.servable p = some y → ∃ x, y = .seq x) :
    s.askHome p (.seq r) = s.arriving p (.seq r) := by
  refine State.drainHome_waits (s := s.arriving p (.seq r)) (fun y hy => ?_) _
  rw [State.servable_arriving] at hy
  cases first : s.servable p with
  | some z =>
    rw [first] at hy
    exact next y (first.trans hy)
  | none =>
    rw [first, Option.none_or] at hy
    split at hy
    · exact absurd hy (by simp)
    · exact ⟨r, (Option.some.inj hy).symm⟩

theorem State.arriving_onPolder (s : State) (p : Nat) (r : HomeReq) (f : Polder → Polder) :
    (s.arriving p r).onPolder p f = (s.onPolder p (fun q => f { q with homeQ := q.homeQ ++ [r] })).mark (0x7020 + p) 7 := by
  simp [State.arriving, State.mark, State.onPolder, State.setPolder, State.setEntry, State.polder, tblPut_tblPut]

/-- The one request that waits is taken. -/
theorem State.granted_arriving {x : HomeReq} (alone : (s.polder p).homeQ = []) :
    (s.arriving p x).granted p x = s.attended p := by
  have taken : (s.arriving p x).onPolder p (fun q => { q with homeQ := q.homeQ.erase x }) = s.attended p := by
    rw [State.arriving_onPolder]
    simp only [State.attended, State.onPolder, alone, List.nil_append, List.erase_cons_head]
  unfold State.granted
  dsimp only
  rw [taken, if_pos (by simp [State.attended, State.mark])]

theorem State.servable_arriving_alone {x : HomeReq} (alone : (s.polder p).homeQ = []) (free : s.heldReq p x = false) :
    (s.arriving p x).servable p = some x := by
  rw [State.servable_arriving, free, State.servable, alone]; rfl

/-- A load or append that nothing waits before is translated at once (R239, R240). -/
theorem State.askHome_translate {x : KvReq} (alone : (s.polder p).homeQ = []) :
    s.askHome p (.translate x) = (s.attended p).translate p x := by
  rw [State.askHome_eq, State.homeQ_arriving, alone, List.nil_append, List.length_singleton, State.drainHome,
    State.servable_arriving_alone alone rfl]
  dsimp only
  rw [State.granted_arriving alone, State.drainHome]

/-- Pins that nothing waits before are released at once (R239). -/
theorem State.askHome_release {x : KvReq} (alone : (s.polder p).homeQ = []) :
    s.askHome p (.release x) = (s.attended p).unpinFor p x := by
  rw [State.askHome_eq, State.homeQ_arriving, alone, List.nil_append, List.length_singleton, State.drainHome,
    State.servable_arriving_alone alone rfl]
  dsimp only
  rw [State.granted_arriving alone, State.drainHome]

end Sys2Proof.Machine
end

section
/-! ### Sequences (R234, R236, R242 to R244)

A request that the home serves: its answer, and that nothing goes on behind it but what a command brings. -/

namespace Sys2Proof.Machine

variable {s : State} {h : SlotAt} {o : SlotOp} {op : Op} {tag : BitVec 4} {p : Nat}

/-! ### An operation of the home begins -/

/-- The bundle of one slot has issued, and the operation that the slot begins is unfinished. -/
def State.beginning (s : State) (h : SlotAt) (o : SlotOp) (tag : BitVec 4) (op : Op) : State :=
  ((s.passed (coreOf h)).onCore (coreOf h) (fun k => k.holding (s.begun h o (some tag.toNat) op))).numbered

theorem State.begin_eq_beginning (s : State) (h : SlotAt) (o : SlotOp) (tag : BitVec 4) (untimed : op.drives = []) :
    let n := coreOf h
    let c := (s.passed n).cacheCfg (s.polderOn n)
    (s.passed n).begin n (slotOf h o) (s.core n).pc (some tag) op (o.reads (s.core n) c) (o.writes (s.core n) c)
      = s.beginning h o tag op := by
  have began := s.begin_passed h o (some tag) op
  simp only [State.polderOn_passed, State.starts, untimed, List.foldl_nil] at began
  exact began

theorem State.core_beginning (s : State) (h : SlotAt) (o : SlotOp) (tag : BitVec 4) (op : Op) (m : Nat) :
    (s.beginning h o tag op).core m
      = if coreOf h = m then (s.core (coreOf h)).next.holding (s.begun h o (some tag.toNat) op) else s.core m := by
  show ((s.passed (coreOf h)).onCore (coreOf h) (fun k => k.holding (s.begun h o (some tag.toNat) op))).core m = _
  rw [State.core_onCore, State.core_passed]
  split
  · rfl
  · next ne => simp [State.passed, State.coreBump, State.core_onCore, ne]

theorem State.ctxs_beginning (s : State) (h : SlotAt) (o : SlotOp) (tag : BitVec 4) (op : Op) :
    (s.beginning h o tag op).ctxs = s.ctxs := by
  simp [State.beginning, State.numbered, State.passed, State.coreBump]

theorem State.polder_beginning (s : State) (h : SlotAt) (o : SlotOp) (tag : BitVec 4) (op : Op) (p : Nat) :
    (s.beginning h o tag op).polder p = s.polder p := by
  show ((s.passed (coreOf h)).onCore (coreOf h) (fun k => k.holding (s.begun h o (some tag.toNat) op))).polder p = _
  simp [State.passed, State.coreBump]

theorem State.polderOn_beginning (s : State) (h : SlotAt) (o : SlotOp) (tag : BitVec 4) (op : Op) :
    (s.beginning h o tag op).polderOn (coreOf h) = s.polderOn (coreOf h) := by
  rw [State.polderOn, State.core_beginning, if_pos rfl]
  rfl

/-- An operation that is no translated append leaves what the home holds (R242), and so what is next. -/
theorem State.servable_beginning (other : ∀ q, op.appendsTo q = false) (p : Nat) :
    (s.beginning h o tag op).servable p = s.servable p := by
  have held := State.heldReq_congr (s.ctxs_beginning h o tag op) (fun m q => by
    rw [State.core_beginning]
    split
    · next here =>
      subst here
      simp [CoreState.holding, CoreState.next, State.begun, other]
    · rfl) p
  simp only [State.servable, State.polder_beginning, held]

/-- An `X.SEQ` begins, and its request joins the queue of the cache home. -/
theorem gives_seq {i : Instr} {fn : Nat} {f : XFields} {c : W12} (slot : slotCommand i = some (h, .seq fn f))
    (a : s.Acts h (.seq fn f)) (context : (s.core (coreOf h)).ctx = some c)
    (next : ∀ r, s.servable (s.polderOn (coreOf h)) = some r → ∃ x, r = .seq x) :
    let k := s.core (coreOf h)
    Gives i s h (k.next.holding (s.begun h (.seq fn f) (some f.tag.toNat) (.seq f.gDst)))
      (fun u => u.numbered.arriving (s.polderOn (coreOf h)) (.seq
        { ctx := c, rank := k.rank, tag := f.tag.toNat, dst := f.gDst, fn := fn, a := k.getG f.gA, b := k.getG f.gB,
          src := bits f.imm 31 16, slot := h.slot.toNat, bundle := k.pc })) := by
  intro k
  refine gives_acts (fun k => k.holding (s.begun h (.seq fn f) (some f.tag.toNat) (.seq f.gDst))) _ a (exec_slot slot s) ?_
    (fun _ => rfl) a.quiet_next
  have effect : (s.passed (coreOf h)).effect (coreOf h) k k.pc (slotOf h (.seq fn f))
      = (s.beginning h (.seq fn f) f.tag (.seq f.gDst)).askSeq (coreOf h) k (slotOf h (.seq fn f)) k.pc fn f := by
    rw [← s.begin_eq_beginning h (.seq fn f) f.tag rfl, ← State.polderOn_passed]
    rfl
  rw [effect, State.askSeq, State.polderOn_beginning, show k.ctx = some c from context]
  exact State.askHome_seq (by rw [State.servable_beginning (fun _ => rfl)]; exact next)

/-! ### The home serves an `X.SEQ` -/

theorem State.polder_atRank (s : State) (c rank : Nat) (f : CoreState → CoreState) (p : Nat) :
    (s.atRank c rank f).polder p = s.polder p := by
  unfold State.atRank
  dsimp only
  split
  · split
    · split
      · exact State.polder_onCore ..
      · rfl
    · rfl
  · exact State.polder_setCtx ..

theorem State.calm_answerSeq (calm : s.calm = true) (p : Nat) (r : SeqReq) : (s.answerSeq p r).calm = true := by
  have served := (s.serveSeq_tended p r).calm.trans calm
  unfold State.answerSeq
  dsimp only
  split
  · exact State.calm_atRank (fun k => k.setG_issueQ ..) served
  · exact State.calm_atRank (fun k => k.noteFault_issueQ _) served

theorem State.homeQ_answerSeq (s : State) (p : Nat) (r : SeqReq) (q : Nat) :
    ((s.answerSeq p r).polder q).homeQ = (s.polder q).homeQ := by
  unfold State.answerSeq
  dsimp only
  split <;> rw [State.polder_atRank] <;> exact (s.serveSeq_tended p r).homeQ q

theorem State.timingChoice_frame (s : State) (c : Nat) :
    (s.timingChoice c).cores = s.cores ∧ (s.timingChoice c).engines = s.engines
      ∧ (s.timingChoice c).polders = s.polders := by
  simp [State.timingChoice]

/-- A request that is granted leaves its polder's queue, and no core or engine changes. -/
theorem State.granted_frame (s : State) (p : Nat) (r : HomeReq) :
    (s.granted p r).cores = s.cores ∧ (s.granted p r).engines = s.engines
      ∧ ((s.granted p r).polder p).homeQ = (s.polder p).homeQ.erase r := by
  unfold State.granted
  dsimp only
  split
  · exact ⟨rfl, rfl, congrArg Polder.homeQ (s.polder_onPolder_self p _)⟩
  · obtain ⟨cores, engines, polders⟩ :=
      (s.onPolder p (fun q => { q with homeQ := q.homeQ.erase r })).timingChoice_frame r.ctx.toNat
    refine ⟨cores, engines, ?_⟩
    rw [State.polder, polders]
    exact congrArg Polder.homeQ (s.polder_onPolder_self p _)

/-- The home answers the `X.SEQ` that is next, and waits for a command again. -/
theorem State.serveHome_seq {r : SeqReq} (next : s.servable p = some (.seq r)) (calm : s.calm = true)
    (seqs : ∀ q ∈ (s.polder p).homeQ, ∃ x, q = .seq x) : s.serveHome p = (s.granted p (.seq r)).answerSeq p r := by
  obtain ⟨cores, engines, queue⟩ := s.granted_frame p (.seq r)
  have waits : ∀ q, ((s.granted p (.seq r)).answerSeq p r).servable p = some q → ∃ x, q = .seq x := by
    intro q hq
    have listed := State.servable_mem hq
    rw [State.homeQ_answerSeq, queue] at listed
    exact seqs q (List.mem_of_mem_erase listed)
  simp only [State.serveHome, next, State.drainHome_waits waits]
  exact State.pumpAll_of_calm (State.calm_answerSeq ((State.calm_congr cores engines).trans calm) p r)

/-! ### What the home answers -/

section
variable {r : SeqReq}

/-- Accepted: the operation takes effect, and the core gets the length before it (R236). -/
theorem State.serveSeq_accepted (clean : (s.seqHome p r).poison = none) (ok : (s.seqHome p r).seqCheck r = none)
    (whole : ((s.seqHome p r).seqDo r).poison = none) :
    s.serveSeq p r
      = { state := ((s.seqHome p r).seqDo r).close, value := (s.seqHome p r).seqValue r, fault := none } := by
  simp only [State.serveSeq, clean, ok, whole, Option.map_none]

/-- Refused: the fault is noted and nothing of the cache changes (R244). -/
theorem State.serveSeq_refused {f : KvFault} (clean : (s.seqHome p r).poison = none)
    (bad : (s.seqHome p r).seqCheck r = some f) :
    s.serveSeq p r
      = { state := ((s.seqHome p r).state.kvFault p f).1, value := 0,
          fault := some (f.code, (s.seqHome p r).state.kvDetail f) } := by
  simp only [State.serveSeq, clean, bad, State.kvFault]

/-- A poisoned word of the cache stops the operation before it changes anything (R245, R310). -/
theorem State.serveSeq_poisoned {a : W64} (bad : (s.seqHome p r).poison = some a) :
    s.serveSeq p r = { state := (s.seqHome p r).state, value := 0, fault := some (faultUncorrectable, a) } := by
  simp only [State.serveSeq, bad]

end

/-- Settles O20: each request arrives where no load or append is next; the one that is served is accepted, refused, or
meets a poisoned word, and the home then waits for a command. -/
theorem sequencesServe : Obligations.SequencesServe := by
  unfold Obligations.SequencesServe
  refine ⟨fun s h f c => ?_, fun s polder r => ?_⟩
  · intro n p k asked asks context next
    exact ⟨fun a => gives_seq rfl a context next, fun a => gives_seq rfl a context next,
      fun a => gives_seq rfl a context next, fun a => gives_seq rfl a context next, fun a => gives_seq rfl a context next⟩
  · intro p home v faults next calm seqs
    have served := State.serveHome_seq next calm seqs
    refine ⟨fun clean ok whole => next_congr (served.trans ?_), fun f clean bad => next_congr (served.trans ?_),
      fun a bad => next_congr (served.trans ?_)⟩
    · rw [State.answerSeq, State.serveSeq_accepted clean ok whole]; rfl
    · rw [State.answerSeq, State.serveSeq_refused clean bad]
    · rw [State.answerSeq, State.serveSeq_poisoned bad]

end Sys2Proof.Machine
end

section
/-! ### Loads and appends at the home (R237 to R240)

Which operation a request is for, and that the translation of one leaves its rank where it stands. -/

namespace Sys2Proof.Machine

variable {s t : State} {h : SlotAt} {n p rank : Nat} {c : W12}

/-! ### A rank of a context on its core (R329) -/

/-- The rank of a context that no save has put aside stands on a core, which runs that context. -/
structure State.Stands (s : State) (c : W12) (rank n : Nat) : Prop where
  images : (s.ctx c.toNat).images = []
  rank : (s.ctx c.toNat).cores[rank]? = some n
  ctx : (s.core n).ctx = some c

theorem State.Stands.atRank_eq (h : s.Stands c rank n) (f : CoreState → CoreState) :
    s.atRank c.toNat rank f = s.onCore n f := by
  simp [State.atRank, h.images, h.rank, h.ctx]

theorem State.Stands.rankCore_eq (h : s.Stands c rank n) : s.rankCore c.toNat rank = some (n, s.core n) := by
  simp [State.rankCore, h.images, h.rank, h.ctx]

theorem State.Stands.congr (h : s.Stands c rank n) (ctxs : t.ctxs = s.ctxs) (core : (t.core n).ctx = (s.core n).ctx) :
    t.Stands c rank n :=
  ⟨by rw [State.ctx_congr ctxs]; exact h.images, by rw [State.ctx_congr ctxs]; exact h.rank, core.trans h.ctx⟩

theorem State.Stands.tended (h : s.Stands c rank n) (served : s.Tended t) : t.Stands c rank n :=
  h.congr served.ctxs (by simp only [State.core, served.cores])

theorem State.Stands.onCore (h : s.Stands c rank n) {f : CoreState → CoreState} (keeps : ∀ k, (f k).ctx = k.ctx) :
    (s.onCore n f).Stands c rank n :=
  h.congr rfl (by rw [State.core_onCore_self, keeps])

/-! ### The operation that a request is for -/

/-- The job of a load, or of an append. -/
def Op.kvJob : Op → Option (KvJob × Bool)
  | .kvload j => some (j, false)
  | .kvappend j => some (j, true)
  | _ => none

/-- A load or an append under a tag, with its job. -/
def AsyncOp.kvUnder (tag : Nat) (a : AsyncOp) : Option (AsyncOp × KvJob × Bool) :=
  if a.tag != some tag then none else a.op.kvJob.map (fun x => (a, x.1, x.2))

theorem CoreState.kvUnder_eq (k : CoreState) (tag : Nat) : k.kvUnder tag = k.ops.findSome? (AsyncOp.kvUnder tag) := by
  unfold CoreState.kvUnder
  congr 1
  funext a
  unfold AsyncOp.kvUnder
  cases a.op <;> rfl

theorem AsyncOp.kvUnder_eq_some {tag : Nat} {a b : AsyncOp} {j : KvJob} {append : Bool} :
    a.kvUnder tag = some (b, j, append) ↔ a = b ∧ a.tag = some tag ∧ a.op.kvJob = some (j, append) := by
  unfold AsyncOp.kvUnder
  by_cases held : a.tag = some tag
  · simp only [held, bne_self_eq_false, Bool.false_eq_true, if_false, Option.map_eq_some_iff, Prod.mk.injEq, true_and]
    constructor
    · rintro ⟨_, job, rfl, rfl, rfl⟩
      exact ⟨rfl, job⟩
    · rintro ⟨rfl, job⟩
      exact ⟨_, job, rfl, rfl, rfl⟩
  · simp [held]

/-- The operation that has just begun is the one under its tag, which none held before it. -/
theorem CoreState.kvUnder_holding {k : CoreState} {a : AsyncOp} {tag : BitVec 4} {j : KvJob} {append : Bool}
    (free : k.tagHeld tag = false) (held : a.tag = some tag.toNat) (job : a.op.kvJob = some (j, append)) :
    (k.next.holding a).kvUnder tag.toNat = some (a, j, append) := by
  have before : k.ops.findSome? (AsyncOp.kvUnder tag.toNat) = none := by
    refine List.findSome?_eq_none_iff.2 (fun o ho => ?_)
    have other : ¬ o.tag = some tag.toNat := by simpa using List.any_eq_false.1 free o ho
    simp [AsyncOp.kvUnder, other]
  rw [CoreState.kvUnder_eq]
  show (k.ops ++ [a]).findSome? _ = _
  rw [List.findSome?_append, before, Option.none_or]
  simp [AsyncOp.kvUnder_eq_some.2 ⟨rfl, held, job⟩]

/-- A load under a tag is the one that its end finds. -/
theorem CoreState.opUnder_of_kvUnder {k : CoreState} {tag : Nat} {a : AsyncOp} {j : KvJob}
    (found : k.kvUnder tag = some (a, j, false)) : k.opUnder tag Op.isKvload = some a ∧ a.op = .kvload j := by
  rw [CoreState.kvUnder_eq] at found
  obtain ⟨before, b, after, ops, at_b, others⟩ := List.findSome?_eq_some_iff.1 found
  obtain ⟨rfl, held, job⟩ := AsyncOp.kvUnder_eq_some.1 at_b
  have load : b.op = .kvload j := by
    cases e : b.op <;> simp_all [Op.kvJob]
  refine ⟨List.find?_eq_some_iff_append.2 ⟨by simp [held, load, Op.isKvload], before, after, ops, fun o ho => ?_⟩, load⟩
  have other := others o ho
  unfold AsyncOp.kvUnder at other
  cases e : o.op <;> simp_all [Op.kvJob, Op.isKvload]

/-- An operation with another job, if it is a load or append with this stamp. -/
def AsyncOp.withJob (stamp : Nat) (j : KvJob) (a : AsyncOp) : AsyncOp :=
  if a.stamp != stamp then a else match a.op with
    | .kvload _ => { a with op := .kvload j }
    | .kvappend _ => { a with op := .kvappend j }
    | _ => a

theorem CoreState.setJob_eq (k : CoreState) (stamp : Nat) (j : KvJob) :
    k.setJob stamp j = { k with ops := k.ops.map (AsyncOp.withJob stamp j) } := rfl

theorem AsyncOp.kvUnder_withJob_none {tag stamp : Nat} {j : KvJob} {a : AsyncOp} (other : a.kvUnder tag = none) :
    (a.withJob stamp j).kvUnder tag = none := by
  unfold AsyncOp.withJob
  split
  · exact other
  · unfold AsyncOp.kvUnder at other ⊢
    split <;> simp_all [Op.kvJob]

/-- A load or append keeps its tag and its place when its job is replaced. -/
theorem CoreState.kvUnder_setJob {k : CoreState} {tag : Nat} {a : AsyncOp} {j : KvJob} {append : Bool}
    (found : k.kvUnder tag = some (a, j, append)) (j' : KvJob) :
    (k.setJob a.stamp j').kvUnder tag = some (a.withJob a.stamp j', j', append) := by
  rw [CoreState.kvUnder_eq] at found
  obtain ⟨before, b, after, ops, at_b, others⟩ := List.findSome?_eq_some_iff.1 found
  obtain ⟨rfl, held, job⟩ := AsyncOp.kvUnder_eq_some.1 at_b
  have here : (b.withJob b.stamp j').kvUnder tag = some (b.withJob b.stamp j', j', append) := by
    refine AsyncOp.kvUnder_eq_some.2 ⟨rfl, ?_⟩
    cases e : b.op <;> simp_all [Op.kvJob, AsyncOp.withJob]
  rw [CoreState.kvUnder_eq, CoreState.setJob_eq]
  refine List.findSome?_eq_some_iff.2
    ⟨before.map (AsyncOp.withJob b.stamp j'), b.withJob b.stamp j', after.map (AsyncOp.withJob b.stamp j'), ?_, here, ?_⟩
  · simp only [ops, List.map_append, List.map_cons]
  · intro o ho
    obtain ⟨o', ho', rfl⟩ := List.mem_map.1 ho
    exact AsyncOp.kvUnder_withJob_none (others o' ho')

/-! ### The state of a polder's cache, once a bundle has issued -/

theorem State.entry_bump_ne {i j i' j' : Nat} (ne : entryKey i j ≠ entryKey i' j') (m : Nat) :
    (s.bump i j m).entry i' j' = s.entry i' j' := by
  unfold State.bump
  split
  · rfl
  · simp only [State.entry, State.find_bumpW, if_neg ne, State.bumpW_kept]

/-- The count of an issued bundle is no entry of `CACHE_CONFIG` (R77, R247). -/
theorem State.cacheCfg_passed (s : State) (h : SlotAt) (p : Nat) : (s.passed (coreOf h)).cacheCfg p = s.cacheCfg p := by
  have core : coreOf h < 256 := h.core.isLt
  have entry (i : Nat) (hi : i < 16) : (s.passed (coreOf h)).entry (0x7010 + p) i = s.entry (0x7010 + p) i :=
    State.entry_bump_ne (s := s.onCore (coreOf h) CoreState.next) (by unfold entryKey coreIndex; omega) 1
  simp [State.cacheCfg, entry]

/-! ### Translation (R239, R240) -/

theorem State.kvHome_accessed (s : State) (p : Nat) (j : KvJob) : s.Accessed (s.kvHome p j).state := by
  unfold State.kvHome
  split
  · exact (s.home p).fetch_accessed _
  · exact .refl s

theorem Home.foldl_pin_accessed (h : Home) (pins : List Nat) : h.state.Accessed (pins.foldl Home.pin h).state :=
  State.Accessed.foldl Home.state Home.pin_accessed pins h

theorem Home.refuse_accessed (h : Home) (j : KvJob) (f : KvFault) : h.state.Accessed (h.refuse j f).state :=
  h.state.kvFault_accessed ..

/-- Rows that are gathered into the store of a rank leave the rank where it stands. -/
theorem State.Stands.gather {r : Requester} {cfg : CacheCfg} {j : KvJob} {snapshot : Nat}
    {put : Nat → List Byte → State → State}
    (puts : ∀ o bs u, u.Stands c rank n → (put o bs u).Stands c rank n) (rows : List (Nat × Nat × Nat × Nat))
    (h : s.Stands c rank n) : (s.gather r cfg j snapshot put rows).1.Stands c rank n := by
  induction rows generalizing s with
  | nil => exact h
  | cons x rows ih =>
    unfold State.gather
    dsimp only
    split
    · split
      · exact h
      · next page _ =>
        have row := (State.Accessed.refl s).readView r (cfg.rowAddr page x.1 x.2.1 (x.2.2.1 % 16)) cfg.rowBytes
        have read := h.tended row.tended
        split
        · exact read
        · exact ih (puts _ _ _ read)
    · exact ih (puts _ _ _ h)

/-- A load whose pages are pinned gathers its image. -/
theorem State.Stands.image {x : KvReq} {home : Home} (h : s.Stands x.ctx x.rank n) (pinned : s.Accessed home.state)
    (r : Requester) (cfg : CacheCfg) (j : KvJob) (snapshot : Nat) (rows : List (Nat × Nat × Nat × Nat)) :
    (home.close.gather r cfg j snapshot (fun o bs u => u.atRank x.ctx.toNat x.rank (fun k => k.putWs o bs)) rows).1.Stands
      x.ctx x.rank n := by
  refine State.Stands.gather (fun o bs u hu => ?_) rows (h.tended (pinned.tended.trans home.close_tended))
  rw [hu.atRank_eq]
  exact hu.onCore (fun _ => rfl)

theorem State.Stands.kvLoad {x : KvReq} (core p : Nat) (j : KvJob) (h : s.Stands x.ctx x.rank n) :
    (s.kvLoad core p x j).state.Stands x.ctx x.rank n := by
  have entry := s.kvHome_accessed p j
  unfold State.kvLoad
  dsimp only
  split
  · exact h.tended entry.tended
  · exact h.tended (entry.trans (Home.refuse_accessed ..)).tended
  · have table (as : List W64) := entry.trans ((s.kvHome p j).fetchAll_accessed as)
    split
    · exact h.tended (table _).tended
    · exact h.tended ((table _).trans (Home.refuse_accessed ..)).tended
    · have pinned (as : List W64) (pins : List Nat) :=
        (table as).trans (((s.kvHome p j).fetchAll as).foldl_pin_accessed pins)
      split
      · exact h.tended (pinned _ _).tended
      · exact h.image (pinned _ _) ..

/-- An entry that maps a page of the stack from then on. -/
theorem Home.mapPopped_accessed (h : Home) (n refs pins : Nat) (a : W64) (page : Option Nat) :
    h.state.Accessed ((h.pop.1.setMeta n refs pins).setPtEntry a page).state :=
  (h.pop_accessed.trans (h.pop.1.setMeta_accessed n refs pins)).trans
    ((h.pop.1.setMeta n refs pins).setPtEntry_accessed a page)

theorem Resolving.entry_accessed (x : Resolving) (i : Nat) (a : W64) : x.home.state.Accessed (x.entry i a).home.state := by
  unfold Resolving.entry
  split
  · dsimp only
    exact x.home.mapPopped_accessed ..
  · dsimp only
    split
    · exact x.home.pop_accessed
    · exact .refl _

/-- The entries of an append, resolved one after another. -/
def Home.resolving (home : Home) (l : List (Nat × W64 × Nat)) : Resolving :=
  l.foldl (fun (x : Resolving) y => x.entry y.1 y.2.1) { home := home, zero := [], pages := [], cows := [] }

theorem Home.resolving_accessed (home : Home) (l : List (Nat × W64 × Nat)) :
    home.state.Accessed (home.resolving l).home.state :=
  State.Accessed.foldl (fun x : Resolving => x.home.state) (fun x _ => x.entry_accessed ..) l _

theorem State.foldl_zeroRange_accessed (s : State) (p m : Nat) (base : Nat → W64) (l : List Nat) :
    s.Accessed (l.foldl (fun s n => s.zeroRange p (base n) m) s) :=
  State.Accessed.foldl id (fun u _ => (State.Accessed.refl u).zeroRange ..) l s

theorem State.kvAppend_tended (s : State) (p : Nat) (j : KvJob) : s.Tended (s.kvAppend p j).state := by
  have entry := s.kvHome_accessed p j
  unfold State.kvAppend
  dsimp only
  split
  · exact entry.tended
  · exact (entry.trans (Home.refuse_accessed ..)).tended
  · have table (as bs : List W64) :=
      (entry.trans ((s.kvHome p j).fetchAll_accessed as)).trans (((s.kvHome p j).fetchAll as).fetchAll_accessed bs)
    split
    · exact ((table _ _).trans (Home.refuse_accessed ..)).tended
    · have resolved (as bs : List W64) (l : List (Nat × W64 × Nat)) :=
        (table as bs).trans ((((s.kvHome p j).fetchAll as).fetchAll bs).resolving_accessed l)
      split
      · exact (resolved _ _ _).tended
      · exact ((resolved _ _ _).tended.trans (Home.close_tended _)).trans (State.foldl_zeroRange_accessed ..).tended

end Sys2Proof.Machine
end

section
/-! ### Loads and appends of rows (R237 to R241)

The home translates a load or an append at once where nothing waits before it; a load's pins are released, a copy on write
switches, and an append's rows are written as it ends. -/

namespace Sys2Proof.Machine

variable {s : State} {h : SlotAt} {o : SlotOp} {op : Op} {n p rank : Nat} {c : W12} {j : KvJob} {append : Bool} {x : KvReq}

/-! ### What a translation leaves at its core -/

theorem CoreState.quiet_setJob (k : CoreState) (stamp : Nat) (j : KvJob) : (k.setJob stamp j).quiet = k.quiet := rfl

/-- What the home makes of a load, or of an append. -/
def State.translated (s : State) (n p : Nat) (x : KvReq) (j : KvJob) (append : Bool) : Translated :=
  if append then s.kvAppend p j else s.kvLoad n p x j

theorem State.Stands.translated (h : s.Stands x.ctx x.rank n) (p : Nat) (j : KvJob) (append : Bool) :
    (s.translated n p x j append).state.Stands x.ctx x.rank n := by
  unfold State.translated
  split
  · exact h.tended (s.kvAppend_tended p j)
  · exact h.kvLoad ..

/-- The core as a translation leaves it: the job as translated, and the fault, if there is one. -/
def CoreState.told (k : CoreState) (stamp : Nat) (x : KvReq) (t : Translated) : CoreState :=
  match t.fault with
  | none => k.setJob stamp t.job
  | some e => (k.setJob stamp t.job).noteFault { code := e.1, detail := e.2, slot := x.slot, bundle := x.bundle, more := 0 }

theorem CoreState.told_none {stamp : Nat} {t : Translated} (ok : t.fault = none) :
    (fun k : CoreState => k.told stamp x t) = fun k => k.setJob stamp t.job := by
  simp only [CoreState.told, ok]

theorem CoreState.told_some {stamp : Nat} {t : Translated} {e : Nat × W64} (bad : t.fault = some e) :
    (fun k : CoreState => k.told stamp x t) = fun k => (k.setJob stamp t.job).noteFault
      { code := e.1, detail := e.2, slot := x.slot, bundle := x.bundle, more := 0 } := by
  simp only [CoreState.told, bad]

theorem CoreState.quiet_told (k : CoreState) (stamp : Nat) (x : KvReq) (t : Translated) :
    (k.told stamp x t).quiet = k.quiet := by
  unfold CoreState.told
  split
  · rfl
  · rw [CoreState.quiet_noteFault, CoreState.quiet_setJob]

/-- The home translates the operation that it finds, whose core hears what came of it. -/
theorem State.Stands.translate_eq {a : AsyncOp} (h : s.Stands x.ctx x.rank n)
    (found : (s.core n).kvUnder x.tag = some (a, j, append)) :
    let t := s.translated n p x j append
    s.translate p x = t.state.onCore n (fun q => q.told a.stamp x t) := by
  intro t
  have stands : t.state.Stands x.ctx x.rank n := h.translated p j append
  have eq : s.translate p x
      = (t.state.atRank x.ctx.toNat x.rank (fun k => k.setJob a.stamp t.job)).raiseReq x t.fault := by
    simp only [State.translate, h.rankCore_eq, found, t, State.translated]
  rw [eq, stands.atRank_eq]
  cases fault : t.fault with
  | none => simp only [State.raiseReq, CoreState.told, fault]
  | some e =>
    simp only [State.raiseReq, CoreState.told, fault]
    rw [(stands.onCore (f := fun k => k.setJob a.stamp t.job) (fun _ => rfl)).atRank_eq]
    exact State.onCore_setCore ..

/-! ### A load or an append goes to the home -/

theorem Op.drives_of_kvJob (job : op.kvJob = some (j, append)) : op.drives = [] := by
  cases op <;> simp_all [Op.kvJob, Op.drives]

/-- An append that is still to be translated holds nothing up (R242). -/
theorem Op.appendsTo_asked (job : op.kvJob = some (j, append)) (asked : j.stage = .asked) (q : Nat) :
    op.appendsTo q = false := by
  cases op <;> simp_all [Op.kvJob, Op.appendsTo]

theorem State.Stands.beginning (st : s.Stands c rank (coreOf h)) (tag : BitVec 4) :
    ((s.beginning h o tag op).attended p).Stands c rank (coreOf h) := by
  refine st.congr (s.ctxs_beginning h o tag op) ?_
  show ((s.beginning h o tag op).core (coreOf h)).ctx = _
  rw [State.core_beginning, if_pos rfl]
  rfl

section
variable {i : Instr} {f : KFields}

/-- The request that a core sends to the home for a load or an append of its bundle (R234). -/
def CoreState.kvReq (k : CoreState) (h : SlotAt) (c : W12) (tag : BitVec 4) : KvReq :=
  { ctx := c, rank := k.rank, tag := tag.toNat, slot := h.slot.toNat, bundle := k.pc }

/-- A slot that is a load or an append: it acts, and what it begins. -/
structure State.Asks (s : State) (h : SlotAt) (i : Instr) (o : SlotOp) (op : Op) (f : KFields) (c : W12) (j : KvJob)
    (append : Bool) : Prop where
  slot : slotCommand i = some (h, o)
  acts : s.Acts h o
  tag : o.tag = some f.tag
  effect : (s.passed (coreOf h)).effect (coreOf h) (s.core (coreOf h)) (s.core (coreOf h)).pc (slotOf h o)
    = (s.passed (coreOf h)).doKv (coreOf h) (s.core (coreOf h)) (slotOf h o) f op (s.core (coreOf h)).pc
  job : op.kvJob = some (j, append)
  asked : j.stage = .asked
  context : (s.core (coreOf h)).ctx = some c

variable (a : s.Asks h i o op f c j append)
include a

/-- The operation begins, and its request goes to the home. -/
theorem State.Asks.effect_eq :
    (s.passed (coreOf h)).effect (coreOf h) (s.core (coreOf h)) (s.core (coreOf h)).pc (slotOf h o)
      = (s.beginning h o f.tag op).askHome (s.polderOn (coreOf h)) (.translate ((s.core (coreOf h)).kvReq h c f.tag)) := by
  rw [a.effect, ← s.begin_eq_beginning h o f.tag (Op.drives_of_kvJob a.job), State.doKv, State.polderOn_passed, a.context]
  rfl

/-- Its footprints are those under the polder's configuration as it stood before the bundle. -/
theorem State.Asks.begin_eq :
    let n := coreOf h
    let p := s.polderOn n
    (s.passed n).begin n (slotOf h o) (s.core n).pc (some f.tag) op (o.reads (s.core n) (s.cacheCfg p))
      (o.writes (s.core n) (s.cacheCfg p)) = s.beginning h o f.tag op := by
  intro n p
  rw [← s.begin_eq_beginning h o f.tag (Op.drives_of_kvJob a.job), State.cacheCfg_passed]

/-- Nothing waits before it: the home translates it at once. -/
theorem State.Asks.translated (alone : (s.polder (s.polderOn (coreOf h))).homeQ = [])
    (st : s.Stands c (s.core (coreOf h)).rank (coreOf h)) :
    let n := coreOf h
    let p := s.polderOn n
    let x := (s.core n).kvReq h c f.tag
    let t := ((s.beginning h o f.tag op).attended p).translated n p x j append
    (t.state.core n).quiet = true → exec i s = .next (t.state.onCore n (fun q => q.told s.nextId x t)) := by
  intro n p x t quiet
  have free := a.acts.units.1 _ a.tag
  have core : ((s.beginning h o f.tag op).attended p).core n
      = (s.core n).next.holding (s.begun h o (some f.tag.toNat) op) := (s.core_beginning ..).trans (if_pos rfl)
  have found : (((s.beginning h o f.tag op).attended p).core n).kvUnder x.tag
      = some (s.begun h o (some f.tag.toNat) op, j, append) := by
    rw [core]
    exact CoreState.kvUnder_holding free rfl a.job
  have effect := a.effect_eq
  rw [State.askHome_translate (by rw [State.polder_beginning]; exact alone),
    State.Stands.translate_eq (x := x) (st.beginning f.tag) found] at effect
  rw [exec_slot a.slot, s.stage_acts h o a.acts, effect]
  · rfl
  · rw [effect, State.core_onCore_self, CoreState.quiet_told]
    exact quiet

/-- An `X.SEQ` is next: the request waits behind it. -/
theorem State.Asks.waits {r : SeqReq} (next : s.servable (s.polderOn (coreOf h)) = some (.seq r)) :
    exec i s = .next ((s.beginning h o f.tag op).arriving (s.polderOn (coreOf h))
      (.translate ((s.core (coreOf h)).kvReq h c f.tag))) := by
  have effect := a.effect_eq
  rw [State.askHome_behind (by rw [State.servable_beginning (Op.appendsTo_asked a.job a.asked)]; exact next)] at effect
  rw [exec_slot a.slot, s.stage_acts h o a.acts, effect]
  rw [effect]
  show ((s.beginning h o f.tag op).core (coreOf h)).quiet = true
  rw [State.core_beginning, if_pos rfl]
  exact a.acts.quiet_next

end

/-- A request that arrives at a queue that reads as another state's does. -/
theorem State.arriving_eq {l : List HomeReq} (queue : (s.polder p).homeQ = l) (r : HomeReq) :
    s.arriving p r = (s.onPolder p (fun q => { q with homeQ := l ++ [r] })).mark (0x7020 + p) 7 := by
  subst queue
  rfl

/-! ### The pins of a load are released (R239) -/

theorem Home.foldl_unpin_accessed (h : Home) (pins : List Nat) : h.state.Accessed (pins.foldl Home.unpin h).state :=
  State.Accessed.foldl Home.state Home.unpin_accessed pins h

theorem State.releasePins_tended (s : State) (p : Nat) (pins : List Nat) :
    s.Tended (pins.foldl Home.unpin (s.home p)).close :=
  ((s.home p).foldl_unpin_accessed pins).tended.trans (Home.close_tended _)

/-- The home releases the pins of the load that it finds, whose tag is free. -/
theorem State.Stands.unpinFor_eq {a : AsyncOp} (h : s.Stands x.ctx x.rank n)
    (found : (s.core n).kvUnder x.tag = some (a, j, append))
    (clean : (j.pins.foldl Home.unpin (s.home p)).poison = none) :
    s.unpinFor p x = (j.pins.foldl Home.unpin (s.home p)).close.onCore n (fun k => k.freeTag x.tag) := by
  simp only [State.unpinFor, h.rankCore_eq, found, State.releasePins, clean, Option.map_none, State.raiseReq]
  exact (h.tended (s.releasePins_tended p j.pins)).atRank_eq _

/-- The state in which the home takes the release of a load's pins. -/
def State.releasing (s : State) (n : Nat) (a : AsyncOp) (j : KvJob) : State :=
  (s.onCore n (fun q => q.setJob a.stamp { j with stage := .releasing })).attended (s.polderOn n)

theorem State.core_releasing (s : State) (n : Nat) (a : AsyncOp) (j : KvJob) :
    (s.releasing n a j).core n = (s.core n).setJob a.stamp { j with stage := .releasing } := by
  show (s.onCore n (fun q => q.setJob a.stamp { j with stage := .releasing })).core n = _
  rw [State.core_onCore_self]

theorem State.calm_releasing (calm : s.calm = true) (n : Nat) (a : AsyncOp) (j : KvJob) :
    (s.releasing n a j).calm = true :=
  State.calm_onCore (f := fun q => q.setJob a.stamp { j with stage := .releasing }) (fun _ => rfl) calm

theorem State.endKvload_eq {a : AsyncOp} {tag : Nat} (found : (s.core n).kvUnder tag = some (a, j, false))
    (stage : j.stage = .translated) (st : s.Stands c (s.core n).rank n) (alone : (s.polder (s.polderOn n)).homeQ = [])
    (clean : (j.pins.foldl Home.unpin ((s.releasing n a j).home (s.polderOn n))).poison = none) (calm : s.calm = true) :
    s.endKvload n tag = (j.pins.foldl Home.unpin ((s.releasing n a j).home (s.polderOn n))).close.onCore n
      (fun q => q.freeTag tag) := by
  obtain ⟨under, load⟩ := CoreState.opUnder_of_kvUnder found
  have stands : (s.releasing n a j).Stands c (s.core n).rank n :=
    st.congr rfl (by rw [State.core_releasing]; rfl)
  have released := State.Stands.unpinFor_eq (p := s.polderOn n) (j := { j with stage := .releasing })
    (x := { ctx := c, rank := (s.core n).rank, tag := tag, slot := a.slot, bundle := a.bundle }) stands
    (by rw [State.core_releasing]; exact CoreState.kvUnder_setJob found _) clean
  simp only [State.endKvload, under, st.ctx, load, stage, if_true]
  rw [State.askHome_release (by simpa using alone)]
  refine (congrArg State.pumpAll released).trans (State.pumpAll_of_calm (State.calm_onCore (fun _ => rfl) ?_))
  exact (State.releasePins_tended ..).calm.trans (State.calm_releasing calm n a j)

/-! ### A copy on write switches (R241) -/

theorem State.switchCow_eq {a : AsyncOp} {tag old new : Nat} {e : W64} {rest : List (W64 × Nat × Nat)}
    (under : (s.core n).opUnder tag Op.isAppend = some a) (job : a.op = .kvappend j) (cows : j.cows = (e, old, new) :: rest)
    (clean : (s.cowSwitch (s.polderOn n) e old new).2 = none) :
    s.switchCow n tag = (s.cowSwitch (s.polderOn n) e old new).1.onCore n
      (fun q => q.setJob a.stamp { j with cows := rest }) := by
  simp only [State.switchCow, under, job, cows, clean]

/-! ### An append writes its rows (R240) -/

theorem State.kvWrite_accessed (s : State) (n p : Nat) (j : KvJob) : s.Accessed (s.kvWrite n p j) := by
  unfold State.kvWrite
  refine State.Accessed.foldl id (fun u y => ?_) _ s
  dsimp only [id]
  split
  · exact .refl _
  · exact (State.Accessed.refl u).writeView ..

theorem CoreState.foldl_ws_frame {α : Type} {f : CoreState → α → CoreState}
    (puts : ∀ k x, ∃ ws, f k x = { k with ws := ws }) (l : List α) (k : CoreState) : ∃ ws, l.foldl f k = { k with ws := ws } := by
  refine foldl_keeps (fun q : CoreState => ∃ ws, q = { k with ws := ws }) (fun q x => ?_) l ⟨k.ws, rfl⟩
  rintro ⟨ws, rfl⟩
  exact puts _ x

/-- What an operation sees of its core differs in the working store alone (R56). -/
theorem CoreState.seenBy_frame (k : CoreState) (a : AsyncOp) : ∃ ws, k.seenBy a = { k with ws := ws } :=
  CoreState.foldl_ws_frame (fun _ _ => ⟨_, rfl⟩) a.before k

theorem CoreState.unseen_frame (k old : CoreState) (a : AsyncOp) : ∃ ws, k.unseen old a = { k with ws := ws } :=
  CoreState.foldl_ws_frame (fun _ _ => ⟨_, rfl⟩) a.before k

section
variable {a : AsyncOp}

theorem State.polderOn_seenBy (s : State) (n : Nat) (a : AsyncOp) :
    (s.onCore n (fun k => k.seenBy a)).polderOn n = s.polderOn n := by
  obtain ⟨ws, e⟩ := (s.core n).seenBy_frame a
  rw [State.polderOn, State.core_onCore_self, e]
  rfl

/-- The state in which an append's rows are written. -/
def State.appended (s : State) (n : Nat) (a : AsyncOp) (j : KvJob) : State :=
  (s.seeing n a (fun u => (u.kvWrite n (s.polderOn n) j, ()))).1

/-- The rows are written in the polder that the core has while its operation sees its lines. -/
theorem State.seeing_kvWrite (s : State) (n : Nat) (a : AsyncOp) (j : KvJob) :
    (s.seeing n a (fun u => (u.kvWrite n (u.polderOn n) j, ()))).1 = s.appended n a j := by
  simp only [State.appended, State.seeing, State.polderOn_seenBy]

theorem State.calm_appended (calm : s.calm = true) (a : AsyncOp) (j : KvJob) : (s.appended n a j).calm = true := by
  have written (u : State) (hu : u.calm = true) : (u.kvWrite n (s.polderOn n) j).calm = true :=
    (u.kvWrite_accessed ..).tended.calm.trans hu
  unfold State.appended State.seeing
  split
  · exact written s calm
  · refine State.calm_onCore (fun k => ?_) (written _ (State.calm_onCore (fun k => ?_) calm))
    · obtain ⟨ws, e⟩ := k.unseen_frame (s.core n) a
      rw [e]
    · obtain ⟨ws, e⟩ := k.seenBy_frame a
      rw [e]

theorem State.quiet_appended (quiet : (s.core n).quiet = true) (a : AsyncOp) (j : KvJob) :
    ((s.appended n a j).core n).quiet = true := by
  have written (u : State) : (u.kvWrite n (s.polderOn n) j).core n = u.core n := by
    simp only [State.core, (u.kvWrite_accessed ..).cores]
  unfold State.appended State.seeing
  split
  · rw [written]
    exact quiet
  · obtain ⟨ws, e⟩ := (s.core n).seenBy_frame a
    obtain ⟨ws', e'⟩ := ((s.core n).seenBy a).unseen_frame (s.core n) a
    rw [State.core_onCore_self, written, State.core_onCore_self, e', e]
    exact quiet

theorem State.endKvappend_eq {tag : Nat} (under : (s.core n).opUnder tag Op.isAppend = some a) (job : a.op = .kvappend j)
    (stage : j.stage = .translated) (cows : j.cows = []) (calm : s.calm = true) (quiet : (s.core n).quiet = true) :
    s.endKvappend n tag = (s.appended n a j).onCore n (fun q => q.without a) := by
  simp only [State.endKvappend, under, job, stage, cows, and_self, if_true, State.seeing_kvWrite]
  rw [State.endOp_done a (State.quiet_appended quiet a j)]
  exact State.pumpAll_of_calm (State.calm_onCore (fun _ => rfl) (State.calm_appended calm a j))

end

/-- Settles O21: a load or an append is translated at once or waits behind an `X.SEQ`, its image (log entry 26) and its
footprints those of its own bundle; then the pins, the copies on write (log entry 49) and the rows, each by what its command
finds. -/
theorem cacheTransfers : Obligations.CacheTransfers := by
  unfold Obligations.CacheTransfers
  refine ⟨fun s h f c => ?_, fun s core tag c a j e old new rest => ?_⟩
  · intro n p k j x asked translated context images rank
    have st : s.Stands c k.rank n := ⟨images, rank, context⟩
    have load (acts : s.Acts h (.kvload f)) : s.Asks h (.aKvload h f) (.kvload f) (.kvload j) f c j false :=
      ⟨rfl, acts, rfl, rfl, rfl, rfl, context⟩
    have app (acts : s.Acts h (.kvappend f)) : s.Asks h (.aKvappend h f) (.kvappend f) (.kvappend j) f c j true :=
      ⟨rfl, acts, rfl, rfl, rfl, rfl, context⟩
    have outcome {i : Instr} {o : SlotOp} {op : Op} {j : KvJob} {append : Bool} (asks : s.Asks h i o op f c j append)
        (alone : (s.polder p).homeQ = []) :
        translated i (((s.beginning h o f.tag op).attended p).translated n p x j append) := by
      intro quiet
      have done := asks.translated alone st quiet
      exact ⟨fun ok => done.trans (next_congr (congrArg (State.onCore _ n) (CoreState.told_none ok))),
        fun e bad => done.trans (next_congr (congrArg (State.onCore _ n) (CoreState.told_some bad)))⟩
    have waits {i : Instr} {o : SlotOp} {op : Op} {j : KvJob} {append : Bool} (asks : s.Asks h i o op f c j append)
        {r : SeqReq} (next : s.servable p = some (.seq r)) :
        exec i s = .next (asked o op ((s.polder p).homeQ ++ [.translate x])) := by
      rw [asks.waits next, State.arriving_eq (congrArg Polder.homeQ (s.polder_beginning h o f.tag op p)), ← asks.begin_eq]
      rfl
    refine ⟨fun alone => ⟨fun acts => ?_, fun acts => ?_⟩, fun r next => ⟨fun acts => waits (load acts) next,
      fun acts => waits (app acts) next⟩⟩
    · have done := outcome (load acts) alone
      rw [← (load acts).begin_eq] at done
      exact done
    · have done := outcome (app acts) alone
      rw [← (app acts).begin_eq] at done
      exact done
  · intro n p k asked home
    refine ⟨fun found stage context images rank alone clean calm => ?_, fun under job cows clean => ?_,
      fun under job stage cows calm quiet => ?_⟩
    · exact next_congr (State.endKvload_eq found stage ⟨images, rank, context⟩ alone clean calm)
    · exact next_congr (State.switchCow_eq under job cows clean)
    · exact next_congr (State.endKvappend_eq under job stage cows calm quiet)

end Sys2Proof.Machine
end

section
/-! ### The comparator and its posts (R248 to R254, R260, R261)

What the four `V.SLUICE` operations leave of a core and count, and what the sluice home does with the first post. -/

namespace Sys2Proof.Machine

variable {s : State} {h : SlotAt} {sop : Nat} {f : LFields} {i : Instr}

/-! ### Predicates and the comparator among the parts of a core -/

theorem CoreState.sluice_setP (k : CoreState) (r : BitVec 4) (v : Bool) : (k.setP r v).sluice = k.sluice := by
  unfold CoreState.setP
  split <;> rfl

/-- The core once a DECIDE has left its predicate and cleared the tile state (R251). -/
def CoreState.decided (f : LFields) (v : Bool) (k : CoreState) : CoreState :=
  { k.setP f.pdst v with sluice := (k.setP f.pdst v).sluice.clear }

theorem CoreState.quiet_decided (k : CoreState) (v : Bool) : (k.decided f v).quiet = k.quiet := k.quiet_setP f.pdst v

/-! ### A DECIDE -/

/-- What a DECIDE with an open gate counts: itself, its outcome `d` and the unfit tile, a tide step included (log entry 44). -/
def State.decideCounts (s : State) (n p d unfit : Nat) : State :=
  (((((s.coreBump n 10 2 1).coreBump n 13 2 1).coreBump n 13 4 unfit).bump (0x7120 + p) 1 1).bump (0x7120 + p)
    (decideEntry d) 1).event (0x7130 + p) 0 unfit

theorem State.decideCounts_cores (s : State) (n p d unfit : Nat) : (s.decideCounts n p d unfit).cores = s.cores := by
  simp [State.decideCounts, State.coreBump]

/-- A DECIDE that leaves its gate open posts nothing, and `SLUICE_CLOSED` stays (R261). -/
theorem State.decide_open {n : Nat} {k : CoreState} {x : Slot} {j : SluiceJob} {bundle : Nat}
    (job : k.sluice.job = some j) (gate : decideOf j k.sluice f.block.toNat ≠ 0) :
    s.decide n k x f bundle
      = (s.onCore n (CoreState.decided f false)).decideCounts n (s.polderOn n)
          (decideOf j k.sluice f.block.toNat) (if k.sluice.u then 1 else 0) := by
  have closed : (decideOf j k.sluice f.block.toNat == 0) = false := beq_false_of_ne gate
  have passes : (decideOf j k.sluice f.block.toNat != 0) = true := bne_iff_ne.2 gate
  unfold State.decide
  simp only [job, closed, passes, Bool.and_true, if_neg gate]
  simp only [State.onCore, State.setCore_setCore, State.core_setCore_self]
  rfl

/-! ### The four slots -/

/-- A slot that is a V.SLUICE changes its core as `g` says and counts what `more` says. -/
theorem gives_sluice (g : CoreState → CoreState) (more : State → State) (slot : slotCommand i = some (h, .sluice sop f))
    (a : s.Acts h (.sluice sop f))
    (he : (s.passed (coreOf h)).doSluice (coreOf h) (s.core (coreOf h)) (slotOf h (.sluice sop f)) sop f
        (s.core (coreOf h)).pc = more ((s.passed (coreOf h)).onCore (coreOf h) g))
    (hm : ∀ u, (more u).cores = u.cores) (hq : (g (s.core (coreOf h)).next).quiet = (s.core (coreOf h)).next.quiet) :
    Gives i s h (g (s.core (coreOf h)).next) more :=
  gives_acts g more a (exec_slot slot s) he hm (hq.trans a.quiet_next)

/-- Settles O14: CLEAR, ACCUM and SETUP each change the comparator and count their instruction; an open DECIDE by
`State.decide_open`, which counts `SLUICE_UNFIT` and `UNFIT_TILE` wherever U is 1 (log entry 44, R261). -/
theorem comparator : Obligations.Comparator := by
  unfold Obligations.Comparator
  intro s h f j n p k one
  refine ⟨fun clear => ?_, fun accum => ?_, fun setup => ?_, fun job gate decide => ?_⟩
  · exact gives_sluice (fun q => { q with sluice := q.sluice.clear }) one rfl clear rfl (fun u => u.bump_cores ..) rfl
  · exact gives_sluice (fun q => { q with sluice := sluiceAccumOf k f }) (fun u => (one u).coreBump n 13 1 1) rfl accum rfl
      (fun u => (State.bump_cores ..).trans (u.bump_cores ..)) rfl
  · exact gives_sluice (fun q => { q with sluice := { q.sluice.clear with job := some (k.setupJob f) } }) one rfl setup rfl
      (fun u => u.bump_cores ..) rfl
  · have gives := gives_sluice (i := .sluiceDecide h f) (CoreState.decided f false)
      (fun u => u.decideCounts n p (decideOf j k.sluice f.block.toNat) (if k.sluice.u then 1 else 0)) rfl decide
      ((State.decide_open job gate).trans (by rw [State.polderOn_passed]))
      (fun u => u.decideCounts_cores ..) (CoreState.quiet_decided ..)
    simp only [CoreState.decided, CoreState.sluice_setP] at gives
    exact gives

/-! ### Posts at the sluice home (R254, R310) -/

/-- The sluice home of the polder of a context, as it accesses memory. -/
def State.sluiceHome (s : State) (ctx : Nat) : Requester :=
  { polder := polderOf ctx, site := some (s.entry (0x7110 + polderOf ctx) 0 / 16) }

/-- The code word of a post's byte, as the home reads it once the post is counted. -/
def State.readPost (s : State) (x : Post) : BytesRead :=
  (s.bump (0x7120 + polderOf x.ctx.toNat) 6 1).readView (s.sluiceHome x.ctx.toNat)
    (x.addr - BitVec.ofNat 64 (x.addr.toNat % 64)) 64

/-- The bytes of a code word with a post's bit set. -/
def Post.setIn (x : Post) (word : List Byte) : List Byte :=
  word.set (x.addr.toNat % 64) (word.getD (x.addr.toNat % 64) 0 ||| (1 : Byte) <<< x.bit)

theorem State.setMapBit_sound {x : Post} (sound : (s.readPost x).poison = none) :
    s.setMapBit x
      = ((s.readPost x).state.writeView (s.sluiceHome x.ctx.toNat) (x.addr - BitVec.ofNat 64 (x.addr.toNat % 64))
          (x.setIn (s.readPost x).data), none) := by
  have whole : ¬ (s.readPost x).poison.isSome = true := by simp [sound]
  exact if_neg whole

theorem State.setMapBit_poisoned {x : Post} (bad : (s.readPost x).poison ≠ none) :
    s.setMapBit x = ((s.readPost x).state, some x.addr) :=
  if_pos (Option.isSome_iff_ne_none.2 bad)

/-- A home with posts takes the first and sets its bit, or tells the core that posted of the poisoned word. -/
theorem State.servePost_first {p : Nat} {x : Post} {rest : List Post} (posts : (s.polder p).posts = x :: rest) :
    let r := (s.onPolder p (fun q => { q with posts := rest })).setMapBit x
    s.servePost p = r.2.elim r.1 (fun a => r.1.atRank x.ctx.toNat x.rank (fun k => k.noteFault
      { code := faultUncorrectable, detail := a, slot := x.slot, bundle := x.bundle, more := 0 })) := by
  unfold State.servePost
  rw [posts]
  dsimp only
  obtain ⟨t, poison⟩ := (s.onPolder p (fun q => { q with posts := rest })).setMapBit x
  cases poison <;> rfl

/-- Settles O22: the first post, by whether its code word is sound or poisoned; a word that holds guarded bytes is no case of
its own here (log entry 45). -/
theorem postServed : Obligations.PostServed := by
  unfold Obligations.PostServed
  intro s polder x rest p own u home o word r posts
  have first := State.servePost_first posts
  refine ⟨fun sound => next_congr ?_, fun bad => next_congr ?_⟩
  · rw [first, State.setMapBit_sound sound]
    rfl
  · rw [first, State.setMapBit_poisoned bad]
    rfl

end Sys2Proof.Machine
end

section
/-! ### The generators of the vector pipes (R262, R263, R267 to R269)

What the seven functions of `V.RNG` leave of a core and count. -/

namespace Sys2Proof.Machine

variable {s : State} {h : SlotAt} {rfn : Nat} {f : RFields} {i : Instr}

/-! ### The line of a LOADSTATE -/

/-- A field of the bytes read from a store is a number read from the store itself. -/
theorem fieldAt_cells (t : Store 8) (a : Nat) {off m n : Nat} (within : off + m ≤ n) :
    fieldAt (cells t a n) off m = ofBytes (cells t (a + off) m) := by
  have bytes : ((cells t a n).drop off).take m = cells t (a + off) m := by
    refine List.ext_getElem ?_ fun j _ _ => ?_
    · simp only [cells_eq, List.length_take, List.length_drop, List.length_map, List.length_range]
      omega
    · simp [cells_eq, Nat.add_assoc]
  exact congrArg ofBytes bytes

/-- A generator state that has taken its seed from bytes 0 to 31 of the line at byte `a`, its step from bytes 32 to 35. -/
def RngState.loaded (g : RngState) (ws : Store 8) (a : Nat) : RngState :=
  { g with seed := BitVec.ofNat 256 (ofBytes (cells ws a 32)), step := BitVec.ofNat 32 (ofBytes (cells ws (a + 32) 4)) }

theorem State.doRng_loadstate (s : State) (n : Nat) (k : CoreState) (x : Slot) (f : RFields) :
    s.doRng n k x 0 f = (s.coreBump n 10 2 1).onCore n (fun q =>
      { q with rng := q.rng.loaded k.ws (64 * k.wsLine f.wsLine f.gOff) }) := by
  have field {off m : Nat} (within : off + m ≤ 64) := fieldAt_cells k.ws (64 * k.wsLine f.wsLine f.gOff) within
  have seed := field (off := 0) (m := 32) (by decide)
  have step := field (off := 32) (m := 4) (by decide)
  rw [Nat.add_zero] at seed
  simp only [RngState.loaded, ← seed, ← step]
  rfl

/-! ### The coordinate base of a pipe -/

/-- Slot 5 is the one of pipe V0. -/
theorem slotOf_num_eq_five (h : SlotAt) (o : SlotOp) : (slotOf h o).num = 5 ↔ h.slot = 5 :=
  BitVec.toNat_inj (y := 5)

/-- A generator state with the coordinate base set of the pipe whose slot this is. -/
def RngState.based (g : RngState) (h : SlotAt) (x : W64) : RngState :=
  if h.slot = 5 then { g with xbase0 := x } else { g with xbase1 := x }

theorem State.doRng_xset (s : State) (n : Nat) (k : CoreState) (h : SlotAt) (o : SlotOp) (f : RFields) :
    s.doRng n k (slotOf h o) 5 f = (s.coreBump n 10 2 1).onCore n (fun q =>
      { q with rng := q.rng.based h (k.getG f.gIdx) }) := by
  simp only [State.doRng, slotOf_num_eq_five]
  rfl

/-! ### The seven functions -/

/-- The blocks of `w` words from index `n0` of a counter stream are counted (R268). -/
def State.drew (s : State) (n : Nat) (n0 : W64) (w : Nat) : State := s.coreBump n 14 1 (blocksOf n0 w)

theorem State.drew_cores (s : State) (n : Nat) (n0 : W64) (w : Nat) : (s.drew n n0 w).cores = s.cores := s.bump_cores ..

/-- A slot that is a V.RNG changes its core as `g` says and counts, beside itself, what `more` says. -/
theorem gives_rng (g : CoreState → CoreState) (more : State → State) (slot : slotCommand i = some (h, .rng rfn f))
    (a : s.Acts h (.rng rfn f))
    (he : (s.passed (coreOf h)).doRng (coreOf h) (s.core (coreOf h)) (slotOf h (.rng rfn f)) rfn f
      = more (((s.passed (coreOf h)).coreBump (coreOf h) 10 2 1).onCore (coreOf h) g))
    (hm : ∀ u, (more u).cores = u.cores) (hq : (g (s.core (coreOf h)).next).quiet = (s.core (coreOf h)).next.quiet) :
    Gives i s h (g (s.core (coreOf h)).next) (fun u => more (u.coreBump (coreOf h) 10 2 1)) :=
  gives_acts g (fun u => more (u.coreBump (coreOf h) 10 2 1)) a (exec_slot slot s)
    (he.trans (congrArg more (State.coreBump_onCore ..))) (fun u => (hm _).trans (u.bump_cores ..))
    (hq.trans a.quiet_next)

/-- Settles O15: LOADSTATE, XSET and DSET change the generator state alone; BITS, UNIFORM and NORMAL write a register and
count the blocks computed, NORMAL its numeric events as well; DROP writes a register and counts the elements dropped. -/
theorem generators : Obligations.Generators := by
  unfold Obligations.Generators
  intro s h f n p k a one blocks
  have polder : ((s.passed n).coreBump n 10 2 1).polderOn n = p := by
    simp [State.coreBump, State.polderOn, CoreState.next, p]
  refine ⟨fun load => ?_, fun bits => ?_, fun uniform => ?_, fun normal => ?_, fun drop => ?_, fun xset => ?_,
    fun dset => ?_⟩
  · exact gives_rng (fun q => { q with rng := q.rng.loaded k.ws a }) id rfl load (State.doRng_loadstate ..)
      (fun _ => rfl) rfl
  · exact gives_rng (fun q => q.setV f.vd (rngBitsOf k f)) (fun u => u.drew n (k.getG f.gIdx) 128) rfl bits rfl
      (fun u => u.drew_cores ..) rfl
  · exact gives_rng (fun q => q.setV f.vd (rngUniformOf k f)) (fun u => u.drew n (k.getG f.gIdx) 128) rfl uniform rfl
      (fun u => u.drew_cores ..) rfl
  · refine gives_rng (fun q => q.setV f.vd (rngNormalOf k f).1)
      (fun u => (u.drew n (k.getG f.gIdx) (4096 / laneW f.ty.toNat)).tally p (rngNormalOf k f).2) rfl normal ?_
      (fun u => (State.tally_cores ..).trans (u.drew_cores ..)) rfl
    rw [← polder]
    rfl
  · exact gives_rng (fun q => q.setV f.vd (rngDropOf k f).1) (fun u => u.coreBump n 14 3 (rngDropOf k f).2) rfl drop rfl
      (fun u => u.bump_cores ..) rfl
  · exact gives_rng (fun q => { q with rng := q.rng.based h (k.getG f.gIdx) }) id rfl xset (State.doRng_xset ..)
      (fun _ => rfl) rfl
  · exact gives_rng (fun q => { q with rng := { q.rng with dxbase := k.getG f.gIdx, dxrow := f.imm32 } }) id rfl dset
      rfl (fun _ => rfl) rfl

end Sys2Proof.Machine
end

section
/-! ### Code words

A write of a code word, and the read that follows it (R307, R309, R311). -/

namespace Sys2Proof.Machine

variable {s : State} {cw : Nat} {data : List Byte}

/-! ### The check bytes of a word (R307) -/

theorem length_rsGen : rsGen.length = 8 := by decide +kernel

/-- Each data symbol shifts the eight check symbols and keeps their number. -/
theorem length_rsCheck (symbols : List W16) : (rsCheck symbols).length = 8 := by
  refine foldl_keeps (fun r : List W16 => r.length = 8) ?_ symbols List.length_replicate
  intro r d hr
  dsimp only
  split <;> simp [hr, length_rsGen]

theorem length_checkBytes (data : List Byte) : (checkBytes data).length = 16 := by
  simp [checkBytes, List.length_flatMap, toBytes, length_rsCheck]

/-- A list that has the length already is neither cut nor completed. -/
theorem padTo_of_length {n : Nat} (h : data.length = n) : padTo n data = data := by
  subst h
  simp [padTo]

/-! ### A word written -/

section
variable (h : data.length = 64) (r : Requester)
include h

theorem State.writeWord_mem : (s.writeWord r cw data).mem = putCells s.mem (64 * cw) data := by
  simp [State.writeWord, padTo_of_length h]

theorem State.writeWord_check : (s.writeWord r cw data).check = putCells s.check (16 * cw) (checkBytes data) := by
  simp [State.writeWord, padTo_of_length h]

end

/-- Consecutive cells that were written read back. -/
theorem cells_putCells {w : Nat} (t : Store w) (a : Nat) (vs : List (BitVec w)) :
    cells (putCells t a vs) a vs.length = vs := by
  rw [cells_eq]
  refine List.ext_getElem (by simp) (fun i hi hi' => ?_)
  simp [cell_putCells, hi']

/-- Where the cells have no hard fault, a write leaves no symbol in error (R309, R311). -/
theorem State.wordError_writeWord (sound : (s.wordError cw).hard = []) (r : Requester) (data : List Byte) :
    (s.writeWord r cw data).wordError cw = ⟨[], []⟩ := by
  have sound' : (((tblFind s.memErr cw).getD ⟨[], []⟩).hard) = [] := sound
  simp [State.wordError, State.writeWord, sound', tblFind_tblDrop]

/-- A word with no symbol in error is read as it stands, not poisoned (R308). -/
theorem State.readWord_of_noError (intact : s.wordError cw = ⟨[], []⟩) (r : Requester) :
    (s.readWord r cw).data = cells s.mem (64 * cw) 64 ∧ (s.readWord r cw).poisoned = false := by
  have counted : ((s.bump (channelIndex (64 * cw)) 1 1).bump (0x3020 + r.polder)
      (if r.near (64 * cw) then 1 else 2) 64).wordError cw = ⟨[], []⟩ := by simpa [State.wordError] using intact
  simp [State.readWord, counted, WordError.symbols]

/-- Settles O58: the word's 64 bytes and 16 check bytes are put as they are, and without a hard fault its error record is
dropped. -/
theorem wordsKeep : Obligations.WordsKeep := by
  unfold Obligations.WordsKeep
  intro s r cw data t h
  have checkLength := length_checkBytes data
  refine ⟨fun i hi => ?_, fun i hi => ?_, fun a ha => ?_, fun a ha => ?_, fun sound => ?_⟩
  · rw [State.writeWord_mem h, cell_putCells, if_pos (by omega), Nat.add_sub_cancel_left]
  · rw [State.writeWord_check h, cell_putCells, if_pos (by omega), Nat.add_sub_cancel_left]
  · rw [State.writeWord_mem h, cell_putCells, if_neg (by omega)]
  · rw [State.writeWord_check h, cell_putCells, if_neg (by omega)]
  · obtain ⟨read, sane⟩ := State.readWord_of_noError (State.wordError_writeWord sound r data) r
    refine ⟨?_, sane⟩
    rw [read, State.writeWord_mem h, ← h, cells_putCells]

end Sys2Proof.Machine
end

section
/-! ### A site that joins a polder

The zero fill of a joining site, and the polder that its last site forms (R71, R315, R320). -/

namespace Sys2Proof.Machine

variable {s : State} {site p : Nat}

/-! ### The sites that still join -/

theorem getLsbD_siteBit {i : Nat} (hi : i < 16) : ((1 : W16) <<< site).getLsbD i = decide (i = site) := by
  rw [BitVec.getLsbD_shiftLeft]
  by_cases e : i < site
  · simp [e]; omega
  · simp [hi, e]; omega

/-- Without this site no site joins exactly where the mask is this site's bit. -/
theorem without_site_eq_zero_iff {m : W16} (joins : m.getLsbD site = true) :
    m &&& ~~~((1 : W16) <<< site) = 0 ↔ m = (1 : W16) <<< site := by
  constructor
  · intro alone
    refine BitVec.eq_of_getLsbD_eq fun i hi => ?_
    rw [getLsbD_siteBit hi]
    by_cases e : i = site
    · simpa [e] using joins
    · have other : (m &&& ~~~((1 : W16) <<< site)).getLsbD i = false := by rw [alone]; exact BitVec.getLsbD_zero
      rw [BitVec.getLsbD_and, BitVec.getLsbD_not, getLsbD_siteBit hi] at other
      simpa [hi, e] using other
  · rintro rfl
    exact BitVec.and_not_self _

/-! ### What a fill and a forming change -/

theorem State.formPolder_rest (s : State) (p : Nat) :
    (s.formPolder p).mem = s.mem ∧ (s.formPolder p).counters = s.counters ∧ (s.formPolder p).cores = s.cores
      ∧ (s.formPolder p).ctxs = s.ctxs := by
  simp [State.formPolder, State.dropCache, State.setCacheCount]

theorem State.polder_formPolder (s : State) (p : Nat) :
    ((s.formPolder p).polder p).formed = true ∧ ((s.formPolder p).polder p).joining = 0 := by
  simp [State.formPolder]

/-- A site that has joined reads zero, in its memory and in its work counters (R71, R315). -/
theorem State.joinSite_eq (s : State) (site : Nat) : ∃ check memErr dict,
    s.joinSite site = { s with mem := clearCells s.mem (site * 2 ^ 34) (2 ^ 34)
                               counters := clearCells s.counters (256 * site) 256
                               check := check, memErr := memErr, dict := dict } :=
  ⟨_, _, _, rfl⟩

/-- A site has joined its polder, and the polder waits for the others (R320). -/
def State.siteJoined (s : State) (site p : Nat) : State :=
  (s.joinSite site).onPolder p (fun q => { q with joining := (s.polder p).joining &&& ~~~((1 : W16) <<< site) })

/-- The last site that joins forms its polder. -/
theorem State.siteFilled_eq (own : s.polderOfSite site = some p) (joins : (s.polder p).joining.getLsbD site = true) :
    s.siteFilled site
      = if (s.polder p).joining = (1 : W16) <<< site then (s.siteJoined site p).formPolder p else s.siteJoined site p := by
  simp only [State.siteFilled, own, joins, Bool.not_true, Bool.false_eq_true, if_false, without_site_eq_zero_iff joins]
  rfl

theorem State.siteJoined_rest (s : State) (site p : Nat) :
    (s.siteJoined site p).mem = clearCells s.mem (site * 2 ^ 34) (2 ^ 34)
      ∧ (s.siteJoined site p).counters = clearCells s.counters (256 * site) 256
      ∧ (s.siteJoined site p).cores = s.cores ∧ (s.siteJoined site p).ctxs = s.ctxs
      ∧ ((s.siteJoined site p).polder p).formed = (s.polder p).formed := by
  obtain ⟨check, memErr, dict, join⟩ := s.joinSite_eq site
  simp only [State.siteJoined, State.onPolder_mem, State.onPolder_counters, State.onPolder_cores, State.onPolder_ctxs,
    State.polder_onPolder_self, join, true_and]
  rfl

/-- Settles O42: the fill is the same whether or not other sites still join, and a forming changes no memory. -/
theorem siteFilled : Obligations.SiteFilled := by
  unfold Obligations.SiteFilled
  intro s site p x own joins
  refine ⟨s.siteFilled x, rfl, ?_⟩
  obtain ⟨mem, counters, cores, ctxs, formed⟩ := s.siteJoined_rest x p
  obtain ⟨mem', counters', cores', ctxs'⟩ := (s.siteJoined x p).formPolder_rest p
  have fill : (s.siteFilled x).mem = clearCells s.mem (x * 2 ^ 34) (2 ^ 34)
      ∧ (s.siteFilled x).counters = clearCells s.counters (256 * x) 256
      ∧ (s.siteFilled x).cores = s.cores ∧ (s.siteFilled x).ctxs = s.ctxs := by
    rw [State.siteFilled_eq own joins]
    split
    · exact ⟨mem'.trans mem, counters'.trans counters, cores'.trans cores, ctxs'.trans ctxs⟩
    · exact ⟨mem, counters, cores, ctxs⟩
  obtain ⟨fillMem, fillCounters, fillCores, fillCtxs⟩ := fill
  refine ⟨fun a ha => ?_, fun a ha => ?_, fun i hi => ?_, fun last => ?_, fun more => ?_, fillCores, fillCtxs⟩
  · rw [fillMem, cell_clearCells, if_pos (by omega)]
  · rw [fillMem, cell_clearCells, if_neg (by omega)]
  · rw [fillCounters, cell_clearCells, if_pos (by omega)]
  · rw [State.siteFilled_eq own joins, if_pos last]
    exact State.polder_formPolder ..
  · rw [State.siteFilled_eq own joins, if_neg more]
    exact formed

end Sys2Proof.Machine
end

section
/-! ### What meters and controllers note

The controllers of memory and power read their sensors and note what they find: they write entries and raise events, and
leave every other part of the state as it is (R30, R312 to R314, R420 to R422). -/

namespace Sys2Proof.Machine

variable {s t u : State} {P Q : Nat → Prop}

theorem State.entry_setEntry_ne {i j i' j' : Nat} (ne : entryKey i j ≠ entryKey i' j') (v : Nat) :
    (s.setEntry i j v).entry i' j' = s.entry i' j' := by
  simp only [State.entry, State.find_setEntry, if_neg ne, State.setEntry_kept]

/-- From one state to another entries whose keys are among `P` have been written, events raised, and the evaluations of the
power manager counted. -/
def State.Noted (P : Nat → Prop) (s t : State) : Prop :=
  ∃ dict arrived low atMax,
    t = { s with dict := dict, arrived := arrived, evalsBelow := low, evalsAtMax := atMax }
      ∧ ∀ k, ¬ P k → tblFind dict k = tblFind s.dict k

theorem State.Noted.refl (P : Nat → Prop) (s : State) : s.Noted P s :=
  ⟨s.dict, s.arrived, s.evalsBelow, s.evalsAtMax, rfl, fun _ _ => rfl⟩

theorem State.Noted.trans (h : s.Noted P t) (h' : t.Noted P u) : s.Noted P u := by
  obtain ⟨_, _, _, _, rfl, kept⟩ := h
  obtain ⟨_, _, _, _, rfl, kept'⟩ := h'
  exact ⟨_, _, _, _, rfl, fun k hk => (kept' k hk).trans (kept k hk)⟩

theorem State.Noted.mono (h : s.Noted P t) (sub : ∀ k, P k → Q k) : s.Noted Q t := by
  obtain ⟨_, _, _, _, rfl, kept⟩ := h
  exact ⟨_, _, _, _, rfl, fun k hk => kept k (mt (sub k) hk)⟩

theorem State.Noted.ite {c : Prop} [Decidable c] (ht : s.Noted P t) (hu : s.Noted P u) :
    s.Noted P (if c then t else u) := by
  split
  · exact ht
  · exact hu

section
variable (h : s.Noted P t)
include h

theorem State.Noted.setEntry {i j : Nat} (hp : P (entryKey i j)) (v : Nat) : s.Noted P (t.setEntry i j v) := by
  refine h.trans ⟨_, t.arrived, t.evalsBelow, t.evalsAtMax, rfl, fun k hk => ?_⟩
  exact tblFind_tblPut_ne _ _ (fun e => hk (e ▸ hp))

theorem State.Noted.event (i b n : Nat) : s.Noted P (t.event i b n) := by
  unfold State.event
  split
  · exact h
  · exact h.trans ⟨t.dict, _, t.evalsBelow, t.evalsAtMax, rfl, fun _ _ => rfl⟩

/-- A fold of notes. -/
theorem State.Noted.foldl {α : Type} {f : State → α → State} (l : List α)
    (step : ∀ a ∈ l, ∀ u : State, u.Noted P (f u a)) : s.Noted P (l.foldl f t) := by
  induction l generalizing t with
  | nil => exact h
  | cons a l ih => exact ih (h.trans (step a List.mem_cons_self t)) (fun b hb => step b (List.mem_cons_of_mem _ hb))

theorem State.Noted.kept : t.kept = s.kept := by
  obtain ⟨_, _, _, _, rfl, _⟩ := h; rfl

theorem State.Noted.mem : t.mem = s.mem := by
  obtain ⟨_, _, _, _, rfl, _⟩ := h; rfl

theorem State.Noted.cores : t.cores = s.cores := by
  obtain ⟨_, _, _, _, rfl, _⟩ := h; rfl

theorem State.Noted.ctxs : t.ctxs = s.ctxs := by
  obtain ⟨_, _, _, _, rfl, _⟩ := h; rfl

/-- An entry that was not written reads as before. -/
theorem State.Noted.entry {i j : Nat} (hp : ¬ P (entryKey i j)) : t.entry i j = s.entry i j := by
  obtain ⟨_, _, _, _, rfl, same⟩ := h
  simp only [State.entry, same _ hp]

end

end Sys2Proof.Machine
end

section
/-! ### Temperatures and doubled refresh (R312, R313) -/

namespace Sys2Proof.Machine

variable {s : State} {t : W32}

/-! ### The order of readings -/

theorem Fv.lt_asymm {a b : Fv} (h : a.lt b = true) : b.lt a = false := by
  cases a with
  | nan => exact absurd h Bool.false_ne_true
  | inf x => cases b <;> simp_all [Fv.lt]
  | fin n m e =>
    cases b with
    | nan => exact absurd h Bool.false_ne_true
    | inf y => simp_all [Fv.lt]
    | fin n' m' e' =>
      simp only [Fv.lt, decide_eq_true_eq, decide_eq_false_iff_not, not_lt, min_comm e' e] at h ⊢
      exact h.le

theorem Fv.not_lt_of_le {a b : Fv} (h : a.le b = true) : b.lt a = false := by
  simp only [Fv.le, Fv.eq, Bool.or_eq_true, Bool.and_eq_true, Bool.not_eq_true'] at h
  obtain less | ⟨-, notMore⟩ := h
  · exact Fv.lt_asymm less
  · exact notMore

theorem signedMant_natAbs (z : Int) : signedMant (decide (z < 0)) z.natAbs = z := by
  by_cases h : z < 0
  · simp only [signedMant, h, decide_true, if_true]; omega
  · simp only [signedMant, h, decide_false, Bool.false_eq_true, if_false]; omega

/-- What is less than a whole number is less than a greater one. -/
theorem Fv.lt_ofInt_mono {v : Fv} {m n : Int} (hmn : m ≤ n) (h : v.lt (Fv.ofInt m 0) = true) :
    v.lt (Fv.ofInt n 0) = true := by
  cases v with
  | nan => exact absurd h Bool.false_ne_true
  | inf x => exact h
  | fin x k e =>
    simp only [Fv.ofInt, Fv.lt, decide_eq_true_eq, signedMant_natAbs] at h ⊢
    exact h.trans_le (Int.mul_le_mul_of_nonneg_right hmn (by positivity))

theorem not_below_of_atLeast {m n : Nat} (hmn : m ≤ n) (h : atLeast t n = true) : below t m = false := by
  have least : (fv32 t).lt (Fv.ofInt n 0) = false := Fv.not_lt_of_le h
  exact Bool.eq_false_iff.2 fun less => Bool.eq_false_iff.1 least (Fv.lt_ofInt_mono (Int.ofNat_le.2 hmn) less)

/-! ### A reading of four dies that agree (R312) -/

theorem hottest_same (t : W32) : hottest [t, t, t, t] = t := by
  simp [hottest]

/-- The refresh mode of a stack is its entry 4 (R319). -/
theorem State.setRefresh_mode {site : Nat} (hk : tblFind s.kept (entryKey (0x3300 + site) 4) = none) :
    (s.setRefresh site t).entry (0x3300 + site) 4
      = if atLeast t 85 then 1 else if below t 83 then 0 else s.entry (0x3300 + site) 4 := by
  simp only [State.setRefresh]
  split
  · split
    · assumption
    · exact ((State.Noted.refl (fun _ => False) _).event ..).entry id |>.trans (State.entry_setEntry_self hk)
  · split
    · exact State.entry_setEntry_self hk
    · rfl

theorem State.setRefresh_noted (s : State) (site : Nat) (t : W32) : s.Noted (fun _ => True) (s.setRefresh site t) := by
  have same := State.Noted.refl (fun _ => True) s
  exact .ite (.ite same ((same.setEntry trivial _).event ..)) (.ite (same.setEntry trivial _) same)

/-- An entry of another subindex is written. -/
theorem State.Noted.setOther {u : State} {m j : Nat} (h : s.Noted (fun k => k % 256 ≠ m) u) (hj : j < 256) (ne : j ≠ m)
    (i v : Nat) : s.Noted (fun k => k % 256 ≠ m) (u.setEntry i j v) :=
  h.setEntry (by rwa [entryKey_mod hj]) v

/-- Throttling writes no refresh mode (R314). -/
theorem State.setThrottle_noted (s : State) (site : Nat) (t : W32) :
    s.Noted (fun k => k % 256 ≠ 4) (s.setThrottle site t) := by
  have same := State.Noted.refl (fun k => k % 256 ≠ 4) s
  unfold State.setThrottle
  extract_lets ix mark l target later new level driven
  have levelNoted : s.Noted (fun k => k % 256 ≠ 4) level := same.setOther (by decide) (by decide) ..
  have drivenNoted : s.Noted (fun k => k % 256 ≠ 4) driven :=
    .ite levelNoted (levelNoted.foldl _ fun c _ u => (State.Noted.refl _ u).setOther (j := 0xC) (by decide) (by decide) _ 1)
  exact .ite (drivenNoted.event ..) drivenNoted

/-- Below 105 °C a reading sets the refresh mode and the throttle level, once it has been recorded (R312 to R314). -/
theorem State.tempReading_eq {site : Nat} (on : s.memPower site ≠ 0) (cool : atLeast t 105 = false) :
    ∃ u : State, s.Noted (fun k => k % 256 ≠ 4) u
      ∧ s.tempReading site [t, t, t, t] = (u.setRefresh site t).setThrottle site t := by
  have same := State.Noted.refl (fun k => k % 256 ≠ 4) s
  simp only [State.tempReading, if_neg on, hottest_same, cool, Bool.false_eq_true, if_false]
  refine ⟨_, ?_, rfl⟩
  have now := same.setOther (j := 1) (by decide) (by decide) (0x3300 + site) t.toNat
  exact .ite (now.setOther (by decide) (by decide) ..) now

/-- Settles O51: recording and throttling write no refresh mode, and a stack at 85 °C is not below 83 °C. -/
theorem doubledRefresh : Obligations.DoubledRefresh := by
  unfold Obligations.DoubledRefresh
  intro s site t x mode on fresh cool
  obtain ⟨u, recorded, reading⟩ := State.tempReading_eq on cool
  have mode' : mode (s.tempReading x [t, t, t, t])
      = if atLeast t 85 then 1 else if below t 83 then 0 else mode s := by
    have key : ¬ entryKey (0x3300 + x) 4 % 256 ≠ 4 := by simp
    dsimp only [mode]
    rw [reading, (State.setThrottle_noted ..).entry key, State.setRefresh_mode (by rw [recorded.kept, fresh]),
      recorded.entry key]
  have rest : s.Noted (fun _ => True) (s.tempReading x [t, t, t, t]) := by
    rw [reading]
    exact ((recorded.mono fun _ _ => trivial).trans (u.setRefresh_noted x t)).trans
      ((State.setThrottle_noted ..).mono fun _ _ => trivial)
  refine ⟨s.tempReading x [t, t, t, t], rfl, fun hot => ?_, fun cold => ?_, fun notHot notCold => ?_, rest.mem, rest.cores,
    rest.ctxs⟩
  · rw [mode', if_pos hot]
  · have notHot : atLeast t 85 = false :=
      Bool.eq_false_iff.2 fun hot => Bool.eq_false_iff.1 (not_below_of_atLeast (m := 83) (by decide) hot) cold
    rw [mode', notHot, cold]
    rfl
  · rw [mode', notHot, notCold]
    rfl

end Sys2Proof.Machine
end

section
/-! ### Refreshes and evaluations of the power manager (R306, R420 to R422) -/

namespace Sys2Proof.Machine

variable {s t : State} {r : PowerReading} {i device : Nat}

theorem siteIndex_le (i : Nat) : 0x2100 ≤ siteIndex i := by unfold siteIndex; omega

/-! ### Readings -/

/-- The entries of a site that hold a reading: 3, 4 and 7 (R420). -/
def isSiteReading (k : Nat) : Prop := 0x2100 ≤ k / 256 ∧ (k % 256 = 3 ∨ k % 256 = 4 ∨ k % 256 = 7)

theorem State.Noted.setSiteReading {j : Nat} (h : s.Noted isSiteReading t) (hj : j = 3 ∨ j = 4 ∨ j = 7) (i : Nat)
    (v : Option Nat) :
    s.Noted isSiteReading (match v with | some v => t.setEntry (siteIndex i) j v | none => t) := by
  have hj' : j < 256 := by omega
  cases v with
  | none => exact h
  | some v => exact h.setEntry (by simpa [isSiteReading, entryKey_div hj', entryKey_mod hj', siteIndex_le] using hj) v

theorem State.siteReadings_noted (s : State) (r : PowerReading) (i : Nat) : s.Noted isSiteReading (s.siteReadings r i) :=
  (((State.Noted.refl _ s).setSiteReading (by decide) i _).setSiteReading (by decide) i _).setSiteReading (by decide) i _

/-- A state after the readings of the device (R420). -/
def State.metered (s : State) (r : PowerReading) : State :=
  ((s.setEntry 0x2000 2 r.power.toNat).setEntry 0x2000 3 r.voltage.toNat).setEntry 0x2000 4 r.current.toNat

/-- A state after the readings of the device and of its sites. -/
def State.measured (s : State) (r : PowerReading) : State :=
  (List.range 16).foldl (fun s i => s.siteReadings r i) (s.metered r)

theorem State.metered_noted_measured (s : State) (r : PowerReading) :
    (s.metered r).Noted isSiteReading (s.measured r) :=
  (State.Noted.refl _ _).foldl _ fun i _ u => u.siteReadings_noted r i

/-- The entries that hold a reading, of the device or of a site. -/
def isReading (k : Nat) : Prop :=
  isSiteReading k ∨ k ∈ [entryKey 0x2000 2, entryKey 0x2000 3, entryKey 0x2000 4]

theorem State.measured_noted (s : State) (r : PowerReading) : s.Noted isReading (s.measured r) :=
  ((((State.Noted.refl _ s).setEntry (.inr (by decide)) _).setEntry (.inr (by decide)) _).setEntry
    (.inr (by decide)) _).trans ((s.metered_noted_measured r).mono fun _ => .inl)

/-- The device's readings stand in its entries 2 to 4. -/
theorem State.entry_measured_device (fresh : ∀ sub, 2 ≤ sub → sub ≤ 5 → tblFind s.kept (entryKey 0x2000 sub) = none) :
    (s.measured r).entry 0x2000 2 = r.power.toNat ∧ (s.measured r).entry 0x2000 3 = r.voltage.toNat
      ∧ (s.measured r).entry 0x2000 4 = r.current.toNat := by
  have atDevice {j : Nat} (hj : j < 256) : (s.measured r).entry 0x2000 j = (s.metered r).entry 0x2000 j :=
    (s.metered_noted_measured r).entry (by simp [isSiteReading, entryKey_div hj])
  rw [atDevice (by decide), atDevice (by decide), atDevice (by decide), State.metered]
  refine ⟨?_, ?_, ?_⟩
  · rw [State.entry_setEntry_ne (by decide), State.entry_setEntry_ne (by decide)]
    exact State.entry_setEntry_self (fresh 2 (by decide) (by decide))
  · rw [State.entry_setEntry_ne (by decide)]
    exact State.entry_setEntry_self (fresh 3 (by decide) (by decide))
  · exact State.entry_setEntry_self (fresh 4 (by decide) (by decide))

/-! A reading changes neither the limits, nor the steps, nor a site's floor and state. -/

theorem State.entry_measured_site (s : State) (r : PowerReading) {j : Nat} (hj : j ∈ [1, 2, 5]) :
    (s.measured r).entry (siteIndex i) j = s.entry (siteIndex i) j := by
  refine (s.measured_noted r).entry ?_
  have le := siteIndex_le i
  simp only [List.mem_cons, List.not_mem_nil, or_false] at hj
  simp only [isReading, isSiteReading, entryKey, List.mem_cons, List.not_mem_nil, or_false]
  omega

theorem State.entry_measured_limit (s : State) (r : PowerReading) {j : Nat} (hj : j ∈ [1, 5, 6]) :
    (s.measured r).entry 0x2000 j = s.entry 0x2000 j := by
  refine (s.measured_noted r).entry ?_
  simp only [List.mem_cons, List.not_mem_nil, or_false] at hj
  simp only [isReading, isSiteReading, entryKey, List.mem_cons, List.not_mem_nil, or_false]
  omega

theorem State.siteOn_measured (s : State) (r : PowerReading) (i : Nat) : (s.measured r).siteOn i = s.siteOn i := by
  simp only [State.siteOn, s.entry_measured_site r (i := i) (j := 5) (by decide)]

/-! ### The step of one site (R421) -/

/-- A site's junction floor after a reading of it; without one it stays. -/
def State.newFloor (s : State) (r : PowerReading) (i : Nat) : Nat :=
  ((r.junction[i]?).map (nextFloor (s.entry (siteIndex i) 2) (s.entry 0x2000 6))).getD (s.entry (siteIndex i) 2)

/-- A site takes its new floor; where it is on, it runs at the larger of the device's step and that floor. -/
theorem State.siteStep_eq (s : State) (r : PowerReading) (device i : Nat) :
    ∃ u : State, (s.setEntry (siteIndex i) 2 (s.newFloor r i)).Noted (fun _ => False) u
      ∧ s.siteStep r device i =
        let k := max device (s.newFloor r i)
        if s.siteOn i then (if k = 0 then u else u.mark (siteIndex i) 6).setEntry (siteIndex i) 1 k else u := by
  unfold State.siteStep
  extract_lets ix floor new floored u k k'
  have new_eq : new = s.newFloor r i := by
    dsimp only [new, State.newFloor]
    cases r.junction[i]? <;> rfl
  have noted : (s.setEntry ix 2 (s.newFloor r i)).Noted (fun _ => False) u := by
    rw [← new_eq]
    exact .ite ((State.Noted.refl _ floored).event ..) (.refl _ floored)
  have on : u.siteOn i = s.siteOn i := by
    simp only [State.siteOn, noted.entry id]
    rw [State.entry_setEntry_ne]
    unfold entryKey
    omega
  refine ⟨u, noted, ?_⟩
  have step : k = k' := congrArg (max device) new_eq
  rw [on, step]

/-- The entries of a site that its step writes: its floor, its step and its mark. -/
theorem State.siteStep_noted (s : State) (r : PowerReading) (device i : Nat) :
    s.Noted (fun k => k / 256 = siteIndex i) (s.siteStep r device i) := by
  obtain ⟨u, floored, step⟩ := s.siteStep_eq r device i
  have own {j : Nat} (hj : j < 256) : entryKey (siteIndex i) j / 256 = siteIndex i := entryKey_div hj
  have noted : s.Noted (fun k => k / 256 = siteIndex i) u :=
    ((State.Noted.refl (fun k => k / 256 = siteIndex i) s).setEntry (own (by decide)) _).trans
      (floored.mono fun _ => False.elim)
  rw [step]
  exact .ite ((State.Noted.ite noted (noted.setEntry (own (by decide)) 1)).setEntry (own (by decide)) _) noted

section
variable (fresh : tblFind s.kept (entryKey (siteIndex i) 1) = none ∧ tblFind s.kept (entryKey (siteIndex i) 2) = none)
include fresh

theorem State.siteStep_floor : (s.siteStep r device i).entry (siteIndex i) 2 = s.newFloor r i := by
  obtain ⟨u, floored, step⟩ := s.siteStep_eq r device i
  have floor : u.entry (siteIndex i) 2 = s.newFloor r i := by
    rw [floored.entry id, State.entry_setEntry_self fresh.2]
  have other {j : Nat} (ne : j ≠ 2) : entryKey (siteIndex i) j ≠ entryKey (siteIndex i) 2 := by unfold entryKey; omega
  rw [step]
  dsimp only
  split
  · rw [State.entry_setEntry_ne (other (by decide))]
    split
    · exact floor
    · rw [State.mark, State.entry_setEntry_ne (other (by decide)), floor]
  · exact floor

theorem State.siteStep_step (on : s.siteOn i = true) :
    (s.siteStep r device i).entry (siteIndex i) 1 = max device (s.newFloor r i) := by
  obtain ⟨u, floored, step⟩ := s.siteStep_eq r device i
  rw [step, if_pos on]
  refine State.entry_setEntry_self ?_
  have kept : u.kept = s.kept := floored.kept
  split
  · rw [kept, fresh.1]
  · rw [State.mark, State.setEntry_kept, kept, fresh.1]

end

/-! ### The steps of all sites -/

/-- A state after each site has its floor and its step. -/
def State.stepped (s : State) (r : PowerReading) (device : Nat) : State :=
  (List.range 16).foldl (fun s i => s.siteStep r device i) s

theorem State.stepped_noted (s : State) (r : PowerReading) (device : Nat) :
    s.Noted (fun k => 0x2100 ≤ k / 256) (s.stepped r device) :=
  (State.Noted.refl _ s).foldl _ fun i _ u => (u.siteStep_noted r device i).mono fun _ e => e ▸ siteIndex_le i

/-- The entries of the sites but one. -/
def isOtherSite (i k : Nat) : Prop := 0x2100 ≤ k / 256 ∧ k / 256 ≠ siteIndex i

theorem not_isOtherSite {j : Nat} (hj : j < 256) : ¬ isOtherSite i (entryKey (siteIndex i) j) := by
  simp [isOtherSite, entryKey_div hj]

/-- Each site steps once, and the steps of the others write none of its entries. -/
theorem State.stepped_split (s : State) (r : PowerReading) (device : Nat) (hi : i < 16) :
    ∃ u : State, s.Noted (isOtherSite i) u ∧ (u.siteStep r device i).Noted (isOtherSite i) (s.stepped r device) := by
  obtain ⟨before, after, sites⟩ := List.append_of_mem (List.mem_range.2 hi)
  have once : (before ++ i :: after).Nodup := sites ▸ List.nodup_range
  have others {l : List Nat} (absent : i ∉ l) (u : State) :
      u.Noted (isOtherSite i) (l.foldl (fun s i => s.siteStep r device i) u) := by
    refine (State.Noted.refl _ u).foldl l fun a ha v => (v.siteStep_noted r device a).mono fun k e => ?_
    have ne : a ≠ i := fun e => absent (e ▸ ha)
    refine ⟨e ▸ siteIndex_le a, fun e' => ne ?_⟩
    simp only [siteIndex] at e e'
    omega
  have apart := List.nodup_middle.1 once
  have absent := (List.nodup_cons.1 apart).1
  simp only [List.mem_append, not_or] at absent
  refine ⟨_, others absent.1 s, ?_⟩
  rw [State.stepped, sites, List.foldl_append, List.foldl_cons]
  exact others absent.2 _

/-- After the steps a site has its new floor; where it is on, it runs at the larger of the device's step and that floor. -/
theorem State.entry_stepped (hi : i < 16)
    (fresh : tblFind s.kept (entryKey (siteIndex i) 1) = none ∧ tblFind s.kept (entryKey (siteIndex i) 2) = none) :
    (s.stepped r device).entry (siteIndex i) 2 = s.newFloor r i
      ∧ (s.siteOn i = true → (s.stepped r device).entry (siteIndex i) 1 = max device (s.newFloor r i)) := by
  obtain ⟨u, before, after⟩ := s.stepped_split r device hi
  have limit : u.entry 0x2000 6 = s.entry 0x2000 6 := before.entry fun e => absurd e.1 (by decide)
  have floor : u.newFloor r i = s.newFloor r i := by
    simp only [State.newFloor, limit, before.entry (not_isOtherSite (j := 2) (by decide))]
  have onSite : u.siteOn i = s.siteOn i := by
    simp only [State.siteOn, before.entry (not_isOtherSite (j := 5) (by decide))]
  have fresh' := fresh
  rw [← before.kept] at fresh'
  refine ⟨?_, fun on => ?_⟩
  · rw [after.entry (not_isOtherSite (by decide)), State.siteStep_floor fresh', floor]
  · rw [after.entry (not_isOtherSite (by decide)), State.siteStep_step fresh' (onSite.trans on), floor]

/-! ### An evaluation above the limit (R420, R421) -/

/-- While power is above its limit, no junction trips and a site can step down, the device step rises by one. -/
theorem State.evaluate_above (alive : s.alive = true) (cool : ∀ x ∈ r.junction, atLeast x 115 = false)
    (above : (Fv.ofInt (s.entry 0x2000 1) 0).lt (fv32 r.power) = true)
    (room : ∃ i, i < 16 ∧ s.siteOn i = true ∧ s.entry (siteIndex i) 1 < 16) :
    ∃ u : State, ((s.measured r).setEntry 0x2000 5 (min 16 (s.entry 0x2000 5 + 1))).Noted (fun _ => False) u
      ∧ (u.stepped r (min 16 (s.entry 0x2000 5 + 1))).Noted (fun _ => False) (s.evaluate r) := by
  have steps : ((List.range 16).filter (s.measured r).siteOn).any
      (fun i => (s.measured r).entry (siteIndex i) 1 < 16) = true := by
    obtain ⟨i, hi, on, low⟩ := room
    refine List.any_eq_true.2 ⟨i, List.mem_filter.2 ⟨List.mem_range.2 hi, ?_⟩, ?_⟩
    · rw [State.siteOn_measured, on]
    · rw [s.entry_measured_site r (by decide)]
      exact decide_eq_true low
  have noTrip : (List.range 16).find? (fun i => (r.junction[i]?).any (fun t => atLeast t 115)) = none := by
    refine List.find?_eq_none.2 fun i _ hot => ?_
    obtain ⟨x, hx, hot⟩ := (Option.any_eq_true ..).1 hot
    exact Bool.eq_false_iff.1 (cool x (List.mem_of_getElem? hx)) hot
  unfold State.evaluate
  rw [if_neg (by simp [alive])]
  extract_lets metered measured limit beyond on low atMax k k' risen counted stepped noted
  have limits : limit = s.entry 0x2000 1 := s.entry_measured_limit r (by decide)
  have device : k = s.entry 0x2000 5 := s.entry_measured_limit r (by decide)
  have rises : k' = min 16 (s.entry 0x2000 5 + 1) := by
    have isBeyond : beyond = true := by dsimp only [beyond]; rw [limits, above]
    exact ((if_pos isBeyond).trans (if_pos steps)).trans (congrArg (fun d => min 16 (d + 1)) device)
  rw [noTrip, ← rises]
  refine ⟨counted, ⟨risen.dict, risen.arrived, low, atMax, rfl, fun _ _ => rfl⟩, ?_⟩
  have raised : stepped.Noted (fun _ => False) noted := .ite ((State.Noted.refl _ _).event ..) (.refl _ _)
  exact raised.trans (.ite ((State.Noted.refl _ _).event ..) (.refl _ _))

/-! ### The device's step has risen -/

section
variable {u : State} {step : Nat} (risen : ((s.measured r).setEntry 0x2000 5 step).Noted (fun _ => False) u)
include risen

theorem State.entry_risen_site {j : Nat} (hj : j ∈ [1, 2, 5]) : u.entry (siteIndex i) j = s.entry (siteIndex i) j := by
  have ne : entryKey 0x2000 5 ≠ entryKey (siteIndex i) j := by
    have le := siteIndex_le i
    simp only [List.mem_cons, List.not_mem_nil, or_false] at hj
    unfold entryKey
    omega
  rw [risen.entry id, State.entry_setEntry_ne ne, s.entry_measured_site r hj]

theorem State.siteOn_risen (i : Nat) : u.siteOn i = s.siteOn i := by
  simp only [State.siteOn, State.entry_risen_site risen (i := i) (j := 5) (by decide)]

theorem State.newFloor_risen {x : W32} (hx : r.junction[i]? = some x) :
    u.newFloor r i = nextFloor (s.entry (siteIndex i) 2) (s.entry 0x2000 6) x := by
  have limit : u.entry 0x2000 6 = s.entry 0x2000 6 := by
    rw [risen.entry id, State.entry_setEntry_ne (by decide), s.entry_measured_limit r (by decide)]
  rw [State.newFloor, hx, limit, State.entry_risen_site risen (by decide)]
  rfl

theorem State.risen_kept : u.kept = s.kept := risen.kept.trans (s.measured_noted r).kept

theorem State.risen_noted : s.Noted (fun _ => True) u :=
  (((s.measured_noted r).mono fun _ _ => trivial).setEntry trivial step).trans (risen.mono fun _ => False.elim)

end

/-- Settles O52: the readings come first, then the device's step, then each site's floor and step; the events that follow
change no entry. -/
theorem upkeep : Obligations.Upkeep := by
  unfold Obligations.Upkeep
  intro s site channel r step
  refine ⟨fun powered => next_congr (if_neg powered), fun alive freshDevice freshSite cool above room => ?_⟩
  obtain ⟨u, risen, ended⟩ := State.evaluate_above alive cool above room
  have steps := u.stepped_noted r step
  have whole : s.Noted (fun _ => True) (s.evaluate r) :=
    ((State.risen_noted risen).trans (steps.mono fun _ _ => trivial)).trans (ended.mono fun _ => False.elim)
  have atDevice {j : Nat} (hj : j < 256) : (s.evaluate r).entry 0x2000 j
      = ((s.measured r).setEntry 0x2000 5 step).entry 0x2000 j := by
    rw [ended.entry id, steps.entry (by rw [entryKey_div hj]; decide), risen.entry id]
  have atSite (i : Nat) (hi : i < 16) := u.entry_stepped (r := r) (device := step) hi
    (by rw [State.risen_kept risen]; exact freshSite i hi)
  obtain ⟨power, voltage, current⟩ := State.entry_measured_device (r := r) freshDevice
  refine ⟨s.evaluate r, rfl, ?_, ?_, ?_, ?_, fun i x hi hx => ?_, fun i hi on => ?_, whole.mem, whole.cores, whole.ctxs⟩
  · rw [atDevice (by decide), State.entry_setEntry_ne (by decide), power]
  · rw [atDevice (by decide), State.entry_setEntry_ne (by decide), voltage]
  · rw [atDevice (by decide), State.entry_setEntry_ne (by decide), current]
  · rw [atDevice (by decide)]
    refine State.entry_setEntry_self ?_
    rw [(s.measured_noted r).kept, freshDevice 5 (by decide) (by decide)]
  · rw [ended.entry id, (atSite i hi).1, State.newFloor_risen risen hx]
  · rw [ended.entry id, ended.entry id, (atSite i hi).1, (atSite i hi).2 ((State.siteOn_risen risen i).trans on)]

end Sys2Proof.Machine
end

section
/-! ### Slices, and closing barriers that wait -/

namespace Sys2Proof.Machine

variable {s : State} {n : Nat}

/-- Whether another ready context of its polder, of the same priority, waits for a site of a context (R324). -/
def State.rivalled (s : State) (n : Nat) : Bool :=
  (s.ctxsOf (polderOf n)).any (fun y => y.1 != n && y.2.waits && y.2.prio == (s.ctx n).prio && y.2.overlaps (s.ctx n))

theorem State.preempt_resident (stands : (s.ctx n).resident = true) :
    s.preempt n = s.setCtx n { s.ctx n with state := 4, granted := true } := if_pos stands

theorem State.sliceEnd_rivalled (slice : s.entry (polderIndex (polderOf n) 0) 5 ≠ 0) (runs : (s.ctx n).state = 3)
    (yields : (s.ctx n).preemptible = true) (rival : s.rivalled n = true) :
    s.sliceEnd n = (s.preempt n).schedule (polderOf n) :=
  if_pos (by unfold State.rivalled at rival; simp [slice, runs, yields, rival])

theorem State.sliceEnd_alone (alone : s.rivalled n = false) : s.sliceEnd n = s :=
  if_neg (by unfold State.rivalled at alone; simp [alone])

theorem State.holdExpiry_stalled {x : Pkg} (runs : (s.ctx n).running = some x) (state : (s.ctx n).state = 3)
    (held : (s.ctx n).slotFree (x.ordinal % 256) = false) (arrived : (s.ctx n).cores.all s.closed = true) :
    s.holdExpiry n = s.event (polderIndex (polderOf n) 1) 2 1 := by
  simp only [State.holdExpiry, runs, state, held, arrived]
  rfl

/-- Settles O38: a running context's state stands on its cores, so its pre-emption is a save that begins. -/
theorem slicesAndHolds : Obligations.SlicesAndHolds := by
  unfold Obligations.SlicesAndHolds
  intro s ctx x n c p rival
  refine ⟨fun runs yields started unsaved slice rivalled => ?_, fun alone => ?_, fun runs state held arrived => ?_⟩
  · have stands : c.resident = true := by simp [Ctx.resident, runs, started, unsaved]
    have ends := State.sliceEnd_rivalled slice runs yields rivalled
    rw [State.preempt_resident stands] at ends
    exact next_congr ends
  · exact next_congr (State.sliceEnd_alone alone)
  · exact next_congr (State.holdExpiry_stalled runs state held arrived)

end Sys2Proof.Machine
end

section
/-! ### Requests of an association

What an association's requests come to once the association is open and may address the context (R350, R351). -/

namespace Sys2Proof.Machine

variable {s : State} {h : HostHdr} {a : Association} {n m : Nat}

/-- A request on an open association is served. -/
theorem State.onAssoc_eq (hosting : s.hosting = true) (found : s.assocs.find? (fun b => b.num == h.assoc) = some a)
    (version : a.edition = 1 → h.ipv6 = false) (edition : h.edition.toNat = a.edition) (length : h.length.toNat = m)
    (limit : m ≤ hostLimit a.edition) (type : Nat) (f : Association → State) : s.onAssoc type h m f = f a := by
  have there : ¬ (a.edition = 1 ∧ h.ipv6 = true) := fun c => by simp [version c.1] at c
  have fits : ¬ (h.edition.toNat ≠ a.edition ∨ h.length.toNat ≠ m ∨ hostLimit a.edition < m) := by
    simp [edition, length, limit]
  simp only [State.onAssoc, hosting, Bool.not_true, Bool.false_eq_true, if_false, found, if_neg there, if_neg fits]

theorem State.Serves.onAssoc (v : s.Serves h a n m) (type : Nat) (f : Association → State) : s.onAssoc type h m f = f a :=
  State.onAssoc_eq v.hosting v.assoc v.version v.edition v.length v.limit type f

theorem State.Serves.onContext (v : s.Serves h a n m) (type : Nat) (u : State) : s.onContext type h n a u = u := by
  have known : ¬ 4096 ≤ n := Nat.not_le.2 v.known
  simp only [State.onContext, if_neg known, v.scope, Bool.not_true, Bool.false_eq_true, if_false]

/-! ### Opening a context (R322, R352, R354) -/

section
variable {pl : List Byte} (v : s.Serves h a n 32) (whole : pl.length = 32) (names : fieldAt pl 0 2 = n)
  (prio : fieldAt pl 4 1 ≤ 7)
include v whole names prio

theorem State.Serves.ctxOpen_repeated
    (same : (s.ctx n).state ≠ 0 ∧ (s.ctx n).openedBy = a.num ∧ (s.ctx n).openPayload = pl) :
    s.ctxOpen h pl = s.send (.host 0x83 h 0 []) := by
  have formed : ¬ ((32 : Nat) ≠ 32 ∨ 7 < fieldAt pl 4 1) := by simpa using prio
  simp only [State.ctxOpen, whole, v.onAssoc, if_neg formed, names, v.onContext, if_pos same]
  rfl

theorem State.Serves.ctxOpen_refused {r : Nat} (reason : s.openReason n (fieldAt pl 2 2) (fieldAt pl 8 8) = some r)
    (new : ¬ ((s.ctx n).state ≠ 0 ∧ (s.ctx n).openedBy = a.num ∧ (s.ctx n).openPayload = pl)) :
    s.ctxOpen h pl = s.send (.host 0x83 h 4 [BitVec.ofNat 8 r]) := by
  have formed : ¬ ((32 : Nat) ≠ 32 ∨ 7 < fieldAt pl 4 1) := by simpa using prio
  simp only [State.ctxOpen, whole, v.onAssoc, if_neg formed, names, v.onContext, if_neg new, reason]
  rfl

theorem State.Serves.ctxOpen_accepted {cs me : Nat} (allowed : s.openReason n (fieldAt pl 2 2) (fieldAt pl 8 8) = none)
    (new : ¬ ((s.ctx n).state ≠ 0 ∧ (s.ctx n).openedBy = a.num ∧ (s.ctx n).openPayload = pl))
    (stream : s.offered 0x1100 pl 16 = (s, some cs)) (numeric : s.offered 0x1104 pl 18 = (s, some me)) :
    s.ctxOpen h pl = (s.newContext a n pl cs me).send (.host 0x83 h 0 []) := by
  have formed : ¬ ((32 : Nat) ≠ 32 ∨ 7 < fieldAt pl 4 1) := by simpa using prio
  simp only [State.ctxOpen, whole, v.onAssoc, if_neg formed, names, v.onContext, if_neg new, allowed, stream, numeric]
  rfl

end

/-- An interface whose offer meets the permitted range gives its edition and counts nothing. -/
theorem State.offered_agreed {i e at' : Nat} {pl : List Byte}
    (agreed : negotiate (fieldAt pl at' 1) (fieldAt pl (at' + 1) 1) (s.entry i 1) (s.entry i 2) = some e) :
    s.offered i pl at' = (s, some e) := by
  simp only [State.offered, agreed]

/-- Only a CLOSED context may be opened (R354). -/
theorem State.closed_of_openReason {mask off : Nat} (allowed : s.openReason n mask off = none) : (s.ctx n).state = 0 := by
  by_contra opened
  simp only [State.openReason, ne_eq, opened, not_false_eq_true, if_true] at allowed
  split at allowed <;> cases allowed

/-- An answer to a host neither reads nor changes the contexts and the number of the next one. -/
theorem State.send_host_withCtxs (s : State) (ctxs : Tbl Ctx) (id type status : Nat) (h : HostHdr) (pl : List Byte) :
    ({ s with ctxs := ctxs, nextId := id } : State).send (.host type h status pl)
      = { s.send (.host type h status pl) with ctxs := ctxs, nextId := id } := by
  have port : ({ s with ctxs := ctxs, nextId := id } : State).port 0 = s.port 0 := rfl
  simp only [State.send, State.frameOf, port]
  split <;> rfl

/-! ### Closing a context and an association (R331, R350 to R352) -/

theorem State.Serves.ctxClose_eq (v : s.Serves h a n 0) (names : h.context.toNat = n) :
    s.ctxClose h = (if (s.ctx n).state = 0 then s else (s.teardown n 0 0).schedule (polderOf n)).send (.host 0x84 h 0 []) := by
  simp only [State.ctxClose, v.onAssoc, names, v.onContext]
  split <;> rfl

/-! ### Joining a fabric group (R369) -/

theorem toBytes_length (n v : Nat) : (toBytes n v).length = n := by
  induction n generalizing v with
  | zero => rfl
  | succ n ih => simp [toBytes, ih]

theorem ofBytes_append_singleton (bs : List Byte) (b : Byte) : ofBytes (bs ++ [b]) = ofBytes bs * 256 + b.toNat := by
  simp [ofBytes]

/-- Bytes hold the number they were made of, as far as it fits. -/
theorem ofBytes_toBytes (n v : Nat) : ofBytes (toBytes n v) = v % 256 ^ n := by
  induction n generalizing v with
  | zero => simp [toBytes, ofBytes, Nat.mod_one]
  | succ n ih =>
    have digits : v % 256 ^ (n + 1) = v % 256 + 256 * (v / 256 % 256 ^ n) := by rw [Nat.pow_succ', Nat.mod_mul]
    rw [toBytes, ofBytes_append_singleton, ih, BitVec.toNat_ofNat, digits]
    omega

/-- A field that follows the bytes before it. -/
theorem fieldAt_append (pre bs rest : List Byte) {off n : Nat} (at' : pre.length = off) (size : bs.length = n) :
    fieldAt (pre ++ bs ++ rest) off n = ofBytes bs := by
  subst at' size
  simp [fieldAt]

/-- The numbers listed after a prefix, two bytes each, read back in their order. -/
theorem map_fieldAt_flatMap (members : List W16) (pre : List Byte) {off : Nat} (at' : pre.length = off) :
    (List.range members.length).map (fun i => BitVec.ofNat 16
      (fieldAt (pre ++ members.flatMap (fun m => toBytes 2 m.toNat)) (off + 2 * i) 2)) = members := by
  induction members generalizing pre off with
  | nil => rfl
  | cons m rest ih =>
    have first : fieldAt (pre ++ (toBytes 2 m.toNat ++ rest.flatMap (fun m => toBytes 2 m.toNat))) off 2 = m.toNat := by
      rw [← List.append_assoc, fieldAt_append _ _ _ at' (toBytes_length _ _), ofBytes_toBytes]
      exact Nat.mod_eq_of_lt m.isLt
    have later := ih (pre ++ toBytes 2 m.toNat) (off := off + 2) (by simp [at', toBytes_length])
    rw [List.length_cons, List.range_succ_eq_map, List.map_cons, List.map_map, List.flatMap_cons]
    refine congrArg₂ List.cons ?_ (Eq.trans (List.map_congr_left fun i _ => ?_) later)
    · rw [Nat.mul_zero, Nat.add_zero, first, BitVec.ofNat_toNat, BitVec.setWidth_eq]
    · rw [Function.comp_apply, ← List.append_assoc]
      congr 2
      omega

/-- The payload of a `FABRIC_JOIN`. -/
def joinPayload (ident : W64) (n : Nat) (members : List W16) : List Byte :=
  toBytes 8 ident.toNat ++ toBytes 2 n ++ toBytes 2 members.length ++ members.flatMap (fun m => toBytes 2 m.toNat)

theorem joinPayload_length (ident : W64) (n : Nat) (members : List W16) :
    (joinPayload ident n members).length = 12 + 2 * members.length := by
  have listed : (members.flatMap (fun m => toBytes 2 m.toNat)).length = 2 * members.length := by
    simp [List.length_flatMap, toBytes_length, Nat.mul_comm]
  simp only [joinPayload, List.length_append, toBytes_length, listed]

theorem fieldAt_joinPayload_ident (ident : W64) (n : Nat) (members : List W16) :
    fieldAt (joinPayload ident n members) 0 8 = ident.toNat := by
  have at' := fieldAt_append [] (toBytes 8 ident.toNat)
    (toBytes 2 n ++ (toBytes 2 members.length ++ members.flatMap (fun m => toBytes 2 m.toNat))) rfl (toBytes_length _ _)
  rw [joinPayload, List.append_assoc, List.append_assoc]
  refine at'.trans ((ofBytes_toBytes ..).trans ?_)
  exact Nat.mod_eq_of_lt ident.isLt

theorem fieldAt_joinPayload_context (ident : W64) {n : Nat} (known : n < 65536) (members : List W16) :
    fieldAt (joinPayload ident n members) 8 2 = n := by
  have at' := fieldAt_append (toBytes 8 ident.toNat) (toBytes 2 n)
    (toBytes 2 members.length ++ members.flatMap (fun m => toBytes 2 m.toNat)) (toBytes_length _ _) (toBytes_length _ _)
  rw [joinPayload, List.append_assoc, at', ofBytes_toBytes]
  exact Nat.mod_eq_of_lt known

theorem fieldAt_joinPayload_count (ident : W64) (n : Nat) {members : List W16} (few : members.length < 65536) :
    fieldAt (joinPayload ident n members) 10 2 = members.length := by
  have at' := fieldAt_append (toBytes 8 ident.toNat ++ toBytes 2 n) (toBytes 2 members.length)
    (members.flatMap (fun m => toBytes 2 m.toNat)) (off := 10) (by simp [toBytes_length]) (toBytes_length _ _)
  rw [joinPayload, at', ofBytes_toBytes]
  exact Nat.mod_eq_of_lt few

/-- The group that an Ikiroth joins, as the member that it is (R369). -/
def State.groupOf (s : State) (ident : W64) (members : List W16) : Group :=
  { ident := ident, members := members, mine := members.idxOf s.deviceId, ended := [] }

theorem State.Serves.fabricJoin_eq {ident : W64} {members : List W16} (v : s.Serves h a n (12 + 2 * members.length))
    (few : members.length < 65536) (numbered : s.deviceId ≠ 0xFFFF) (mine : s.deviceId ∈ members)
    (opened : (s.ctx n).state ≠ 0) :
    s.fabricJoin h (joinPayload ident n members)
      = (s.onCtx n (fun c => { c with group := some (s.groupOf ident members) })).send (.host 0x89 h 0 []) := by
  have listed : (List.range members.length).map (fun i => BitVec.ofNat 16
      (fieldAt (joinPayload ident n members) (12 + 2 * i) 2)) = members :=
    map_fieldAt_flatMap members _ (by simp [toBytes_length])
  have some' : members.length ≠ 0 := (List.length_pos_of_mem mine).ne'
  have known : n < 65536 := lt_trans v.known (by decide)
  have fits : ¬ (members.length = 0 ∨ 12 + 2 * members.length ≠ 12 + 2 * members.length ∨ s.deviceId = 0xFFFF#16
      ∨ (!members.contains s.deviceId) = true) := by
    simp only [BitVec.ofNat_eq_ofNat] at numbered
    simp [some', numbered, mine]
  simp only [State.fabricJoin, joinPayload_length, v.onAssoc, fieldAt_joinPayload_context ident known,
    fieldAt_joinPayload_count ident n few, fieldAt_joinPayload_ident, listed, v.onContext, if_neg fits, if_neg opened,
    BitVec.ofNat_toNat, BitVec.setWidth_eq]
  rfl

/-- Settles O46: request by request, what it comes to; an opening adds one context and numbers it, which an answer does not
see. -/
theorem contextsOpenAndClose : Obligations.ContextsOpenAndClose := by
  unfold Obligations.ContextsOpenAndClose
  refine ⟨fun s h a ctx pl cs me r => ?_, fun s h a n => ?_⟩
  · intro n same
    refine ⟨fun v whole names prio => ⟨fun again => ?_, fun allowed stream numeric => ?_, fun reason new => ?_⟩,
      fun v names => ?_, fun ident members v few numbered mine opened => ?_⟩
    · exact next_congr (v.ctxOpen_repeated whole names prio again)
    · have new : ¬ same := fun again => again.1 (State.closed_of_openReason allowed)
      have opens := v.ctxOpen_accepted whole names prio allowed new (State.offered_agreed stream)
        (State.offered_agreed numeric)
      let u := s.newContext a n pl cs me
      have answered : s.ctxOpen h pl = { s.send (.host 0x83 h 0 []) with ctxs := u.ctxs, nextId := s.nextId + 1 } :=
        opens.trans (s.send_host_withCtxs u.ctxs (s.nextId + 1) ..)
      have here : (s.ctxOpen h pl).ctx n = u.ctx n := by rw [answered]; rfl
      have new' := here.trans (s.ctx_setCtx_self n _)
      refine ⟨s.ctxOpen h pl, rfl, congrArg Ctx.state new', congrArg Ctx.sites new', congrArg Ctx.cores new',
        congrArg Ctx.csEd new', congrArg Ctx.mEd new', congrArg Ctx.queue new', congrArg Ctx.decls new',
        congrArg Ctx.slots new', congrArg Ctx.nextPost new', fun m other => ?_, ?_⟩
      · rw [answered]
        exact (s.ctx_setCtx n m _).trans (if_neg other.symm)
      · rw [answered]
    · exact next_congr (v.ctxOpen_refused whole names prio reason new)
    · exact next_congr (v.ctxClose_eq names)
    · exact next_congr (v.fabricJoin_eq few numbered mine opened)
  · intro gone
    refine ⟨fun hosting found version edition length => ?_, rfl⟩
    have named : a.num = h.assoc := by simpa using List.find?_some found
    have closes := State.onAssoc_eq hosting found version edition (m := 0) (by simp [length]) (Nat.zero_le _) 2
      (fun a => (s.endAssoc a.num).sayHost 2 h hostOk [])
    exact next_congr (closes.trans (by rw [named]; rfl))

end Sys2Proof.Machine
end

section
/-! ### What arrives over the fabric, and what is sent again (R372 to R374) -/

namespace Sys2Proof.Machine

variable {s t : State} {src : W16} {group : W64} {n packet : Nat} {c : Ctx} {l : FabricLink}

/-! ### A peer's packet (R374) -/

theorem State.Accessed.link (h : s.Accessed t) (peer : W16) : t.link peer = s.link peer := by
  obtain ⟨_, _, _, _, _, _, rfl⟩ := h; rfl

section
variable (member : s.memberCtx group = some (n, c)) (link : s.link src = some l)
include member link

theorem State.forMember_linked (sent arrived : List Byte) (f : Nat → Ctx → FabricLink → State) :
    s.forMember src group packet sent arrived f
      = if l.taken.contains packet then s.send (.fabricAck src packet)
        else if !segmentsOk sent arrived then s.event 0x6010 0 1 else f n c l := by
  simp only [State.forMember, member, link]

theorem State.forMember_sound {sent arrived : List Byte} (fresh : l.taken.contains packet = false)
    (whole : segmentsOk sent arrived = true) (f : Nat → Ctx → FabricLink → State) :
    s.forMember src group packet sent arrived f = f n c l := by
  rw [State.forMember_linked member link, fresh, whole]
  rfl

variable {m : W32} {addr : W64} {data arrived : List Byte} {g : Group} (joined : c.group = some g)
  (fresh : l.taken.contains packet = false) (whole : segmentsOk data arrived = true)
include joined fresh whole

/-- A `PUT` over a link that names the member here and may be written is written and acknowledged. -/
theorem State.putArrives_written (mine : g.mine = m.toNat) (writable : s.fabricWritable n l.scope addr data.length = true) :
    s.fabricArrives (.put src group m packet addr data arrived)
      = ((s.writeView (ioFor (polderOf n)) addr arrived).putLink { l with taken := l.taken ++ [packet] }).send
          (.fabricAck src packet) := by
  have after : (s.writeView (ioFor (polderOf n)) addr arrived).link src = some l :=
    (((State.Accessed.refl s).writeView ..).link src).trans link
  have passes : (c.group.any (fun g => g.mine == m.toNat) && s.fabricWritable n l.scope addr data.length) = true := by
    simp [joined, mine, writable]
  rw [State.fabricArrives, State.forMember_sound member link fresh whole, if_pos passes]
  simp only [State.accept, after]

/-- One that does not, or may not be, is refused and counted. -/
theorem State.putArrives_refused (bad : g.mine ≠ m.toNat ∨ s.fabricWritable n l.scope addr data.length = false) :
    s.fabricArrives (.put src group m packet addr data arrived)
      = (s.send (.fabricRefusal src packet)).bump (0x6200 + polderOf n) 8 1 := by
  have stops : (c.group.any (fun g => g.mine == m.toNat) && s.fabricWritable n l.scope addr data.length) = false := by
    rcases bad with other | shut
    · simp [joined, other]
    · simp [shut]
  rw [State.fabricArrives, State.forMember_sound member link fresh whole, if_neg (ne_true_of_eq_false stops)]
  rfl

end

/-! ### An abort (R373) -/

theorem State.early_started {ctx : Nat} {coll : W64} {o : FabricOp}
    (found : s.fabricOps.find? (fun x => x.ctx.toNat == ctx && x.collId == coll && x.collective && x.state == 0) = some o) :
    s.early ctx coll = (s, o) := by
  simp only [State.early, found]

/-- An abort ends the collective in progress that it names with status 2. -/
theorem State.fabricAborts_started {coll : W64} {o : FabricOp} (member : s.memberCtx group = some (n, c))
    (open' : c.endedColl coll = false)
    (unready : s.fabricOps.any (fun x => x.ctx.toNat == n && x.collId == coll && x.collective && x.state == 1) = false)
    (found : s.fabricOps.find? (fun x => x.ctx.toNat == n && x.collId == coll && x.collective && x.state == 0) = some o) :
    s.fabricAborts group coll = s.finishFabric o 2 := by
  have started : o.state = 0 := by
    have := List.find?_some found
    simp only [Bool.and_eq_true, beq_iff_eq] at this
    exact this.2
  simp [State.fabricAborts, member, open', unready, State.early_started found, started]

/-! ### Retransmission and the escape path (R372) -/

section
variable {k : FabricPkt}

theorem State.escapePort_congr (domains : t.domains = s.domains) (peer : W16) : t.escapePort peer = s.escapePort peer := by
  unfold State.escapePort State.peerPorts State.domainBytes
  rw [domains]

/-- A packet on the escape path leaves by it. -/
theorem State.sendPkt_escape (port : Nat) (path : k.path = some (port, 16)) :
    s.sendPkt k = s.send (.fabric k.peer port 16 k.id k.msg) := by
  simp only [State.sendPkt, path, Option.getD_some]

theorem State.crcOut_eq (s : State) (fails : Nat) :
    s.crcOut fails = s.event 0x6010 1 (min fails (s.entry 0x6000 6 + 1)) := rfl

theorem State.entry_event (i b m i' j' : Nat) : (s.event i b m).entry i' j' = s.entry i' j' := by
  simp [State.entry]

/-- A packet that is not acknowledged in time, with retries left, leaves again on the escape path. -/
theorem State.fabricRto_again {fails : Nat} (found : s.fabricPkts.find? (fun x => x.id == packet && !x.waiting) = some k)
    (left : k.retries + 1 < s.entry 0x6000 6) :
    let again : FabricPkt := { k with retries := k.retries + 1, path := some (s.escapePort k.peer, 16) }
    s.fabricRto packet fails
      = (((s.crcOut fails).putPkt again).bump (0x6200 + polderOf k.ctx.toNat) 7 1).send
          (.fabric k.peer (s.escapePort k.peer) 16 k.id k.msg) := by
  intro again
  have more : ¬ (s.crcOut fails).entry 0x6000 6 ≤ k.retries + 1 := by
    rw [State.crcOut_eq, State.entry_event]
    omega
  have port : (s.crcOut fails).escapePort k.peer = s.escapePort k.peer :=
    State.escapePort_congr (State.event_domains ..) _
  simp only [State.fabricRto, found, if_neg more, port]
  exact State.sendPkt_escape _ rfl

/-- With its retries used up, the link to its peer ends. -/
theorem State.fabricRto_last {fails : Nat} (found : s.fabricPkts.find? (fun x => x.id == packet && !x.waiting) = some k)
    (used : s.entry 0x6000 6 ≤ k.retries + 1) :
    s.fabricRto packet fails
      = ({ s.crcOut fails with links := s.links.filter (fun x => x.peer != k.peer) } : State).failPeer k.peer := by
  have done : (s.crcOut fails).entry 0x6000 6 ≤ k.retries + 1 := by rwa [State.crcOut_eq, State.entry_event]
  have links : (s.crcOut fails).links = s.links := State.event_links ..
  simp only [State.fabricRto, found, if_pos done, links]

/-- A packet that has waited for a credit leaves on the escape path without one. -/
theorem State.fabricEscape_linked (found : s.fabricPkts.find? (fun x => x.id == packet && x.waiting) = some k)
    (link : s.link k.peer = some l) :
    s.fabricEscape packet
      = ((s.putPkt { k with waiting := false, credit := false, path := some (s.escapePort k.peer, 16) }).bump
          (0x6200 + polderOf k.ctx.toNat) 6 k.msg.bytes).send (.fabric k.peer (s.escapePort k.peer) 16 k.id k.msg) := by
  simp only [State.fabricEscape, found, link, Option.isNone_some, Bool.false_eq_true, if_false]
  exact State.sendPkt_escape _ rfl

theorem State.fabricEscape_unlinked (found : s.fabricPkts.find? (fun x => x.id == packet && x.waiting) = some k)
    (link : s.link k.peer = none) : s.fabricEscape packet = s := by
  simp only [State.fabricEscape, found, link, Option.isNone_none, if_true]

end

/-- Settles O24: packet by packet, what the checks of a member's packet let through, and which path one that waits takes. -/
theorem fabricPackets : Obligations.FabricPackets := by
  unfold Obligations.FabricPackets
  refine ⟨fun s src group coll addr member packet n data arrived c g l o => ?_, fun s k l fails => ?_⟩
  · intro p put found joined link
    refine ⟨fun fresh whole mine writable => ?_, fun fresh whole bad => ?_, fun again => ?_, fun fresh broken => ?_,
      fun running unready op => ?_⟩
    · exact next_congr (State.putArrives_written found link joined fresh whole mine writable)
    · exact next_congr (State.putArrives_refused found link joined fresh whole bad)
    · exact next_congr ((State.forMember_linked found link ..).trans (if_pos again))
    · refine next_congr ((State.forMember_linked found link ..).trans ?_)
      rw [fresh, broken]
      rfl
    · have open' : c.endedColl coll = false := by simpa [Ctx.endedColl, joined] using running
      refine next_congr (State.fabricAborts_started found open' ?_ op)
      simp only [List.any_eq_false, Bool.and_eq_true, beq_iff_eq, not_and]
      exact fun x listed ⟨⟨ctx, named⟩, collective⟩ => unready x listed ctx named collective
  · intro limit p u again escaped leaves
    refine ⟨fun sent => ⟨fun left => ?_, fun used => ?_⟩, fun waits => ⟨fun link => ?_, fun link => ?_⟩⟩
    · exact next_congr (State.fabricRto_again sent left)
    · exact next_congr (State.fabricRto_last sent used)
    · exact next_congr (State.fabricEscape_linked waits link)
    · exact next_congr (State.fabricEscape_unlinked waits link)

end Sys2Proof.Machine
end

section
/-! ### Frames that a port receives (R346 to R349) -/

namespace Sys2Proof.Machine

variable {s : State} {q : Nat} {f : Frame}

/-- The state after a frame's FEC code words are counted (R346). -/
def State.fecCounted (s : State) (q : Nat) (f : Frame) : State :=
  (s.bump (portIndex q 2) 5 f.fecCorrected).event (portIndex q 1) 2 f.fecBad

theorem State.port_fecCounted (s : State) (q : Nat) (f : Frame) (m : Nat) : (s.fecCounted q f).port m = s.port m := by
  simp [State.fecCounted]

/-- The replay window is an entry of its own. -/
theorem State.window_fecCounted (s : State) (small : q < 8) (f : Frame) :
    (s.fecCounted q f).entry 0x6002 1 = s.entry 0x6002 1 := by
  have ne : entryKey (portIndex q 2) 5 ≠ entryKey 0x6002 1 := by
    unfold entryKey portIndex
    omega
  rw [State.fecCounted, State.entry_event, State.entry_bump_ne ne]

section
variable (up : 3 ≤ (s.port q).linkState)
include up

theorem State.frameReceive_badFcs (bad : f.fcsOk = false) :
    s.frameReceive q f = ((s.fecCounted q f).dropFrame q).event (portIndex q 1) 3 1 :=
  (if_neg (Nat.not_lt.2 up)).trans (if_pos (by simp [bad]))

variable (ok : f.fcsOk = true)
include ok

theorem State.frameReceive_unfit (unfit : 9216 < f.length ∨ f.vlan = true) :
    s.frameReceive q f = (s.fecCounted q f).dropFrame q :=
  (if_neg (Nat.not_lt.2 up)).trans ((if_neg (by simp [ok])).trans (if_pos unfit))

variable (short : f.length ≤ 9216) (untagged : f.vlan = false)
include short untagged

theorem State.frameReceive_unprotected (kind : f.kind = .unprotected) :
    s.frameReceive q f = (s.fecCounted q f).event (portIndex q 1) 6 1 := by
  have fits : ¬ (9216 < f.length ∨ f.vlan = true) := by simp [short, untagged]
  simp only [State.frameReceive, if_neg (Nat.not_lt.2 up), ok, Bool.not_true, Bool.false_eq_true, if_false, if_neg fits, kind]
  rfl

theorem State.frameReceive_handshake (kind : f.kind = .handshake) :
    s.frameReceive q f = ((s.fecCounted q f).bump (portIndex q 2) 2 1).bump (portIndex q 2) 4 f.length := by
  have fits : ¬ (9216 < f.length ∨ f.vlan = true) := by simp [short, untagged]
  simp only [State.frameReceive, if_neg (Nat.not_lt.2 up), ok, Bool.not_true, Bool.false_eq_true, if_false, if_neg fits, kind]
  rfl

theorem State.frameReceive_macsec {ch : Byte} {pn : W64} {icv newKey : Bool} {inner : FrameInner}
    (kind : f.kind = .macsec ch pn icv newKey inner) :
    s.frameReceive q f = (s.fecCounted q f).macsecFrame q f.length ch.toNat pn icv newKey inner := by
  have fits : ¬ (9216 < f.length ∨ f.vlan = true) := by simp [short, untagged]
  simp only [State.frameReceive, if_neg (Nat.not_lt.2 up), ok, Bool.not_true, Bool.false_eq_true, if_false, if_neg fits, kind]
  rfl

end

/-! ### A channel's window (R349) -/

section
variable {c : Channel} {window pn : Nat}

theorem Channel.acceptPn_newer (newer : c.highest < pn) :
    c.acceptPn window pn
      = some { c with highest := pn, seen := c.seen.filter (fun i => pn ≤ i + window) ++ [pn] } := if_pos newer

theorem Channel.acceptPn_unseen (old : pn ≤ c.highest) (within : c.highest ≤ pn + window) (unseen : pn ∉ c.seen) :
    c.acceptPn window pn = some { c with seen := c.seen ++ [pn] } :=
  (if_neg (Nat.not_lt.2 old)).trans (if_pos ⟨within, by simpa using unseen⟩)

theorem Channel.acceptPn_replayed (old : pn ≤ c.highest) (bad : pn + window < c.highest ∨ pn ∈ c.seen) :
    c.acceptPn window pn = none := by
  have not' : ¬ (c.highest ≤ pn + window ∧ (!c.seen.contains pn) = true) := by
    rcases bad with behind | seen
    · omega
    · simp [seen]
  exact (if_neg (Nat.not_lt.2 old)).trans (if_neg not')

theorem Channel.under_eq (c : Channel) (newKey : Bool) :
    c.under newKey = if c.oldKey = true ∧ newKey = true then { c with oldKey := false, highest := 0, seen := [] } else c := by
  simp only [Channel.under, Bool.and_eq_true]

end

/-! ### A frame under MACsec (R347, R349) -/

section
variable {ch : Nat} {icv newKey : Bool} {len : Nat} {pn : W64} {inner : FrameInner}

theorem State.macsecFrame_unauthentic
    (bad : (s.port q).channels.find? (fun y => y.num == ch) = none ∨ icv = false) :
    s.macsecFrame q len ch pn icv newKey inner = s.event (portIndex q 1) 4 1 := by
  unfold State.macsecFrame
  dsimp only
  split
  · rfl
  · next listed =>
    have wrong : icv = false := bad.resolve_left (by simp [listed])
    rw [if_pos (by simp [wrong])]

variable {c : Channel} (found : (s.port q).channels.find? (fun y => y.num == ch) = some c) (authentic : icv = true)
include found authentic

theorem State.macsecFrame_replayed (replayed : (c.under newKey).acceptPn (s.entry 0x6002 1) pn.toNat = none) :
    s.macsecFrame q len ch pn icv newKey inner = s.event (portIndex q 1) 5 1 := by
  simp only [State.macsecFrame, found, authentic, Bool.not_true, Bool.false_eq_true, if_false, replayed]

theorem State.macsecFrame_accepted {d : Channel}
    (accepts : (c.under newKey).acceptPn (s.entry 0x6002 1) pn.toNat = some d) :
    s.macsecFrame q len ch pn icv newKey inner
      = (s.setPort q { s.port q with
          channels := (s.port q).channels.map (fun y => if y.num = ch then d else y) }).acceptFrame q len inner := by
  simp only [State.macsecFrame, found, authentic, Bool.not_true, Bool.false_eq_true, if_false, accepts]

end

/-- An accepted frame is counted with its bytes, an IP fragment as dropped. -/
theorem State.acceptFrame_eq (s : State) (q len : Nat) (inner : FrameInner) :
    s.acceptFrame q len inner
      = if inner = .ipFragment then s.dropFrame q
        else ((s.frameInner q inner).bump (portIndex q 2) 2 1).bump (portIndex q 2) 4 len := by
  unfold State.acceptFrame
  dsimp only
  split
  · next fragment => rw [fragment]; rfl
  · rfl

/-- Settles O50: the frame's own checks first, then its channel's window, which alone decides what is accepted. -/
theorem framesReceived : Obligations.FramesReceived := by
  unfold Obligations.FramesReceived
  intro s port f ch pn icv newKey inner c q x u d window counted dropped accepted up
  have same : u.port q = x := s.port_fecCounted q f q
  have size : u.entry 0x6002 1 = window := s.window_fecCounted port.isLt f
  refine ⟨fun bad => ?_, fun ok unfit => ?_, fun ok short untagged => ⟨fun kind => ?_, fun kind => ?_, fun kind => ?_⟩⟩
  · exact next_congr (State.frameReceive_badFcs up bad)
  · exact next_congr (State.frameReceive_unfit up ok unfit)
  · exact next_congr (State.frameReceive_unprotected up ok short untagged kind)
  · exact next_congr (State.frameReceive_handshake up ok short untagged kind)
  · have checked : s.frameReceive q f = u.macsecFrame q f.length ch.toNat pn icv newKey inner :=
      State.frameReceive_macsec up ok short untagged kind
    refine ⟨fun bad => ?_, fun found authentic => ?_⟩
    · rw [← same] at bad
      exact next_congr (checked.trans (State.macsecFrame_unauthentic bad))
    rw [← same] at found
    have under : (c.under newKey).acceptPn (u.entry 0x6002 1) = d.acceptPn window := by rw [size, c.under_eq]
    have accepts {y : Channel} (e : d.acceptPn window pn.toNat = some y) :
        exec (.frameReceive port f) s = .next (accepted y) := by
      have taken := State.macsecFrame_accepted (len := f.length) (inner := inner) found authentic (by rw [under, e])
      rw [State.acceptFrame_eq, same] at taken
      exact next_congr (checked.trans taken)
    refine ⟨fun newer => ?_, fun old within unseen => ?_, fun old bad => ?_⟩
    · exact accepts (Channel.acceptPn_newer newer)
    · exact accepts (Channel.acceptPn_unseen old within unseen)
    · exact next_congr (checked.trans (State.macsecFrame_replayed found authentic
        (by rw [under, Channel.acceptPn_replayed old bad])))

end Sys2Proof.Machine
end

section
/-! ### Result slots (R359 to R365) -/

namespace Sys2Proof.Machine

variable {s : State} {h : HostHdr} {a : Association} {n : Nat} {r : ResultSlot}

/-- The read of a slot's result bytes from a position of the result. -/
def State.resultView (s : State) (p : Nat) (r : ResultSlot) (skip m : Nat) : BytesRead :=
  s.readView (ioFor p) (r.resAddr + BitVec.ofNat 64 skip) m

/-- The bytes of a slot's result from a position: as it was sealed, or as memory stands (R415). -/
def ResultSlot.sent (r : ResultSlot) (skip m : Nat) (read : List Byte) : List Byte :=
  r.sealed.elim read (fun bs => (bs.drop skip).take m)

section
variable {p off len : Nat} {rec0 : List Byte} (record : r.record = some rec0)
include record

/-- Bytes within the completion record need no read. -/
theorem State.resultBytes_record (within : off + len ≤ 64) :
    s.resultBytes p r off len = (s, (rec0.drop off).take len, false) := by
  simp only [State.resultBytes, record, Option.getD_some, if_pos within]

theorem State.resultBytes_beyond (beyond : 64 < off + len) :
    let skip := max off 64 - 64
    let m := off + len - 64 - skip
    s.resultBytes p r off len
      = ((s.resultView p r skip m).state,
          (rec0.drop off).take len ++ r.sent skip m (s.resultView p r skip m).data,
          (s.resultView p r skip m).poison.isSome) := by
  simp only [State.resultBytes, record, Option.getD_some, if_neg (Nat.not_le.2 beyond), ResultSlot.sent]
  cases r.sealed <;> rfl

end

/-! ### GET (R360, R365) -/

section
variable (v : s.Serves h a n h.length.toNat) (names : h.context.toNat = n) (few : h.slot.toNat < 256)
include v names few

section
variable {rec0 : List Byte} (listed : tblFind (s.ctx n).slots h.slot.toNat = some r) (ready : r.ready = true)
  (tag : r.tag = h.item.toNat % 2 ^ 32) (fits : h.offset.toNat + h.length.toNat ≤ 64 + r.resBytes)
include listed ready tag fits

/-- A segment whose bytes are sound is answered with them, unless it fails its check on the way out too often. -/
theorem State.Serves.getResult_sound {u : State} {bs : List Byte}
    (sound : s.resultBytes (polderOf n) r h.offset.toNat h.length.toNat = (u, bs, false)) :
    let out := u.resendSegments (polderOf n) r h.offset.toNat h.length.toNat h.crcFails
    s.getResult h = out.1.send (if out.2 then .host 0x86 h 6 [] else .host 0x86 h 0 bs) := by
  intro out
  have out_eq : u.resendSegments (polderOf n) r h.offset.toNat h.length.toNat h.crcFails = (out.1, out.2) := rfl
  have there : ¬ ((!r.ready) = true ∨ r.tag ≠ h.item.toNat % 2 ^ 32) := by simp [ready, tag]
  simp only [State.getResult, v.onAssoc, names, v.onContext, if_neg (Nat.not_le.2 few), listed, if_neg there,
    if_neg (Nat.not_lt.2 fits), sound, out_eq]
  cases out.2 <;> rfl

theorem State.Serves.getResult_poisoned {u : State} {bs : List Byte}
    (bad : s.resultBytes (polderOf n) r h.offset.toNat h.length.toNat = (u, bs, true)) :
    s.getResult h = (u.event 0x6010 3 1).send (.host 0x86 h 6 []) := by
  have there : ¬ ((!r.ready) = true ∨ r.tag ≠ h.item.toNat % 2 ^ 32) := by simp [ready, tag]
  simp only [State.getResult, v.onAssoc, names, v.onContext, if_neg (Nat.not_le.2 few), listed, if_neg there,
    if_neg (Nat.not_lt.2 fits), bad]
  rfl

end

/-- A slot that is not READY under the tag answers whether its package is on its way. -/
theorem State.Serves.getResult_missing
    (missing : ∀ y, tblFind (s.ctx n).slots h.slot.toNat = some y → y.ready = false ∨ y.tag ≠ h.item.toNat % 2 ^ 32) :
    s.getResult h
      = if (s.ctx n).submitted h.slot.toNat (h.item.toNat % 2 ^ 32) then
          (s.bump (0x6200 + polderOf n) 4 1).send (.host 0x86 h 1 [])
        else (s.bump (0x6200 + polderOf n) 5 1).send (.host 0x86 h 2 []) := by
  simp only [State.getResult, v.onAssoc, names, v.onContext, if_neg (Nat.not_le.2 few)]
  split
  · rfl
  · next y listed =>
    have gone : (!y.ready) = true ∨ y.tag ≠ h.item.toNat % 2 ^ 32 := (missing y listed).imp_left (by simp)
    rw [if_pos gone]
    rfl

end

/-! ### RELEASE (R361) -/

section
variable (v : s.Serves h a n 0) (names : h.context.toNat = n) (few : h.slot.toNat < 256)
  (listed : tblFind (s.ctx n).slots h.slot.toNat = some r) (filled : r.record.isSome = true)
  (tag : r.tag = h.item.toNat % 2 ^ 32)
include v names few listed filled tag

theorem State.Serves.releaseSlot_ready (held : r.released = false) :
    s.releaseSlot h
      = ((s.setCtx n { s.ctx n with slots := tblPut (s.ctx n).slots h.slot.toNat { r with released := true } }).placeWaiting n
          h.slot.toNat).send (.host 0x87 h 0 []) := by
  have there : ¬ (r.tag ≠ h.item.toNat % 2 ^ 32 ∨ r.record.isNone = true) := by simp [tag, ← Option.not_isSome, filled]
  simp only [State.releaseSlot, v.onAssoc, names, v.onContext, if_neg (Nat.not_le.2 few), listed, if_neg there, held,
    Bool.false_eq_true, if_false]
  rfl

theorem State.Serves.releaseSlot_released (released : r.released = true) :
    s.releaseSlot h = s.send (.host 0x87 h 0 []) := by
  have there : ¬ (r.tag ≠ h.item.toNat % 2 ^ 32 ∨ r.record.isNone = true) := by simp [tag, ← Option.not_isSome, filled]
  simp only [State.releaseSlot, v.onAssoc, names, v.onContext, if_neg (Nat.not_le.2 few), listed, if_neg there, released,
    if_true]
  rfl

end

/-- Settles O48: a READY slot by whether the segment lies in the record or reaches a poisoned word, any other by what is
known of its package; a release by whether it repeats one. -/
theorem results : Obligations.Results := by
  unfold Obligations.Results
  intro s h a ctx r rec0 n c p tag slot off len skip m v u bytes out names few
  refine ⟨fun serves => ⟨fun listed record held tagged fits => ?_, fun missing => ?_⟩, fun serves listed record tagged => ?_⟩
  · have ready : r.ready = true := by simp [ResultSlot.ready, record, held]
    have read (beyond : 64 < off + len) : s.resultBytes p r off len = (u, bytes, v.poison.isSome) := by
      have outside : ¬ off + len ≤ 64 := Nat.not_le.2 beyond
      have sent : bytes = (rec0.drop off).take len ++ r.sent skip m v.data := by
        simp only [bytes, if_neg outside, ResultSlot.sent]
        cases r.sealed <;> rfl
      have here : u = v.state := if_neg outside
      rw [sent, here]
      exact State.resultBytes_beyond record beyond
    refine ⟨fun sound => ?_, fun beyond poisoned => ?_⟩
    · refine next_congr (serves.getResult_sound names few listed ready tagged fits ?_)
      by_cases within : off + len ≤ 64
      · have all : bytes = (rec0.drop off).take len := by simp [bytes, within]
        have same : u = s := if_pos within
        rw [same, all]
        exact State.resultBytes_record record within
      · rw [read (Nat.not_le.1 within), sound.resolve_left within]
        rfl
    · have bad := read beyond
      rw [Option.isSome_iff_ne_none.2 poisoned] at bad
      exact next_congr (serves.getResult_poisoned names few listed ready tagged fits bad)
  · exact next_congr (serves.getResult_missing names few missing)
  · have filled : r.record.isSome = true := by simp [record]
    exact ⟨fun held => next_congr (serves.releaseSlot_ready names few listed filled tagged held),
      fun released => next_congr (serves.releaseSlot_released names few listed filled tagged released)⟩

end Sys2Proof.Machine
end

section
/-! ### The beginning of a handshake (R407 to R411) -/

namespace Sys2Proof.Machine

variable {s : State} {x : Handshake} {f : Fragment}

/-! ### A fragment of H1 -/

/-- The handshake once a fragment of its H1 has arrived (R411). -/
def Handshake.withH1 (x : Handshake) (f : Fragment) : Handshake :=
  { x with h1 := if x.h1.contains (fragPart f) then x.h1 else x.h1 ++ [fragPart f], cut := max x.cut f.bytes.length }

/-- Whether an accepted H1 is of a role that its path does not serve (R407, R351). -/
def State.roleRefused (s : State) (x : Handshake) : Prop :=
  (x.path = .tsusen ∧ x.mgmt = .inband ∧ s.credOk x.cred = false) ∨ (x.path = .host ∧ x.cred.role = 0)

/-- A handshake whose H2 is made and waits for its signature (R409, R410). -/
def State.h2Made (s : State) (x : Handshake) : Handshake :=
  let nonce : BitVec 256 := s.freeVal 256
  { x with
    queued := true, fresh := s.free + 1, lo := fieldAt x.h1Bytes 32 1, hi := fieldAt x.h1Bytes 33 1
    h2 := toBytes 32 nonce.toNat ++ padTo 1568 (Config.kemFresh (s.free + 1)) ++ s.part.cert }

section
variable (s : State) (x : Handshake)

@[simp] theorem State.putHandshake_free : (s.putHandshake x).free = s.free := by
  obtain ⟨_, eq⟩ := s.putHandshake_frame x
  rw [eq]

@[simp] theorem State.putHandshake_part : (s.putHandshake x).part = s.part := by
  obtain ⟨_, eq⟩ := s.putHandshake_frame x
  rw [eq]

@[simp] theorem State.putHandshake_signQ : (s.putHandshake x).signQ = s.signQ := by
  obtain ⟨_, eq⟩ := s.putHandshake_frame x
  rw [eq]

/-- The number of free values taken and the list of handshakes do not meet. -/
theorem State.putHandshake_usedFree : s.usedFree.putHandshake x = (s.putHandshake x).usedFree := by
  have same : s.usedFree.handshake x.path x.id = s.handshake x.path x.id := rfl
  unfold State.putHandshake
  rw [same]
  split <;> rfl

end

theorem State.takeH1_gone (bad : s.h1Accepted x = false) :
    s.takeH1 x = ((s.dropHandshake x.path x.id).bump32 0x1000 7, .gone) := if_pos (by simp [bad])

section
variable (accepted : s.h1Accepted x = true)
include accepted

theorem State.takeH1_role (refused : s.roleRefused x) : s.takeH1 x = (s.dropHandshake x.path x.id, .role) := by
  have role : (x.path = .tsusen ∧ x.mgmt = .inband ∧ (!s.credOk x.cred) = true) ∨ (x.path = .host ∧ x.cred.role = 0) := by
    simpa [State.roleRefused] using refused
  exact (if_neg (by simp [accepted])).trans (if_pos role)

variable (served : ¬ s.roleRefused x)
include served

theorem State.takeH1_busy (full : 9 ≤ s.signQ.length) : s.takeH1 x = (s.bump 0x9080 2 1, .busy) := by
  have role : ¬ ((x.path = .tsusen ∧ x.mgmt = .inband ∧ (!s.credOk x.cred) = true) ∨ (x.path = .host ∧ x.cred.role = 0)) := by
    simpa [State.roleRefused] using served
  exact (if_neg (by simp [accepted])).trans ((if_neg role).trans (if_pos full))

theorem State.takeH1_taken (room : s.signQ.length < 9) :
    s.takeH1 x
      = ({ s.putHandshake (s.h2Made x) with signQ := s.signQ ++ [(x.path, x.id)], free := s.free + 2 }, .taken) := by
  have role : ¬ ((x.path = .tsusen ∧ x.mgmt = .inband ∧ (!s.credOk x.cred) = true) ∨ (x.path = .host ∧ x.cred.role = 0)) := by
    simpa [State.roleRefused] using served
  have made : s.takeH1 x
      = (({ s.usedFree.putHandshake (s.h2Made x) with signQ := s.signQ ++ [(x.path, x.id)] } : State).usedFree, .taken) :=
    (if_neg (by simp [accepted])).trans ((if_neg role).trans (if_neg (Nat.not_le.2 room)))
  rw [made, State.putHandshake_usedFree]
  simp only [State.usedFree, State.putHandshake_free]

end

/-! ### What a fragment comes to -/

theorem State.h1Fragment_queued (queued : x.queued = true) : s.h1Fragment x f = (s, .taken) := if_pos queued

section
variable (open' : x.queued = false)
include open'

theorem State.h1Fragment_unfit (unfit : fragFits f x.h1Total = false) : s.h1Fragment x f = (s, .gone) :=
  (if_neg (by simp [open'])).trans (if_pos (by simp [unfit]))

variable (fits : fragFits f x.h1Total = true)
include fits

theorem State.h1Fragment_part (part : wholeOf (x.withH1 f).h1Total (x.withH1 f).h1 = none) :
    s.h1Fragment x f = (s.putHandshake (x.withH1 f), .taken) :=
  (if_neg (by simp [open'])).trans ((if_neg (by simp [fits])).trans
    (if_pos (Option.isNone_iff_eq_none.2 part)))

variable {b : List Byte} (whole : wholeOf (x.withH1 f).h1Total (x.withH1 f).h1 = some b)
include whole

/-- The fragment that completes H1 has it taken; where there is no room, the handshake stays as it was. -/
theorem State.h1Fragment_whole {u : State} {step : HsStep}
    (taken : (s.putHandshake (x.withH1 f)).takeH1 (x.withH1 f) = (u, step)) :
    s.h1Fragment x f = if step = .busy then (u.putHandshake x, .busy) else (u, step) := by
  have complete : ¬ (wholeOf (x.withH1 f).h1Total (x.withH1 f).h1).isNone = true := by simp [whole]
  have judged : s.h1Fragment x f
      = (let r := (s.putHandshake (x.withH1 f)).takeH1 (x.withH1 f)
         if r.2 = .busy then (r.1.putHandshake x, .busy) else r) :=
    (if_neg (by simp [open'])).trans ((if_neg (by simp [fits])).trans (if_neg complete))
  rw [judged, taken]

end

theorem Handshake.h1Bytes_of_whole {b : List Byte} (whole : wholeOf x.h1Total x.h1 = some b) : x.h1Bytes = b := by
  rw [Handshake.h1Bytes, whole, Option.getD_some]

/-! ### The answers (R411) -/

section
variable (m : MgmtPath) (session seq : W16)

theorem State.openH1_first (few : s.sessions.length < 16)
    (new : s.handshakes.find? (fun y => y.path == .tsusen && y.mgmt == m && y.h1Total == f.total.toNat
      && y.h1.contains (fragPart f)) = none) :
    let n := s.freeHandshake .tsusen 0x8000
    s.openH1 m 0 seq f = State.answerOpen m seq n (s.h1Fragment (Handshake.begin .tsusen m n f.total.toNat) f) := by
  simp only [State.openH1, if_true, new, if_neg (Nat.not_le.2 few)]

theorem State.openH1_busy (many : 16 ≤ s.sessions.length)
    (new : s.handshakes.find? (fun y => y.path == .tsusen && y.mgmt == m && y.h1Total == f.total.toNat
      && y.h1.contains (fragPart f)) = none) :
    s.openH1 m 0 seq f = s.sayOn m 0 seq { type := 0x81, status := 11, payload := [] } := by
  simp only [State.openH1, if_true, new, if_pos many]
  rfl

theorem State.openH1_repeated
    (known : s.handshakes.find? (fun y => y.path == .tsusen && y.mgmt == m && y.h1Total == f.total.toNat
      && y.h1.contains (fragPart f)) = some x) :
    s.openH1 m 0 seq f = s.sayOn m (x.id.setWidth 16) seq { type := 0x81, status := 0, payload := [] } := by
  simp only [State.openH1, if_true, known]
  rfl

theorem State.openH1_next (named : session ≠ 0) (found : s.handshake .tsusen (session.setWidth 32) = some x) :
    s.openH1 m session seq f = State.answerOpen m seq x.id (s.h1Fragment x f) := by
  simp only [State.openH1, if_neg named, found]

end

section
variable {h : HostHdr}

theorem State.assocH1_first (unnamed : h.assoc = 0) (few : s.assocs.length < 16)
    (new : s.handshakes.find? (fun y => y.path == .host && y.h1Total == f.total.toNat && y.h1.contains (fragPart f)) = none) :
    let n := s.freeHandshake .host 0x80000000
    s.assocH1 h f = State.answerAssoc h n (s.h1Fragment (Handshake.begin .host .inband n f.total.toNat) f) := by
  simp only [State.assocH1, if_pos unnamed, new, if_neg (Nat.not_le.2 few)]

theorem State.assocH1_busy (unnamed : h.assoc = 0) (many : 16 ≤ s.assocs.length)
    (new : s.handshakes.find? (fun y => y.path == .host && y.h1Total == f.total.toNat && y.h1.contains (fragPart f)) = none) :
    s.assocH1 h f = s.send (.host 0x81 h 3 []) := by
  simp only [State.assocH1, if_pos unnamed, new, if_pos many]
  rfl

theorem State.assocH1_repeated (unnamed : h.assoc = 0)
    (known : s.handshakes.find? (fun y => y.path == .host && y.h1Total == f.total.toNat && y.h1.contains (fragPart f))
      = some x) :
    s.assocH1 h f = s.send (.host 0x81 { h with assoc := x.id } 0 []) := by
  simp only [State.assocH1, if_pos unnamed, known]
  rfl

theorem State.assocH1_next (named : h.assoc ≠ 0) (found : s.handshake .host h.assoc = some x) :
    s.assocH1 h f = State.answerAssoc h x.id (s.h1Fragment x f) := by
  simp only [State.assocH1, if_neg named, found]

/-- An `ASSOC` of the length of its fragment is served. -/
theorem State.assocRequest_h1 (hosting : s.hosting = true) (length : h.length.toNat = 4 + f.bytes.length) :
    s.assocRequest h (.h1 f) = s.assocH1 h f := by
  have fits : ¬ h.length.toNat ≠ partLength (.h1 f) := by simp [length, partLength]
  simp only [State.assocRequest, hosting, Bool.not_true, Bool.false_eq_true, if_false, if_neg fits]

end

theorem State.Hears.openRequest {m : MgmtPath} (t : s.Hears m) (running : s.mode ≠ 3) (session seq : W16) (f : Fragment) :
    s.takeMessage m (.openPart m session seq (.h1 f)) = s.openH1 m session seq f :=
  (t.takeMessage _).trans (if_neg running)

theorem State.frameH1_eq {path : HsPath} {n : W16} (up : s.pathUp path = true)
    (here : (s.handshake path (n.setWidth 32)).getD (Handshake.begin path .inband (n.setWidth 32) f.total.toNat) = x) :
    s.frameH1 path n f = if x.signed then s.sendH2 x else (s.h1Fragment x f).1 := by
  simp only [State.frameH1, up, Bool.not_true, Bool.false_eq_true, if_false, here]

/-- Settles O43: path by path, the handshake that a fragment goes to; then, for any handshake, what the fragment comes to. -/
theorem handshakesOpen : Obligations.HandshakesOpen := by
  unfold Obligations.HandshakesOpen
  intro s h f x seq session n16 m path total fresh freshHost open' join repeated repeatedHost
  have answers (n : W32) (y : Handshake) : State.answerOpen m seq n (s.h1Fragment y f) = open' n y := by
    simp only [State.answerOpen, open']
    cases (s.h1Fragment y f).2 <;> rfl
  have joins (n : W32) (y : Handshake) : State.answerAssoc h n (s.h1Fragment y f) = join n y := by
    simp only [State.answerAssoc, join]
    cases (s.h1Fragment y f).2 <;> rfl
  refine ⟨fun hears running => ⟨fun new few => ?_, fun new many => ?_, fun known => ?_, fun named found => ?_⟩,
    fun hosting length => ⟨fun unnamed new few => ?_, fun unnamed new many => ?_, fun unnamed known => ?_,
      fun named found => ?_⟩,
    fun up => ⟨fun new => ?_, fun known unsigned => ?_, fun known signed => ?_⟩, ?_⟩
  · exact next_congr ((hears.openRequest running ..).trans ((State.openH1_first m seq few new).trans (answers ..)))
  · exact next_congr ((hears.openRequest running ..).trans (State.openH1_busy m seq many new))
  · exact next_congr ((hears.openRequest running ..).trans (State.openH1_repeated m seq known))
  · exact next_congr ((hears.openRequest running ..).trans ((State.openH1_next m session seq named found).trans (answers ..)))
  · exact next_congr ((State.assocRequest_h1 hosting length).trans ((State.assocH1_first unnamed few new).trans (joins ..)))
  · exact next_congr ((State.assocRequest_h1 hosting length).trans (State.assocH1_busy unnamed many new))
  · exact next_congr ((State.assocRequest_h1 hosting length).trans (State.assocH1_repeated unnamed known))
  · exact next_congr ((State.assocRequest_h1 hosting length).trans ((State.assocH1_next named found).trans (joins ..)))
  · exact next_congr (State.frameH1_eq up (by rw [new, Option.getD_none]))
  · exact next_congr ((State.frameH1_eq up (by rw [known]; rfl)).trans (if_neg (by simp [unsigned])))
  · exact next_congr ((State.frameH1_eq up (by rw [known]; rfl)).trans (if_pos signed))
  · intro g u nonce refused
    refine ⟨State.h1Fragment_queued, State.h1Fragment_unfit, fun unqueued fits => ⟨State.h1Fragment_part unqueued fits,
      fun b whole => ⟨fun bad => ?_, fun accepted role => ?_, fun accepted served full => ?_, fun accepted served room => ?_⟩⟩⟩
    · exact State.h1Fragment_whole unqueued fits whole (State.takeH1_gone bad)
    · exact State.h1Fragment_whole unqueued fits whole (State.takeH1_role accepted role)
    · have queue : 9 ≤ u.signQ.length := by rwa [State.putHandshake_signQ]
      exact State.h1Fragment_whole unqueued fits whole (State.takeH1_busy accepted served queue)
    · have queue : u.signQ.length < 9 := by rwa [State.putHandshake_signQ]
      have taken := State.h1Fragment_whole unqueued fits whole (State.takeH1_taken accepted served queue)
      have bytes : g.h1Bytes = b := Handshake.h1Bytes_of_whole whole
      have made : u.h2Made g = { g with queued := true, fresh := s.free + 1, lo := fieldAt b 32 1, hi := fieldAt b 33 1
                                        h2 := toBytes 32 nonce.toNat ++ padTo 1568 (Config.kemFresh (s.free + 1))
                                                ++ s.part.cert } := by
        simp only [State.h2Made, bytes, u, State.putHandshake_free, State.putHandshake_part]
        rfl
      refine taken.trans ((if_neg (by simp)).trans ?_)
      show ({ u.putHandshake (u.h2Made g) with signQ := u.signQ ++ [(g.path, g.id)], free := u.free + 2 }, HsStep.taken) = _
      simp only [made, u, State.putHandshake_free, State.putHandshake_signQ]

end Sys2Proof.Machine
end

section
/-! ### The second half of a handshake (R409 to R411) -/

namespace Sys2Proof.Machine

variable {s : State} {x : Handshake}

section
variable {m : MgmtPath} {session : W16} (seq : W16) (off : W32)
variable (found : s.handshake .tsusen (session.setWidth 32) = some x)
include found

theorem State.Hears.readH2_signed (t : s.Hears m) (running : s.mode ≠ 3) (signed : x.signed = true) :
    s.takeMessage m (.openPart m session seq (.readH2 off))
      = s.sayOn m (x.id.setWidth 16) seq
          { type := 0x81, offset := off.toNat, status := 0, payload := toBytes 4 x.h2.length ++ x.h2Piece off.toNat } := by
  refine (t.takeMessage _).trans ((if_neg running).trans ?_)
  simp only [found, signed, Bool.not_true, Bool.false_eq_true, if_false]
  rfl

theorem State.Hears.readH2_unsigned (t : s.Hears m) (running : s.mode ≠ 3) (unsigned : x.signed = false) :
    s.takeMessage m (.openPart m session seq (.readH2 off))
      = s.sayOn m (x.id.setWidth 16) seq { type := 0x81, status := 11, payload := [] } := by
  refine (t.takeMessage _).trans ((if_neg running).trans ?_)
  simp only [found, unsigned, Bool.not_false, if_true]
  rfl

end

section
variable {h : HostHdr} (off : W32) (hosting : s.hosting = true) (empty : h.length = 0)
variable (found : s.handshake .host h.assoc = some x)
include hosting empty found

theorem State.assocRequest_readH2 :
    s.assocRequest h (.readH2 off)
      = if !x.signed then s.sayHost 1 h hostBusy [] else s.sayHost 1 h hostOk (toBytes 4 x.h2.length ++ x.h2Piece off.toNat) := by
  have length : ¬ h.length.toNat ≠ partLength (.readH2 off) := by simp [empty, partLength]
  simp only [State.assocRequest, hosting, Bool.not_true, Bool.false_eq_true, if_false, if_neg length, found]

end

theorem State.frameH2_sent {path : HsPath} {n : W16} (off : Nat) (found : s.handshake path (n.setWidth 32) = some x) :
    s.frameH2 path n off
      = if x.signed ∧ s.pathUp path then s.send (.hs path 2 x.id x.h2.length off ((x.h2.drop off).take 1480)) else s := by
  simp only [State.frameH2, found]

/-- The handshake once the identity key has signed its H2 (R410). -/
def State.withSignature (s : State) (x : Handshake) : Handshake :=
  { x with h2 := x.h2 ++ s.identitySign (toBytes 32 (Config.sha256 (x.h1Bytes ++ x.h2)).toNat), signed := true }

section
variable {path : HsPath} {n : W32} {rest : List (HsPath × W32)}
variable (first : s.signQ = (path, n) :: rest) (found : s.handshake path n = some x)
include first found

/-- H2 leaves unasked only where no request reads it. -/
theorem State.signNext_requested (requested : path = .tsusen ∨ path = .host) :
    s.signNext = ({ s with signQ := rest } : State).putHandshake (s.withSignature x) := by
  have still : ({ s with signQ := rest } : State).handshake path n = some x := found
  simp only [State.signNext, first, still]
  rcases requested with rfl | rfl <;> rfl

theorem State.signNext_unasked (unasked : path ≠ .tsusen ∧ path ≠ .host) :
    s.signNext = (({ s with signQ := rest } : State).putHandshake (s.withSignature x)).sendH2 (s.withSignature x) := by
  have still : ({ s with signQ := rest } : State).handshake path n = some x := found
  simp only [State.signNext, first, still]
  cases path with
  | tsusen => exact absurd rfl unasked.1
  | host => exact absurd rfl unasked.2
  | port | fabric => rfl

end

/-- Settles O44: the read of H2 on each path, the signature of the first that waits, and the drop of an idle handshake. -/
theorem handshakesProceed : Obligations.HandshakesProceed := by
  unfold Obligations.HandshakesProceed
  intro s h x seq session n16 off m path hid rest piece
  refine ⟨fun hears running found => ⟨fun signed => ?_, fun unsigned => ?_⟩,
    fun hosting empty found => ⟨fun signed => ?_, fun unsigned => ?_⟩,
    fun found => ⟨fun signed up => ?_, fun silent => ?_⟩,
    fun first found => ⟨fun requested => ?_, fun notTsusen notHost => ?_⟩, fun none => ?_, rfl⟩
  · exact next_congr (hears.readH2_signed seq off found running signed)
  · exact next_congr (hears.readH2_unsigned seq off found running unsigned)
  · exact next_congr ((State.assocRequest_readH2 off hosting empty found).trans (if_neg (by simp [signed])))
  · exact next_congr ((State.assocRequest_readH2 off hosting empty found).trans (if_pos (by simp [unsigned])))
  · exact next_congr ((State.frameH2_sent off.toNat found).trans (if_pos ⟨signed, up⟩))
  · have unsent : ¬ (x.signed = true ∧ s.pathUp path = true) := by
      rcases silent with unsigned | down
      · simp [unsigned]
      · simp [down]
    exact next_congr ((State.frameH2_sent off.toNat found).trans (if_neg unsent))
  · exact next_congr (State.signNext_requested first found requested)
  · exact next_congr (State.signNext_unasked first found ⟨notTsusen, notHost⟩)
  · exact next_congr (by rw [State.signNext, none])

end Sys2Proof.Machine
end

section
/-! ### Packages that arrive (R352 to R358, R364) -/

namespace Sys2Proof.Machine

variable {s : State} {h : HostHdr} {a : Association} {n : Nat}

/-! ### Assemblies -/

theorem State.putAssembly_ctx (s : State) (n m : Nat) (y : Assembly) :
    (s.putAssembly n y).ctx m
      = if n = m then { s.ctx n with asm := (s.ctx n).asm.filter (fun z => z.ordinal != y.ordinal) ++ [y] } else s.ctx m := by
  simp only [State.putAssembly, State.dropAssembly, State.ctx_onCtx]
  split <;> simp

/-- One part that holds every byte is the whole. -/
theorem wholeOf_single {bs : List Byte} (some' : bs.length ≠ 0) : wholeOf bs.length [(0, bs)] = some bs := by
  have gathered : gather [(0, bs)] 1 0 = bs := by simp [gather, Nat.pos_of_ne_zero some']
  simp [wholeOf, gathered]

/-! ### Posting (R355, R358) -/

/-- The state once a whole package is posted and its last segment answered. -/
def State.posted (s : State) (n k : Nat) (h : HostHdr) (x : Pkg) (ds : List Decl) : State :=
  (((s.dropAssembly n k).onCtx n (fun c =>
    { c with decls := ds, queue := c.queue ++ [x], nextPost := c.nextPost + 1 })).bump (0x6200 + polderOf n) 1 1).sayHost
    5 h hostOk []

section
variable (s) (n k : Nat) (h : HostHdr) (x : Pkg) (ds : List Decl)

theorem State.posted_ctx (m : Nat) :
    (s.posted n k h x ds).ctx m
      = if n = m then { s.ctx n with
          asm := (s.ctx n).asm.filter (fun z => z.ordinal != k), decls := ds, queue := (s.ctx n).queue ++ [x]
          nextPost := (s.ctx n).nextPost + 1 } else s.ctx m := by
  have same : (s.posted n k h x ds).ctx m
      = ((s.dropAssembly n k).onCtx n (fun c =>
          { c with decls := ds, queue := c.queue ++ [x], nextPost := c.nextPost + 1 })).ctx m :=
    State.ctx_congr (by simp only [State.posted, State.sayHost, State.send_ctxs, State.bump_ctxs]) m
  rw [same]
  simp only [State.dropAssembly, State.ctx_onCtx]
  split <;> simp

theorem State.send_tx (y : Tx) : (s.send y).tx = s.tx ++ [y] := by
  unfold State.send
  split
  · split <;> simp
  · rfl

theorem State.posted_rest :
    (s.posted n k h x ds).mem = s.mem ∧ (s.posted n k h x ds).cores = s.cores
      ∧ (s.posted n k h x ds).readyCount = s.readyCount ∧ (s.posted n k h x ds).tx = s.tx ++ [.host 0x85 h 0 []] := by
  simp [State.posted, State.sayHost, State.dropAssembly, State.send_tx, hostOk]

end

section
variable {k : Nat} {x : Pkg} {ds : List Decl} {bs : List Byte}

theorem State.postNext_posts
    (waits : (s.ctx n).asm = [{ ordinal := k, parts := [(0, bs)], ready := some x, replies := [h] }])
    (turn : (s.ctx n).nextPost = k) (table : declTable (s.ctx n).decls x bs = some ds) :
    s.postNext n = s.posted n k h x ds := by
  have first : (s.ctx n).assembly (s.ctx n).nextPost
      = some { ordinal := k, parts := [(0, bs)], ready := some x, replies := [h] } := by
    simp [Ctx.assembly, waits, turn]
  simp only [State.postNext, first, List.headD_cons, table]
  rfl

theorem State.postNext_none (none' : (s.ctx n).asm = []) : s.postNext n = s := by
  simp only [State.postNext, Ctx.assembly, none', List.find?_nil]

/-- The context that a package was posted to, once it counts as ready (R324). -/
def State.madeReady (s : State) (n : Nat) (old : Ctx) : State :=
  if old.state = 1 then (s.onCtx n (fun c => { c with state := 2 })).stampReady n
  else if old.state = 5 ∧ !old.waits then s.stampReady n
  else s

theorem State.postReady_one
    (waits : (s.ctx n).asm = [{ ordinal := k, parts := [(0, bs)], ready := some x, replies := [h] }])
    (turn : (s.ctx n).nextPost = k) (table : declTable (s.ctx n).decls x bs = some ds) :
    s.postReady n = ((s.posted n k h x ds).madeReady n (s.ctx n)).schedule (polderOf n) := by
  have empty : ((s.posted n k h x ds).ctx n).asm = [] := by simp [State.posted_ctx, waits]
  have folded : (List.range 4).foldl (fun s _ => s.postNext n) s = s.posted n k h x ds := by
    simp only [show List.range 4 = [0, 1, 2, 3] from rfl, List.foldl_cons, List.foldl_nil,
      State.postNext_posts waits turn table, State.postNext_none empty]
  have longer : ¬ ((s.posted n k h x ds).ctx n).queue.length = (s.ctx n).queue.length := by simp [State.posted_ctx]
  simp only [State.postReady, folded, if_neg longer]
  rfl

end

section
variable (s) (n : Nat) (old : Ctx)

theorem State.madeReady_ctx (m : Nat) :
    (s.madeReady n old).ctx m = if n = m then { s.ctx n with
      state := if old.state = 1 then 2 else (s.ctx n).state
      readyAt := if old.state = 1 ∨ (old.state = 5 ∧ old.waits = false) then s.readyCount else (s.ctx n).readyAt }
    else s.ctx m := by
  have stamped (u : State) : (u.stampReady n).ctx m = (u.onCtx n (fun c => { c with readyAt := u.readyCount })).ctx m := rfl
  unfold State.madeReady
  by_cases idle : old.state = 1
  · have late : old.state = 1 ∨ (old.state = 5 ∧ old.waits = false) := .inl idle
    simp only [if_pos idle, if_pos late, stamped, State.ctx_onCtx, if_true, State.onCtx_readyCount]
    split <;> rfl
  · by_cases saved : old.state = 5 ∧ (!old.waits) = true
    · have late : old.state = 1 ∨ (old.state = 5 ∧ old.waits = false) := .inr (by simpa using saved)
      simp only [if_neg idle, if_pos saved, if_pos late, stamped, State.ctx_onCtx]
    · have held : ¬ (old.state = 1 ∨ (old.state = 5 ∧ old.waits = false)) := by simpa [idle] using saved
      simp only [if_neg idle, if_neg saved, if_neg held]
      split
      · next e => rw [e]
      · rfl

theorem State.madeReady_rest :
    (s.madeReady n old).mem = s.mem ∧ (s.madeReady n old).cores = s.cores ∧ (s.madeReady n old).tx = s.tx := by
  unfold State.madeReady
  split
  · exact ⟨rfl, rfl, rfl⟩
  · split <;> exact ⟨rfl, rfl, rfl⟩

end

/-! ### A package of one segment (R355) -/

section
variable {x : Pkg} {bs : List Byte}

/-- A package that is not sealed and whose end-to-end CRC holds is ready as it is. -/
theorem State.checkPkg_plain (plain : x.sealed = false) (sound : x.e2e = true → crc64 (bs.drop 128) = x.crc) :
    s.checkPkg n x bs = (s, .ok (x, bs)) := by
  have good : ¬ ((x.e2e = true) ∧ crc64 (bs.drop 128) ≠ x.crc) := fun ⟨e, ne⟩ => ne (sound e)
  simp only [State.checkPkg, plain, Bool.false_eq_true, if_false, if_neg good]

/-- The state once the bytes of a package are written and its assembly is whole. -/
def State.assembled (s : State) (h : HostHdr) (n k : Nat) (x : Pkg) (bs : List Byte) : State :=
  (((s.writeView (ioFor (polderOf n)) x.dest bs).putAssembly n
    { ordinal := k, parts := [(0, bs)], ready := none, replies := [] }).putAssembly n
    { ordinal := k, parts := [(0, bs)], ready := some x, replies := [h] })

theorem State.assembled_ctx (k m : Nat) (noAssembly : (s.ctx n).asm = []) :
    (s.assembled h n k x bs).ctx m = if n = m then
      { s.ctx n with asm := [{ ordinal := k, parts := [(0, bs)], ready := some x, replies := [h] }] } else s.ctx m := by
  have same (j : Nat) : (s.writeView (ioFor (polderOf n)) x.dest bs).ctx j = s.ctx j := State.ctx_congr (State.writeView_ctxs ..) j
  simp only [State.assembled, State.putAssembly_ctx, if_true, same, noAssembly]
  split <;> simp

theorem State.assembled_rest (h : HostHdr) (n k : Nat) (x : Pkg) (bs : List Byte) :
    (s.assembled h n k x bs).mem = (s.writeView (ioFor (polderOf n)) x.dest bs).mem
      ∧ (s.assembled h n k x bs).cores = s.cores ∧ (s.assembled h n k x bs).readyCount = s.readyCount
      ∧ (s.assembled h n k x bs).tx = s.tx := by
  obtain ⟨mem, check, memErr, dict, arrived, free, eq⟩ :=
    (State.Accessed.refl s).writeView (ioFor (polderOf n)) x.dest bs
  unfold State.assembled
  rw [eq]
  exact ⟨rfl, rfl, rfl, rfl⟩

theorem State.takeSegment_whole {k : Nat} (first : h.offset = 0) (noAssembly : (s.ctx n).asm = [])
    (room : (s.ctx n).queue.length < 64) (valid : s.pkgValid n k (pkgOf bs) = true) (length : (pkgOf bs).length = bs.length)
    (nonempty : bs.length ≠ 0) (open' : s.touchesGuarded (polderOf n) (pkgOf bs).dest (pkgOf bs).length = false)
    (plain : (pkgOf bs).sealed = false) (sound : (pkgOf bs).e2e = true → crc64 (bs.drop 128) = (pkgOf bs).crc) :
    s.takeSegment h n k bs = (s.assembled h n k (pkgOf bs) bs).postReady n := by
  have off : h.offset.toNat = 0 := by rw [first]; rfl
  have old : ((s.ctx n).assembly k).map Assembly.parts = none := by simp [Ctx.assembly, noAssembly]
  have described : descOf [(0, bs)] = some (pkgOf bs) := rfl
  have landed : s.land (polderOf n) (pkgOf bs) [(0, bs)] = s.writeView (ioFor (polderOf n)) (pkgOf bs).dest bs := by
    simp [State.land, length]
  have few (u : State) (same : u.ctxs = s.ctxs) :
      ¬ 64 ≤ ((u.putAssembly n { ordinal := k, parts := [(0, bs)], ready := none, replies := [] }).ctx n).wholePkgs := by
    simp [State.putAssembly_ctx, State.ctx_congr same, Ctx.wholePkgs, noAssembly, room]
  have complete : wholeOf (pkgOf bs).length [(0, bs)] = some bs := by rw [length, wholeOf_single nonempty]
  rw [length] at open'
  simp only [State.takeSegment, off, old, Option.getD_none, List.filter_nil, List.nil_append, described, valid,
    Bool.not_true, Bool.false_eq_true, and_false, if_false, Nat.zero_add, length, Nat.lt_irrefl, ne_eq, not_true_eq_false,
    or_self, open', plain, if_true, landed, wholeOf_single nonempty, if_neg (few _ (State.writeView_ctxs ..)),
    State.completeAssembly, State.checkPkg_plain plain sound]
  rfl

end

/-! ### SUBMIT (R352, R355, R364) -/

section
variable {bs got : List Byte} (v : s.Serves h a n bs.length) (names : h.context.toNat = n) (opened : (s.ctx n).state ≠ 0)
  (formed : ¬ (bs.length = 0 ∨ h.offset.toNat % 256 ≠ 0 ∨ ((!h.flags.getLsbD 0) = true ∧ bs.length % 256 ≠ 0)))
include v names opened formed

theorem State.Serves.submit_behind (behind : h.item.toNat < (s.ctx n).nextPost) :
    s.submit h bs got = s.sayHost 5 h hostOk [] := by
  simp only [State.submit, v.onAssoc, names, v.onContext, if_neg opened, if_neg formed, if_pos behind]

theorem State.Serves.submit_ahead (ahead : (s.ctx n).nextPost + 4 ≤ h.item.toNat) :
    s.submit h bs got = s.sayHost 5 h hostBusy [] := by
  have due : ¬ h.item.toNat < (s.ctx n).nextPost := by omega
  simp only [State.submit, v.onAssoc, names, v.onContext, if_neg opened, if_neg formed, if_neg due, if_pos ahead]

section
variable (due : (s.ctx n).nextPost ≤ h.item.toNat) (near : h.item.toNat < (s.ctx n).nextPost + 4)
include due near

theorem State.Serves.submit_damaged (damaged : segmentsOk bs got = false) :
    s.submit h bs got = ((s.event 0x6010 0 1).bump (0x6200 + polderOf n) 3 1).sayHost 5 h hostRetransmit [] := by
  simp only [State.submit, v.onAssoc, names, v.onContext, if_neg opened, if_neg formed, if_neg (Nat.not_lt.2 due),
    if_neg (Nat.not_le.2 near), damaged, Bool.not_false, if_true]

/-- A segment of a package that has no assembly yet is taken. -/
theorem State.Serves.submit_sound (sound : segmentsOk bs got = true) (noAssembly : (s.ctx n).asm = []) :
    s.submit h bs got = s.takeSegment h n h.item.toNat got := by
  simp only [State.submit, v.onAssoc, names, v.onContext, if_neg opened, if_neg formed, if_neg (Nat.not_lt.2 due),
    if_neg (Nat.not_le.2 near), sound, Bool.not_true, Bool.false_eq_true, if_false, Ctx.assembly, noAssembly, List.find?_nil]

end
end

theorem State.assemblyExpiry_discards {k : Nat} {o : Assembly} (found : (s.ctx n).assembly k = some o)
    (part : o.ready = none) :
    s.assemblyExpiry n k = ((s.dropAssembly n k).bump (0x6200 + polderOf n) 2 1).event 0x6010 4 1 := by
  simp only [State.assemblyExpiry, found, part, Option.isSome_none, Bool.false_eq_true, if_false]

/-- Settles O47: the package of one segment that is due, the ones refused without effect, and the incomplete assembly. -/
theorem packagesArrive : Obligations.PackagesArrive := by
  unfold Obligations.PackagesArrive
  intro s h a ctx bs got o ds n c p x stamped
  refine ⟨fun v names opened nonempty aligned padded => ?_, fun found part => next_congr (State.assemblyExpiry_discards found part)⟩
  have formed : ¬ (bs.length = 0 ∨ h.offset.toNat % 256 ≠ 0 ∨ ((!h.flags.getLsbD 0) = true ∧ bs.length % 256 ≠ 0)) := by
    rcases padded with last | whole
    · simp [nonempty, aligned, last]
    · simp [nonempty, aligned, whole]
  refine ⟨fun first due noAssembly room sound valid length open' plain crc table => ?_,
    fun behind => next_congr (v.submit_behind names opened formed behind),
    fun ahead => next_congr (v.submit_ahead names opened formed ahead),
    fun due near damaged => next_congr (v.submit_damaged names opened formed due near damaged)⟩
  let w := s.assembled h n c.nextPost x bs
  have wctx (m : Nat) : w.ctx m = if n = m then
      { c with asm := [{ ordinal := c.nextPost, parts := [(0, bs)], ready := some x, replies := [h] }] } else s.ctx m :=
    State.assembled_ctx c.nextPost m noAssembly
  have same : w.ctx n = { c with
      asm := [{ ordinal := c.nextPost, parts := [(0, bs)], ready := some x, replies := [h] }] } := (wctx n).trans (if_pos rfl)
  obtain ⟨wmem, wcores, wready, wtx⟩ : w.mem = _ ∧ w.cores = _ ∧ w.readyCount = _ ∧ w.tx = _ := State.assembled_rest ..
  obtain ⟨pmem, pcores, pready, ptx⟩ := w.posted_rest n c.nextPost h x ds
  obtain ⟨mem, cores, tx⟩ := (w.posted n c.nextPost h x ds).madeReady_rest n (w.ctx n)
  have taken : s.submit h bs bs = w.postReady n := by
    rw [v.submit_sound names opened formed due.ge (due.symm ▸ Nat.lt_add_of_pos_right (by decide)) sound noAssembly, due]
    exact State.takeSegment_whole first noAssembly room valid length nonempty open' plain crc
  have posts : w.postReady n = ((w.posted n c.nextPost h x ds).madeReady n (w.ctx n)).schedule p :=
    State.postReady_one (by rw [same]) (by rw [same]) (by rw [same]; exact table)
  refine ⟨(w.posted n c.nextPost h x ds).madeReady n (w.ctx n), next_congr (taken.trans posts), ?_, fun m ne => ?_, ?_, ?_, ?_⟩
  · rw [State.madeReady_ctx, if_pos rfl, State.posted_ctx, if_pos rfl, pready, wready, same]
    have emptied : [({ ordinal := c.nextPost, parts := [(0, bs)], ready := some x, replies := [h] } : Assembly)].filter
        (fun z => z.ordinal != c.nextPost) = c.asm := by rw [noAssembly]; simp
    simp only [emptied]
    rfl
  · rw [State.madeReady_ctx, if_neg (Ne.symm ne), State.posted_ctx, if_neg (Ne.symm ne), wctx, if_neg (Ne.symm ne)]
  · rw [mem, pmem, wmem]
  · rw [cores, pcores, wcores]
  · rw [tx, ptx, wtx]

end Sys2Proof.Machine
end

section
/-! ### Wake-ups of cores, and the starts and sleep of sites (R424 to R427) -/

namespace Sys2Proof.Machine

variable {s : State} {n : Nat}

/-- A fold whose every step leaves its start as it is. -/
theorem foldl_fixed_of_mem {α β : Type} {f : β → α → β} {b : β} (l : List α) (step : ∀ a ∈ l, f b a = b) :
    l.foldl f b = b := by
  induction l with
  | nil => rfl
  | cons a l ih =>
    rw [List.foldl_cons, step a List.mem_cons_self, ih fun c m => step c (List.mem_cons_of_mem a m)]

theorem State.afterWake_unsaved (unsaved : (s.ctx n).state ≠ 5) : s.afterWake n = s := by
  simp [State.afterWake, unsaved]

/-- A core in RUN where a chosen context waits for it, counting its cycles, and in IDLE otherwise. -/
def State.woken (s : State) (n : Nat) : State :=
  let v := s.setCore n { s.core n with power := if s.wanted n then 0 else 1, waking := false }
  if s.wanted n then v.mark (coreIndex n 4) 1 else v

/-- Where no context is SAVED, none begins its restore. -/
theorem State.reachRun_unsaved (rises : rising s.ctxs = true) (unsaved : ∀ c ∈ s.ctxs, c.2.state ≠ 5) :
    s.reachRun n = s.woken n := by
  have marked : (let v := s.setCore n { s.core n with power := if s.wanted n then 0 else 1, waking := false }
      if (v.core n).power = 0 then v.mark (coreIndex n 4) 1 else v) = s.woken n := by
    simp only [State.woken, State.core_setCore_self]
    cases s.wanted n <;> rfl
  have ctxs : (s.woken n).ctxs = s.ctxs := by
    unfold State.woken
    split <;> rfl
  refine (congrArg (fun u : State => (u.ctxs.filter (fun x => x.2.granted && x.2.cores.contains n)).foldl
    (fun s x => s.afterWake x.1) u) marked).trans ?_
  refine foldl_fixed_of_mem _ fun x m => State.afterWake_unsaved ?_
  have listed : x ∈ s.ctxs := ctxs ▸ (List.mem_filter.1 m).1
  rw [State.ctx_congr ctxs, State.ctx_of_mem rises listed]
  exact unsaved x listed

theorem State.wakeWindow_single (one : s.wakeQ = [n]) (none' : s.wakeHeld = []) :
    s.wakeWindow = ({ s with wakeQ := [] } : State).admitCore n := by
  have emptied : ({ s with wakeQ := [], wakeHeld := [] } : State) = { s with wakeQ := [] } :=
    congrArg (fun l => ({ s with wakeQ := [], wakeHeld := l } : State)) none'.symm
  simp only [State.wakeWindow, one, none', List.take_nil, List.drop_nil, List.drop_succ_cons, List.take_succ_cons,
    List.append_nil, emptied, List.foldl_cons, List.foldl_nil]

theorem State.admitCore_idle (idle : (s.core n).power = 1) : s.admitCore n = (s.bump 0x2000 0xB 1).reachRun n := by
  have still : ((s.bump 0x2000 0xB 1).core n).power = 1 := by simpa only [State.core, State.bump_cores] using idle
  simp only [State.admitCore, still]

theorem State.admitCore_nap (napping : (s.core n).power = 2) :
    s.admitCore n = (s.bump 0x2000 0xB 1).setCore n { s.core n with waking := true } := by
  have same : (s.bump 0x2000 0xB 1).core n = s.core n := by simp only [State.core, State.bump_cores]
  simp only [State.admitCore, State.onCore, same, napping]

theorem State.siteSettled_single {y step : Nat} (starting : s.entry (siteIndex y) 5 = 1) (core : s.coresOf (2 ^ y) = [n])
    (queue : s.wakeQ = []) (none' : s.wakeHeld = []) (highest : max (s.entry 0x2000 5) (s.entry (siteIndex y) 2) = step) :
    s.siteSettled y = { (((if step = 0 then s else s.mark (siteIndex y) 6).setEntry (siteIndex y) 5 0).setEntry (siteIndex y) 1
      step).setCore n { s.core n with power := 1 } with wakeQ := [n] } := by
  let u := ((if step = 0 then s else s.mark (siteIndex y) 6).setEntry (siteIndex y) 5 0).setEntry (siteIndex y) 1 step
  obtain ⟨cores, same, waits, held⟩ :
      u.coresOf (2 ^ y) = [n] ∧ u.core n = s.core n ∧ u.wakeQ = [] ∧ u.wakeHeld = [] := by
    unfold u
    split <;> exact ⟨core, rfl, queue, none'⟩
  have settled : s.siteSettled y
      = (u.coresOf (2 ^ y)).foldl (fun s n => (s.onCore n (fun k => { k with power := 1 })).queueWake n) u := by
    simp only [State.siteSettled, starting, ne_eq, not_true_eq_false, if_false, highest]
    rfl
  have asks : (u.setCore n { s.core n with power := 1 }).queueWake n
      = { u.setCore n { s.core n with power := 1 } with wakeQ := [n] } := by
    simp [State.queueWake, waits, held]
  rw [settled, cores, List.foldl_cons, List.foldl_nil, State.onCore, same, asks]

theorem State.sleepEntry_unused {y : Nat} (on : s.siteOn y = true)
    (napping : ∀ c ∈ s.coresOf (2 ^ y), (s.core c).power = 2 ∧ (s.core c).waking = false)
    (unused : ∀ c ∈ s.ctxs, c.2.state = 0 ∨ c.2.sites.getLsbD y = false) :
    s.sleepEntry y = (s.coresOf (2 ^ y)).foldl (fun s n => s.onCore n (fun k => { k with power := 3 }))
      (s.setEntry (siteIndex y) 5 2) := by
  have here : s.ctxs.filter (fun x => x.2.state != 0 && x.2.sites.getLsbD y) = [] := by
    refine List.filter_eq_nil_iff.2 fun c m => ?_
    rcases unused c m with closed | elsewhere
    · simp [closed]
    · simp [elsewhere]
  have nap : (s.coresOf (2 ^ y)).all (fun n => (s.core n).power == 2 && !(s.core n).waking) = true :=
    List.all_eq_true.2 fun c m => by simp [napping c m]
  simp [State.sleepEntry, here, on, nap]

/-- Settles O53, clause by clause: the window, a wake-up from NAP, the start of a site, naps, sleep and the time limit. -/
theorem wakeUps : Obligations.WakeUps := by
  unfold Obligations.WakeUps
  intro s core site ctx x rest n k y waiting runs step stepped idle
  refine ⟨fun one none' idles rises unsaved => ?_, fun one none' naps => ?_, fun waking rises unsaved => ?_, fun queue => ?_,
    fun starting one queue none' => next_congr (State.siteSettled_single starting one queue none' rfl),
    fun idles enabled unqueued unheld => ?_, fun on naps unused => ?_, fun granted ready missing => ?_⟩
  · refine next_congr ((State.wakeWindow_single one none').trans ((State.admitCore_idle (s := { s with wakeQ := [] }) idles).trans ?_))
    have ctxs : (({ s with wakeQ := [] } : State).bump 0x2000 0xB 1).ctxs = s.ctxs := State.bump_ctxs ..
    have same : (({ s with wakeQ := [] } : State).bump 0x2000 0xB 1).core n = k := by
      simp only [State.core, State.bump_cores]
      rfl
    rw [State.reachRun_unsaved (ctxs ▸ rises) (ctxs ▸ unsaved)]
    simp only [State.woken, same, State.wanted, ctxs]
    rfl
  · exact next_congr ((State.wakeWindow_single one none').trans (State.admitCore_nap (s := { s with wakeQ := [] }) naps))
  · exact next_congr ((if_pos waking).trans (State.reachRun_unsaved rises unsaved))
  · exact next_congr (by rw [State.siteStart, queue])
  · have may : (s.core n).power = 1 ∧ s.coreEnabled n = true ∧ (!s.wakeQ.contains n) = true ∧ (!s.wakeHeld.contains n) = true :=
      ⟨idles, enabled, by simp [unqueued], by simp [unheld]⟩
    exact next_congr (if_pos may)
  · let u := s.setEntry (siteIndex y) 5 2
    let t := (s.coresOf (2 ^ y)).foldl (fun s n => s.onCore n (fun k => { k with power := 3 })) u
    have slept (m : Nat) : t.core m = if m ∈ s.coresOf (2 ^ y) then { u.core m with power := 3 } else u.core m :=
      State.core_foldl (f := fun _ k => { k with power := 3 }) (fun _ _ _ => rfl) (fun _ _ => rfl) _ u m
    exact ⟨t, next_congr (State.sleepEntry_unused on naps unused), fun c m => (slept c).trans (if_pos m),
      fun c m => (slept c).trans (if_neg m), State.foldl_onCore_rest (fun _ k => { k with power := 3 }) _ u⟩
  · have late : ((s.ctx ctx.toNat).granted && ((s.ctx ctx.toNat).state == 2 || (s.ctx ctx.toNat).state == 5)
        && !s.allRun (s.ctx ctx.toNat)) = true := by
      rcases ready with ready | saved
      · simp [granted, ready, missing]
      · simp [granted, saved, missing]
    exact next_congr (if_pos late)

end Sys2Proof.Machine
end

section
/-! ### What work leaves alone

The operations of contexts, of the cache home, of posts, of the scheduler and of polder masks change work: contexts,
cores, polders, memory and its errors, the dictionary, events, what is sent. They leave the rest of the state as it was:
counters, kept entries, trims, the supply, and the messages that wait for the store among it. -/

namespace Sys2Proof.Machine

variable {s t : State}

/-- The state apart from what work changes. -/
def State.apart (s : State) : State :=
  { s with
    cores := [], ctxs := [], polders := [], mem := [], check := [], memErr := [], fabricOps := [], fabricPkts := []
    engines := [], dict := [], domains := [], arrived := [], alertN := false, ports := [], sealKeys := [], attest := none
    wakeQ := [], wakeHeld := [], startQ := [], readyCount := 0, tx := [], free := 0 }

theorem State.apart_mgmtQ (e : t.apart = s.apart) : t.mgmtQ = s.mgmtQ := (congrArg State.mgmtQ e :)
theorem State.apart_counters (e : t.apart = s.apart) : t.counters = s.counters := (congrArg State.counters e :)
theorem State.apart_kept (e : t.apart = s.apart) : t.kept = s.kept := (congrArg State.kept e :)
theorem State.apart_supply (e : t.apart = s.apart) : t.supply = s.supply := (congrArg State.supply e :)
theorem State.apart_trims (e : t.apart = s.apart) : t.trims = s.trims := (congrArg State.trims e :)

/-- A fold whose steps keep what stands apart, of a value that holds a state. -/
theorem foldl_get_apart {α β : Type} (get : β → State) {f : β → α → β} (step : ∀ b a, (get (f b a)).apart = (get b).apart)
    (l : List α) (b : β) : (get (l.foldl f b)).apart = (get b).apart := by
  induction l generalizing b with
  | nil => rfl
  | cons a l ih => exact (ih (f b a)).trans (step b a)

theorem State.foldl_apart {α : Type} {f : State → α → State} (step : ∀ u a, (f u a).apart = u.apart) (l : List α)
    (s : State) : (l.foldl f s).apart = s.apart := foldl_get_apart id step l s

/-! ### Parts of the state -/

section
variable (s)

@[simp] theorem State.apart_setCore (n : Nat) (c : CoreState) : (s.setCore n c).apart = s.apart := rfl
@[simp] theorem State.apart_onCore (n : Nat) (f : CoreState → CoreState) : (s.onCore n f).apart = s.apart := rfl
@[simp] theorem State.apart_setCtx (n : Nat) (c : Ctx) : (s.setCtx n c).apart = s.apart := rfl
@[simp] theorem State.apart_onCtx (n : Nat) (f : Ctx → Ctx) : (s.onCtx n f).apart = s.apart := rfl
@[simp] theorem State.apart_onPolder (n : Nat) (f : Polder → Polder) : (s.onPolder n f).apart = s.apart := rfl
@[simp] theorem State.apart_usedFree : s.usedFree.apart = s.apart := rfl
@[simp] theorem State.apart_setEntry (i j v : Nat) : (s.setEntry i j v).apart = s.apart := rfl
@[simp] theorem State.apart_bumpW (w i j n : Nat) : (s.bumpW w i j n).apart = s.apart := rfl
@[simp] theorem State.apart_bump32 (i j : Nat) : (s.bump32 i j).apart = s.apart := rfl
@[simp] theorem State.apart_bump (i j n : Nat) : (s.bump i j n).apart = s.apart := by unfold State.bump; split <;> rfl
@[simp] theorem State.apart_event (i b n : Nat) : (s.event i b n).apart = s.apart := by unfold State.event; split <;> rfl
@[simp] theorem State.apart_burst (a : Nat) : (s.burst a).apart = s.apart := s.apart_bump ..

@[simp] theorem State.apart_send (x : Tx) : (s.send x).apart = s.apart := by
  obtain ⟨tx, dict, eq⟩ := s.send_frame x
  rw [eq]
  rfl

end

/-! ### Memory and the cache home -/

theorem State.Accessed.apart (h : s.Accessed t) : t.apart = s.apart := by
  obtain ⟨_, _, _, _, _, _, rfl⟩ := h
  rfl

section
variable (s)

@[simp] theorem State.apart_readWord (r : Requester) (cw : Nat) : (s.readWord r cw).state.apart = s.apart :=
  ((State.Accessed.refl s).readWord r cw).apart

@[simp] theorem State.apart_writeWord (r : Requester) (cw : Nat) (data : List Byte) :
    (s.writeWord r cw data).apart = s.apart := ((State.Accessed.refl s).writeWord r cw data).apart

@[simp] theorem State.apart_readView (r : Requester) (a : W64) (n : Nat) : (s.readView r a n).state.apart = s.apart :=
  ((State.Accessed.refl s).readView r a n).apart

@[simp] theorem State.apart_writeView (r : Requester) (a : W64) (bs : List Byte) : (s.writeView r a bs).apart = s.apart :=
  ((State.Accessed.refl s).writeView r a bs).apart

@[simp] theorem State.apart_setCacheCount (p j v : Nat) : (s.setCacheCount p j v).apart = s.apart := rfl

@[simp] theorem State.apart_setStackDepth (p d : Nat) : (s.setStackDepth p d).apart = s.apart := by
  unfold State.setStackDepth
  dsimp only
  split <;> simp

end

section
variable (h : Home)

@[simp] theorem Home.apart_fetch (a : W64) : (h.fetch a).state.apart = h.state.apart := by
  unfold Home.fetch
  split
  · dsimp only
    split
    · rfl
    · rw [State.apart_readWord]
      split <;> simp
  · rfl

@[simp] theorem Home.apart_poke (a : W64) (n v : Nat) : (h.poke a n v).state.apart = h.state.apart := by
  have fetched : (if (toBytes n v).length = 64 then h else h.fetch a).state.apart = h.state.apart := by split <;> simp
  unfold Home.poke Home.put
  dsimp only
  split <;> exact fetched

@[simp] theorem Home.apart_unpin (n : Nat) : (h.unpin n).state.apart = h.state.apart := by
  unfold Home.unpin Home.lowered
  dsimp only
  split
  · exact (Home.apart_poke ..).trans ((Home.apart_poke ..).trans (Home.apart_fetch ..))
  · exact (Home.apart_poke ..).trans (Home.apart_fetch ..)

@[simp] theorem Home.apart_rewrite : h.rewrite.apart = h.state.apart := by
  unfold Home.rewrite
  refine foldl_get_apart Prod.fst (fun b n => ?_) _ (h.state, none)
  dsimp only
  rw [State.apart_writeWord]
  split <;> simp

@[simp] theorem Home.apart_close : h.close.apart = h.state.apart := by
  unfold Home.close
  split
  · rfl
  · have count (u : State) (c : Prop) [Decidable c] (sub v : Nat) :
        (if c then u else u.setCacheCount h.polder sub v).apart = u.apart := by split <;> rfl
    have depth (u : State) (c : Prop) [Decidable c] :
        (if c then u else u.setStackDepth h.polder h.depth).apart = u.apart := by split <;> simp
    simp only [State.apart_bump, depth, count, Home.apart_rewrite]

end

section
variable (s)

@[simp] theorem State.apart_zeroRange (p : Nat) (base : W64) (n : Nat) : (s.zeroRange p base n).apart = s.apart := by
  unfold State.zeroRange
  refine State.foldl_apart (fun b u => ?_) _ s
  split <;> simp

@[simp] theorem State.apart_initCache (p : Nat) : (s.initCache p).apart = s.apart := by
  unfold State.initCache
  simp only [State.apart_setCacheCount, State.apart_onPolder, Home.apart_close]
  refine (foldl_get_apart Home.state (fun b i => Home.apart_poke ..) _ _).trans ?_
  simp [State.home]

@[simp] theorem State.apart_dropCache (p : Nat) : (s.dropCache p).apart = s.apart := rfl

/-! ### Contexts that end -/

@[simp] theorem State.apart_servePosts (c : Nat) : (s.servePosts c).apart = s.apart := by
  refine State.foldl_apart (fun b x => ?_) _ _
  unfold State.setMapBit
  dsimp only
  split <;> simp

@[simp] theorem State.apart_abandonFabric (c : Nat) : (s.abandonFabric c).apart = s.apart := by
  refine State.foldl_apart (fun b o => ?_) _ s
  split
  · exact State.foldl_apart (fun u _ => State.apart_send u _) _ b
  · rfl

@[simp] theorem State.apart_dropMedia (c : Nat) : (s.dropMedia c).apart = s.apart := rfl

@[simp] theorem State.apart_leaveCore (c n : Nat) : (s.leaveCore c n).apart = s.apart := by
  unfold State.leaveCore
  dsimp only
  split
  · rfl
  · split <;> rfl

@[simp] theorem State.apart_notifyReady (n slot tag : Nat) : (s.notifyReady n slot tag).apart = s.apart :=
  State.foldl_apart (fun b _ => State.apart_send b _) _ s

@[simp] theorem State.apart_placeRecord (n : Nat) (u : Unplaced) : (s.placeRecord n u).apart = s.apart := by
  have put (w : State) (e : w.apart = s.apart) (i tag : Nat) (r : ResultSlot) :
      ((w.onCtx n (fun c => { c with slots := tblPut c.slots i r })).notifyReady n i tag).apart = s.apart :=
    (State.apart_notifyReady ..).trans e
  have free (w : State) (b : Bool) : (if b = true then w.usedFree else w).apart = w.apart := by split <;> rfl
  unfold State.placeRecord
  dsimp only
  split
  · exact put s rfl ..
  · refine put _ ?_ ..
    rw [free, free, State.apart_readView]

@[simp] theorem State.apart_completePkg (n : Nat) (u : Unplaced) : (s.completePkg n u).apart = s.apart := by
  unfold State.completePkg
  split
  · exact State.apart_placeRecord ..
  · rfl

@[simp] theorem State.apart_dismantle (n code scope : Nat) : (s.dismantle n code scope).1.apart = s.apart := by
  unfold State.dismantle
  dsimp only
  split
  · rfl
  · simp only [State.apart_bump]
    refine (State.foldl_apart (fun b k => State.apart_completePkg b n _) _ _).trans ?_
    suffices h : (((s.ctx n).asm.flatMap Assembly.replies).foldl
        (fun (s : State) h => s.send (.host 0x85 h 0 [])) _).apart = s.apart by
      split
      · exact (State.apart_completePkg ..).trans h
      · exact h
    refine (State.foldl_apart (fun b h => State.apart_send b _) _ _).trans ?_
    refine (State.foldl_apart (fun b k => State.apart_leaveCore b n k) _ _).trans ?_
    simp only [State.apart_dropMedia, State.apart_abandonFabric, State.apart_onPolder, Home.apart_close]
    refine (foldl_get_apart Home.state (fun h k => Home.apart_unpin h k) _ _).trans ?_
    simp [State.home]

@[simp] theorem State.apart_writeRecord (c : Nat) : (s.writeRecord c).apart = s.apart := (State.apart_writeView ..).trans rfl
@[simp] theorem State.apart_closeStreams (p : Nat) : (s.closeStreams p).apart = s.apart := rfl
@[simp] theorem State.apart_eraseSeals (p : Nat) : (s.eraseSeals p).apart = s.apart := rfl

/-! ### Save images that move -/

@[simp] theorem State.apart_readFor (r : Requester) (a : W64) (n core : Nat) (l : List (Nat × List Byte)) (bad : Option W64) :
    (s.readFor r a n core l bad).1.apart = s.apart := s.apart_readView r a n

@[simp] theorem State.apart_readImagesFor (p : Nat) (saveOff : W64) (xs : List (Nat × Nat)) :
    (s.readImagesFor p saveOff xs).1.apart = s.apart := by
  unfold State.readImagesFor
  refine foldl_get_apart (fun a : State × List (Nat × List Byte) × Option W64 => a.1) (fun a x => ?_) xs (s, [], none)
  generalize imageBytes = n
  exact State.apart_readFor ..

@[simp] theorem State.apart_copyImages (p : Nat) (saveOff : W64) (old new : List Nat) :
    (s.copyImages p saveOff old new).1.apart = s.apart := by
  unfold State.copyImages
  dsimp only
  refine (State.foldl_apart (fun u x => ?_) _ _).trans (State.apart_readImagesFor ..)
  exact State.apart_writeView ..

/-! ### The scheduler -/

@[simp] theorem State.apart_requestWake (n : Nat) : (s.requestWake n).apart = s.apart := by
  unfold State.requestWake State.queueWake
  dsimp only
  split
  · rfl
  · split
    · split <;> rfl
    · split
      · rfl
      · split <;> rfl

@[simp] theorem State.apart_afterWake (n : Nat) : (s.afterWake n).apart = s.apart := by
  unfold State.afterWake
  dsimp only
  split <;> rfl

@[simp] theorem State.apart_preempt (n : Nat) : (s.preempt n).apart = s.apart := by
  unfold State.preempt
  dsimp only
  split
  · rfl
  · exact State.foldl_apart (fun b k => State.apart_onCore ..) _ s

@[simp] theorem State.apart_grant (n : Nat) : (s.grant n).apart = s.apart :=
  (State.apart_afterWake ..).trans (State.foldl_apart (fun b k => State.apart_requestWake b k) _ _)

@[simp] theorem State.apart_consider (n : Nat) : (s.consider n).apart = s.apart := by
  have displaced (l : List (Nat × Ctx)) : (l.foldl (fun s x => s.preempt x.1) s).apart = s.apart :=
    State.foldl_apart (fun b x => State.apart_preempt b x.1) l s
  have granted (u : State) (b : Bool) : (if b = true then u.grant n else u).apart = u.apart := by
    split
    · exact State.apart_grant ..
    · rfl
  unfold State.consider
  dsimp only
  split
  · rfl
  · split
    · exact State.apart_grant ..
    · split
      · exact (granted ..).trans (displaced _)
      · rfl

@[simp] theorem State.apart_schedule (p : Nat) : (s.schedule p).apart = s.apart := by
  have considered (u : State) (x : Nat × Ctx) : (u.consider x.1).apart = u.apart := State.apart_consider ..
  exact State.foldl_apart considered _ s

/-! ### Polders and ports -/

@[simp] theorem State.apart_formPolder (p : Nat) : (s.formPolder p).apart = s.apart := by
  unfold State.formPolder
  dsimp only
  rw [State.apart_event, State.apart_onPolder, State.apart_dropCache]
  rfl

@[simp] theorem State.apart_applyMask (p old new : Nat) : (s.applyMask p old new).apart = s.apart := by
  unfold State.applyMask
  dsimp only
  have left (u : State) : ((sitesOf (old &&& (old ^^^ new))).foldl State.dropSite u).apart = u.apart :=
    State.foldl_apart (f := State.dropSite) (fun _ _ => rfl) _ u
  have closed (u : State) (b : Bool) : (if b = true then u else u.closeStreams p).apart = u.apart := by split <;> rfl
  have formed (u : State) (b : Bool) : (if b = true then u.formPolder p else u).apart = u.apart := by split <;> simp
  simp only [formed, State.apart_onPolder, State.apart_dropCache, State.apart_eraseSeals, closed, left]

@[simp] theorem State.apart_enablePort (q : Nat) (on : Bool) : (s.enablePort q on).apart = s.apart := by
  unfold State.enablePort
  split
  · rfl
  · split <;> rfl

end

end Sys2Proof.Machine
end

section
/-! ### The messages that wait for the store

Neither the effect of a write's items nor what stores them adds to the messages that wait (R28, R440). -/

namespace Sys2Proof.Machine

variable {s : State}

theorem foldl_mgmtQ {α : Type} {f : State → α → State} (step : ∀ u a, (f u a).mgmtQ = u.mgmtQ) (l : List α) (s : State) :
    (l.foldl f s).mgmtQ = s.mgmtQ := by
  induction l generalizing s with
  | nil => rfl
  | cons a l ih => exact (ih (f s a)).trans (step s a)

section
variable (s)

/-! ### Contexts and polders -/

@[simp] theorem State.resetPolder_mgmtQ (p code : Nat) : (s.resetPolder p code).mgmtQ = s.mgmtQ := by
  have dismantled (l : List Nat) : (l.foldl (fun s c => (s.dismantle c code 2).1) s).mgmtQ = s.mgmtQ :=
    foldl_mgmtQ (fun u c => State.apart_mgmtQ (u.apart_dismantle c code 2)) l s
  have zeroed (u : State) (l : List Nat) : (l.foldl State.zeroCounters u).mgmtQ = u.mgmtQ := foldl_mgmtQ (f := State.zeroCounters) (fun _ _ => rfl) l u
  have cache (u : State) (b : Bool) : (if b = true then u.initCache p else u).mgmtQ = u.mgmtQ := by
    split
    · exact State.apart_mgmtQ (u.apart_initCache p)
    · rfl
  have records (u : State) (b : Bool) :
      (if b = true then (List.range 256).foldl (fun s c => s.writeRecord (256 * p + c)) u else u).mgmtQ = u.mgmtQ := by
    split
    · exact foldl_mgmtQ (fun v c => State.apart_mgmtQ (v.apart_writeRecord _)) _ u
    · rfl
  have rest (u : State) : (((u.closeStreams p).eraseSeals p).bump32 (polderIndex p 3) 5).mgmtQ = u.mgmtQ := rfl
  simp only [State.resetPolder, State.apart_mgmtQ (State.apart_schedule ..), State.event_mgmtQ, rest, records, cache, zeroed,
    dismantled]

@[simp] theorem State.teardown_mgmtQ (n code scope : Nat) : (s.teardown n code scope).mgmtQ = s.mgmtQ := by
  have dismantled : (s.dismantle n code scope).1.mgmtQ = s.mgmtQ := State.apart_mgmtQ (s.apart_dismantle n code scope)
  unfold State.teardown
  dsimp only
  split
  · exact (State.resetPolder_mgmtQ ..).trans dismantled
  · exact dismantled

@[simp] theorem State.schedule_mgmtQ (p : Nat) : (s.schedule p).mgmtQ = s.mgmtQ := State.apart_mgmtQ (s.apart_schedule p)
@[simp] theorem State.preempt_mgmtQ (n : Nat) : (s.preempt n).mgmtQ = s.mgmtQ := State.apart_mgmtQ (s.apart_preempt n)
@[simp] theorem State.initCache_mgmtQ (p : Nat) : (s.initCache p).mgmtQ = s.mgmtQ := State.apart_mgmtQ (s.apart_initCache p)

@[simp] theorem State.applyMask_mgmtQ (p old new : Nat) : (s.applyMask p old new).mgmtQ = s.mgmtQ :=
  State.apart_mgmtQ (s.apart_applyMask p old new)

@[simp] theorem State.enablePort_mgmtQ (q : Nat) (on : Bool) : (s.enablePort q on).mgmtQ = s.mgmtQ :=
  State.apart_mgmtQ (s.apart_enablePort q on)

@[simp] theorem State.faultContext_mgmtQ (n code : Nat) (detail : W64) : (s.faultContext n code detail).mgmtQ = s.mgmtQ := by
  unfold State.faultContext
  dsimp only
  split
  · exact (State.resetPolder_mgmtQ ..).trans (State.event_mgmtQ ..)
  · exact (State.schedule_mgmtQ ..).trans ((State.teardown_mgmtQ ..).trans (State.event_mgmtQ ..))

@[simp] theorem State.moveNow_mgmtQ (n : Nat) (mask : W16) : (s.moveNow n mask).mgmtQ = s.mgmtQ := by
  have read (b : Bool) : (if b = true then (s, none)
      else s.copyImages (polderOf n) (s.ctx n).saveOff (s.ctx n).cores (s.coresOf mask.toNat)).1.mgmtQ = s.mgmtQ := by
    split
    · rfl
    · exact State.apart_mgmtQ (s.apart_copyImages ..)
  unfold State.moveNow
  dsimp only
  split
  · exact (State.faultContext_mgmtQ ..).trans (read _)
  · exact read _

@[simp] theorem State.moveContext_mgmtQ (n : Nat) (mask : W16) : (s.moveContext n mask).mgmtQ = s.mgmtQ := by
  have withdrawn (b : Bool) : (if b = true then s.preempt n else s).mgmtQ = s.mgmtQ := by split <;> simp
  unfold State.moveContext
  dsimp only
  split
  · rfl
  · split
    · rfl
    · split <;> simp [withdrawn]

@[simp] theorem State.requestPreempt_mgmtQ (n : Nat) : (s.requestPreempt n).mgmtQ = s.mgmtQ := by
  unfold State.requestPreempt
  dsimp only
  split <;> simp

/-! ### Values and actions (R440) -/

@[simp] theorem State.writeRollback_mgmtQ (f : Rollback → Rollback) : (s.writeRollback f).mgmtQ = s.mgmtQ := by
  unfold State.writeRollback
  dsimp only
  split <;> rfl

@[simp] theorem State.postAll_mgmtQ : s.postAll.mgmtQ = s.mgmtQ := by
  have noticed (u : State) (i : Nat) : (u.notify i).mgmtQ = u.mgmtQ := foldl_mgmtQ (fun v x => State.send_mgmtQ ..) _ u
  refine foldl_mgmtQ (fun u e => ?_) _ { s with arrived := [] }
  have flagged (b : Bool) (v : State) : (if b = true then { v with alertN := true } else v).mgmtQ = v.mgmtQ := by split <;> rfl
  have told (b : Bool) (v : State) (i : Nat) : (if b = true then v.notify i else v).mgmtQ = v.mgmtQ := by
    split
    · exact noticed ..
    · rfl
  unfold State.postEvent
  dsimp only
  rw [told, flagged]
  rfl

@[simp] theorem State.release_mgmtQ : s.release.mgmtQ = s.mgmtQ := by
  have ended (u : State) :
      ((List.range 16).foldl (fun s p => (s.openCtxs p).foldl (fun s c => s.teardown c 0 2) s) u).mgmtQ = u.mgmtQ :=
    foldl_mgmtQ (fun v p => foldl_mgmtQ (fun w c => w.teardown_mgmtQ c 0 2) (v.openCtxs p) v) _ u
  have masked (u : State) (masks : List Nat) :
      ((List.range 16).foldl (fun s p => s.applyMask p (masks.getD p 0) 0) u).mgmtQ = u.mgmtQ :=
    foldl_mgmtQ (fun v p => v.applyMask_mgmtQ p _ 0) _ u
  have enabled (u : State) : ((List.range 5).foldl (fun s q => s.enablePort q true) u).mgmtQ = u.mgmtQ :=
    foldl_mgmtQ (fun v q => v.enablePort_mgmtQ q true) _ u
  have cleared (u : State) (key size : Nat) : (u.clearDomain key size).mgmtQ = u.mgmtQ := rfl
  simp only [State.release, enabled, masked, cleared, ended]

@[simp] theorem State.act_mgmtQ (i j v : Nat) : (s.act i j v).mgmtQ = s.mgmtQ := by
  unfold State.act
  split
  · split <;> simp
  · rfl
  · split
    · rfl
    · split
      · exact State.initCache_mgmtQ ..
      · rfl
      · split
        · exact State.writeRollback_mgmtQ ..
        · exact State.writeRollback_mgmtQ ..
        · exact State.release_mgmtQ ..
        · rfl
        · rfl

@[simp] theorem State.store_mgmtQ (r : EntryRow) (i j v : Nat) : (s.store r i j v).mgmtQ = s.mgmtQ := by
  unfold State.store
  split
  · unfold State.clearFlags
    exact State.postAll_mgmtQ ..
  · dsimp only
    generalize stored : (if r.kept = true then s.setKept i j (definedBits i j v) else s.setEntry i j (definedBits i j v)) = u
    have same : u.mgmtQ = s.mgmtQ := by
      rw [← stored]
      split <;> rfl
    rw [← same]
    split
    · rfl
    · split
      · split
        · exact State.applyMask_mgmtQ ..
        · rfl
      · split
        · exact State.enablePort_mgmtQ ..
        · rfl

theorem State.applyItems_mgmtQ (vs : List (Nat × Nat)) : (s.applyItems vs).mgmtQ = s.mgmtQ := by
  unfold State.applyItems
  refine (foldl_mgmtQ (fun u kv => ?_) vs _).trans (foldl_mgmtQ (fun u kv => ?_) vs s)
  all_goals
    dsimp only
    split
    · rfl
    · split
      · rfl
      · simp

theorem State.storeKept_mgmtQ : s.storeKept.mgmtQ = s.mgmtQ := by
  unfold State.storeKept
  dsimp only
  split <;> rfl

theorem State.storeOwner_mgmtQ : s.storeOwner.mgmtQ = s.mgmtQ := by
  unfold State.storeOwner
  dsimp only
  split <;> rfl


end

/-! ### Batches (R398 to R401) -/

section
variable {x : HoldReading} {b : NvBatch} {rest : List NvBatch}
variable (first : s.nvQ = b :: rest) (idle : s.nvRun = none) (powered : s.supply.vaon = true)
  (input : s.supply.inputLost = false) (read : readingOk x = true)
include first idle powered input read

theorem State.startBatch_checked :
    s.startBatch x = if freeboardOk x b.bytes (s.entry 0x9070 3) then { s.measure x with nvRun := some b, nvQ := rest }
      else ((({ s.measure x with nvQ := [] }.bump 0x9070 5 1).event 0x9001 1 1).defer b.work).serveWaiting := by
  simp [State.startBatch, first, idle, powered, input, read]

end

/-- A measurement changes what it measures, and takes two free values (R400). -/
theorem State.measure_frame (s : State) (x : HoldReading) :
    ∃ dict, s.measure x = { s with dict := dict, free := s.free + 2 } := by
  dsimp only [State.measure, State.setEntry, State.usedFree]
  exact ⟨_, rfl⟩

/-- The state in which the last batch of a write has completed and its items have taken effect. -/
theorem State.endBatch_more {b : NvBatch} (run : s.nvRun = some b) (more : s.nvQ ≠ []) :
    s.endBatch = ({ s with nvRun := none } : State).bump 0x9070 4 1 := by
  have waits : (({ s with nvRun := none } : State).bump 0x9070 4 1).nvQ ≠ [] := by rwa [State.bump_nvQ]
  simp only [State.endBatch, run, List.isEmpty_iff, if_neg waits]

theorem State.endBatch_last {b : NvBatch} (run : s.nvRun = some b) (last : s.nvQ = []) :
    s.endBatch = ((({ s with nvRun := none } : State).bump 0x9070 4 1).commit b.work).serveWaiting := by
  have none' : (({ s with nvRun := none } : State).bump 0x9070 4 1).nvQ = [] := by rwa [State.bump_nvQ]
  simp only [State.endBatch, run, List.isEmpty_iff, if_pos none']

/-- What a reply sends. -/
theorem State.reply_tx (s : State) (q : Req) (status : Nat) (bs : List Byte) :
    ∃ wire, (s.reply q status bs).tx = s.tx ++ [.tsusen q.h.path q.h.session q.h.seq (q.body.response status bs) wire] := by
  unfold State.reply
  cases open' : s.session q.h.session.toNat with
  | none =>
    simp only [State.answer, open', State.sayTo, State.sayOn]
    exact ⟨_, State.send_tx ..⟩
  | some x =>
    rw [State.answer_of_session open']
    exact ⟨_, State.send_tx ..⟩

theorem State.commit_mgmtQ (s : State) (q : Req) (vs : List (Nat × Nat)) (o : Option Nat) :
    (s.commit (.items q vs o)).mgmtQ = s.mgmtQ := by
  have kept (u : State) (b : Bool) : (if b = true then u.storeKept else u).mgmtQ = u.mgmtQ := by
    split
    · exact u.storeKept_mgmtQ
    · rfl
  have owner (u : State) (b : Bool) : (if b = true then u.storeOwner else u).mgmtQ = u.mgmtQ := by
    split
    · exact u.storeOwner_mgmtQ
    · rfl
  have replied (u : State) (st : Nat) (bs : List Byte) : (u.reply q st bs).mgmtQ = u.mgmtQ := by
    obtain ⟨_, _, _, eq⟩ := u.answer_frame q.h (q.body.response st bs)
    rw [State.reply, eq]
  simp only [State.commit, replied, owner, kept, State.applyItems_mgmtQ]

/-- Settles O55: a batch that starts, one that is deferred, one that others follow, and the last one of a write. -/
theorem batchesRun : Obligations.BatchesRun := by
  unfold Obligations.BatchesRun
  intro s x b rest q vs done applied stored
  refine ⟨fun first idle powered input read => ⟨fun passes => ?_, fun fails work nothing => ?_⟩,
    fun run powered stays => ⟨fun more => ?_, fun last nothing work => ?_⟩⟩
  · have starts : s.startBatch x = { s.measure x with nvRun := some b, nvQ := rest } :=
      (State.startBatch_checked first idle powered input read).trans (if_pos passes)
    obtain ⟨dict, eq⟩ := s.measure_frame x
    rw [eq] at starts
    exact ⟨_, next_congr starts, rfl, rfl, rfl, rfl⟩
  · obtain ⟨dict, eq⟩ := s.measure_frame x
    let u : State := ({ s.measure x with nvQ := [] }.bump 0x9070 5 1).event 0x9001 1 1
    obtain ⟨_, rest'⟩ := State.bump_rest { s.measure x with nvQ := [] } 0x9070 5 1
    have u_eq : ∃ dict, u = { s with dict := dict, free := s.free + 2, nvQ := [], arrived := s.arrived ++ [(0x9001, 1, 1)] } := by
      unfold u
      rw [rest', eq]
      exact ⟨_, rfl⟩
    obtain ⟨dict', u_eq⟩ := u_eq
    have deferred : s.startBatch x = (u.reply q 7 []).serveWaiting := by
      refine (State.startBatch_checked first idle powered input read).trans ((if_neg (by simp [fails])).trans ?_)
      rw [work]
      rfl
    obtain ⟨_, _, _, frame⟩ := u.answer_frame q.h (q.body.response 7 [])
    have replied : (u.reply q 7 []).serveWaiting = u.reply q 7 [] := by
      refine State.serveWaiting_of_none ?_
      rw [State.reply, frame, u_eq]
      exact nothing
    obtain ⟨wire, tx⟩ := u.reply_tx q 7 []
    refine ⟨u.reply q 7 [], wire, next_congr (deferred.trans replied), ?_, ?_, ?_, ?_, tx.trans (by rw [u_eq])⟩
    all_goals rw [State.reply, frame, u_eq]
    exact idle
  · have done' : s.batchDone = done := by
      simp [State.batchDone, State.endBatch_more run more, powered, stays, done]
    exact next_congr done'
  · have applies : done.commit b.work = (if vs.any storesOwner then stored.storeOwner else stored).reply q 0 [] := by
      rw [work]
      rfl
    have none' : (done.commit b.work).mgmtQ = [] := by
      rw [work, State.commit_mgmtQ]
      exact (State.bump_mgmtQ ..).trans nothing
    have ended : s.batchDone = done.commit b.work := by
      simp [State.batchDone, State.endBatch_last run last, State.serveWaiting_of_none none', powered, stays, done]
    exact next_congr (ended.trans applies)

end Sys2Proof.Machine
end

section
/-! ### Boot (R403 to R406, R416) -/

namespace Sys2Proof.Machine

variable {s : State} {m : Nat}

/-! ### The mode of the Ikiroth -/

/-- The entry that holds the mode. -/
def modeKey : Nat := entryKey 0x9000 1

theorem State.mode_setMode (unkept : tblFind s.kept modeKey = none) (m : Nat) : (s.setMode m).mode = m := by
  have none' : tblFind s.kept (entryKey 0x9000 1) = none := unkept
  simp only [State.mode, State.setMode, State.entry, State.setEntry, none', tblFind_tblPut_self]

theorem State.mode_event (s : State) (i b n : Nat) : (s.event i b n).mode = s.mode := by
  unfold State.event
  split <;> rfl

section
variable (s)

theorem State.setEntry_mode {i j : Nat} (other : entryKey i j ≠ modeKey) (v : Nat) :
    tblFind (s.setEntry i j v).dict modeKey = tblFind s.dict modeKey := tblFind_tblPut_ne _ _ other

theorem State.dropCache_mode {p : Nat} (known : p < 16) : tblFind (s.dropCache p).dict modeKey = tblFind s.dict modeKey := by
  have other (j : Nat) (few : j < 256) : entryKey (0x7020 + p) j ≠ modeKey := by unfold modeKey entryKey; omega
  refine (State.setEntry_mode _ (other 3 (by decide)) _).trans ((State.setEntry_mode _ (other 2 (by decide)) _).trans ?_)
  exact State.setEntry_mode _ (other 1 (by decide)) _

/-- The mode is not written where a polder is formed: its entry is the device's. -/
theorem State.formPolder_mode {p : Nat} (known : p < 16) :
    tblFind (s.formPolder p).dict modeKey = tblFind s.dict modeKey := by
  have device : indexPlace 0x9000 = .device := by decide
  have stays : (!(indexPlace (modeKey / 256) == Place.polder p
      && zeroedAt (modeKey / 256) (modeKey % 256) == Zeroed.formed)) = true := by
    have place : indexPlace (modeKey / 256) = .device := device
    rw [place]
    rfl
  have event (u : State) (i b n : Nat) : (u.event i b n).dict = u.dict := by unfold State.event; split <;> rfl
  unfold State.formPolder
  dsimp only
  rw [event]
  refine (State.dropCache_mode _ known).trans ?_
  refine (State.setEntry_mode _ (by unfold modeKey entryKey; omega) _).trans ?_
  refine (State.setEntry_mode _ (by unfold modeKey entryKey; omega) _).trans ?_
  exact tblFind_filter _ _ _ fun x _ => stays

theorem State.applyMask_mode {p : Nat} (known : p < 16) (new : Nat) :
    tblFind (s.applyMask p 0 new).dict modeKey = tblFind s.dict modeKey := by
  have none' : sitesOf (0 &&& (0 ^^^ new)) = [] := by simp [sitesOf]
  unfold State.applyMask
  simp only [none', List.foldl_nil, List.isEmpty_nil, if_true]
  split
  · exact (State.formPolder_mode _ known).trans (State.dropCache_mode _ known)
  · exact State.dropCache_mode _ known

theorem State.enablePort_dict (q : Nat) (on : Bool) : (s.enablePort q on).dict = s.dict := by
  unfold State.enablePort
  split
  · rfl
  · split <;> rfl

end

/-! ### The image that runs (R403, R404) -/

/-- The state once boot has read the store. -/
def State.storeRead (s : State) : State :=
  let r := { s with supply := { s.supply with booted := true, inReset := false } }.readStore
  { r with plcaNode := BitVec.ofNat 8 (r.entry 0x1001 1) }

/-- The state in which boot follows the attempt rule. -/
def State.choosing (s : State) : State := s.storeRead.setEntry 0x9000 6 s.storeRead.rollback.counter

/-- Whether the image of a slot is accepted. -/
def State.accepts (s : State) (n : Nat) : Bool := imageOk s.rollback.counter (s.image n)

/-- What the supply is like where boot goes on (R429). -/
structure State.Boots (s : State) : Prop where
  vaon : s.supply.vaon = true
  pwrok : s.supply.pwrok = true
  rails : s.supply.rails = true
  cold : s.supply.booted = false
  cool : s.supply.tripped = false

theorem State.boot_down (down : ¬ s.Boots) : s.boot = s := by
  refine if_pos ?_
  by_contra up
  obtain ⟨vaon, pwrok, rails, cold, cool⟩ : s.supply.vaon = true ∧ s.supply.pwrok = true ∧ s.supply.rails = true
      ∧ s.supply.booted = false ∧ s.supply.tripped = false := by simpa [and_assoc] using up
  exact down ⟨vaon, pwrok, rails, cold, cool⟩

section
variable (up : s.Boots)
include up

theorem State.Boots.goes : ¬ (!(s.supply.vaon && s.supply.pwrok && s.supply.rails && !s.supply.booted && !s.supply.tripped))
    = true := by
  simp [up.vaon, up.pwrok, up.rails, up.cold, up.cool]

theorem State.Boots.unmade (unmade : s.part.factoryOk = false) : s.boot = s.storeRead.setMode 3 :=
  (if_neg up.goes).trans (if_pos (by simp [State.readStore, State.loadKept, unmade]))

section
variable (made : s.part.factoryOk = true)
include made

theorem State.Boots.unrolled (noA : s.storeRead.rollA.ok = false) (noB : s.storeRead.rollB.ok = false) :
    s.boot = (s.storeRead.setMode 3).event 0x9001 5 1 :=
  (if_neg up.goes).trans ((if_neg (by simp [State.readStore, State.loadKept, made])).trans
    (if_pos (show (!s.storeRead.rollA.ok && !s.storeRead.rollB.ok) = true by simp [noA, noB])))

section
variable (stands : s.storeRead.rollA.ok = true ∨ s.storeRead.rollB.ok = true)
include stands

omit up made in
theorem State.copyStands : ¬ (!s.storeRead.rollA.ok && !s.storeRead.rollB.ok) = true := by
  rcases stands with a | b
  · simp [a]
  · simp [b]

/-- What counts the images that are refused (R403). -/
def State.refused (s : State) : State :=
  s.choosing.attempt.1.event 0x9001 0
    (s.choosing.attempt.2.takeWhile (fun n => !s.choosing.attempt.1.accepts n)).length

theorem State.Boots.recovers (none' : s.choosing.attempt.2.find? s.choosing.attempt.1.accepts = none) :
    s.boot = s.refused.setMode 2 := by
  refine (if_neg up.goes).trans ((if_neg (by simp [State.readStore, State.loadKept, made])).trans
    ((if_neg (State.copyStands stands)).trans ?_))
  dsimp only
  split
  · rfl
  · next n h => exact absurd (none'.symm.trans h) (by simp)

theorem State.Boots.runs {n : Nat} (first : s.choosing.attempt.2.find? s.choosing.attempt.1.accepts = some n) :
    s.boot = (s.refused.runImage n).bringUp := by
  refine (if_neg up.goes).trans ((if_neg (by simp [State.readStore, State.loadKept, made])).trans
    ((if_neg (State.copyStands stands)).trans ?_))
  dsimp only
  split
  · next h => exact absurd (first.symm.trans h) (by simp)
  · next k h =>
    obtain rfl : n = k := Option.some.inj (first.symm.trans h)
    rfl

end
end
end

/-! ### What the image is run in (R403) -/

theorem State.runImage_entry (s : State) (n : Nat) : (s.runImage n).entry 0x9000 2 = s.entry 0x9000 2 := by
  have other (u : State) {j : Nat} (ne : j ≠ 2) (v : Nat) : (u.setEntry 0x9000 j v).entry 0x9000 2 = u.entry 0x9000 2 := by
    have key : entryKey 0x9000 j ≠ entryKey 0x9000 2 := fun e => ne (entryKey_inj.1 e)
    simp only [State.entry, State.setEntry, tblFind_tblPut_ne _ _ key]
  simp only [State.runImage]
  rw [other _ (by decide), other _ (by decide), other _ (by decide), other _ (by decide)]

/-- A polder formed again where its mask names a site (R320). -/
def State.formed (s : State) (p : Nat) : State := if s.polderMask p = 0 then s else s.applyMask p 0 (s.polderMask p)

theorem State.apart_formed (s : State) (p : Nat) : (s.formed p).apart = s.apart := by
  unfold State.formed
  split
  · rfl
  · exact s.apart_applyMask ..

theorem State.formed_mode (s : State) {p : Nat} (known : p < 16) :
    tblFind (s.formed p).dict modeKey = tblFind s.dict modeKey := by
  unfold State.formed
  split
  · rfl
  · exact s.applyMask_mode known _

/-- Without a trim of its own the image is run in NORMAL mode, with the ports and polders as they were set up. -/
theorem State.bringUp_normal (normal : s.entry 0x9000 2 ≠ 1) (unkept : tblFind s.kept modeKey = none) :
    s.bringUp.mode = 0 ∧ s.bringUp.supply = s.supply ∧ s.bringUp.trims = s.part.trims ∧ s.bringUp.kept = s.kept := by
  let v : State := { s with trims := s.part.trims }.setMode 0
  let w := (List.range 5).foldl (fun s q => s.enablePort q (s.entry (portIndex q 0) 1 == 1)) v
  obtain ⟨t, is, eq⟩ : ∃ t, s.bringUp = t ∧ t = (List.range 16).foldl State.formed w := ⟨_, if_neg normal, rfl⟩
  have enabled (u : State) (q : Nat) : (u.enablePort q (u.entry (portIndex q 0) 1 == 1)).dict = u.dict := u.enablePort_dict ..
  have ported : w.apart = v.apart := State.foldl_apart (fun u q => u.apart_enablePort q _) _ v
  have apart : t.apart = v.apart := by
    rw [eq, ← ported]
    exact State.foldl_apart State.apart_formed _ w
  have first : tblFind v.dict modeKey = some 0 := tblFind_tblPut_self ..
  have second : tblFind w.dict modeKey = some 0 :=
    List.foldlRecOn (motive := fun (u : State) => tblFind u.dict modeKey = some 0) (List.range 5) _ first
      fun u h q _ => by rw [enabled]; exact h
  have mode : tblFind t.dict (entryKey 0x9000 1) = some 0 := by
    rw [eq]
    exact List.foldlRecOn (motive := fun (u : State) => tblFind u.dict modeKey = some 0) (List.range 16) _ second
      fun u h p m => (u.formed_mode (List.mem_range.1 m)).trans h
  have kept : t.kept = s.kept := (State.apart_kept apart :)
  have none' : tblFind t.kept (entryKey 0x9000 1) = none := kept ▸ unkept
  rw [is]
  exact ⟨by simp only [State.mode, State.entry, none', mode], (State.apart_supply apart :), (State.apart_trims apart :), kept⟩

/-- Settles O56: the halts, what the attempt rule comes to, and the signature of a report. -/
theorem bootRuns : Obligations.BootRuns := by
  unfold Obligations.BootRuns
  intro s nonce up r u a good
  refine ⟨fun down => next_congr (State.boot_down fun t => down ⟨t.vaon, t.pwrok, t.rails, t.cold, t.cool⟩),
    fun hup unkept => ?_, fun asked => ?_⟩
  · obtain ⟨vaon, pwrok, rails, cold, cool⟩ := hup
    have boots : s.Boots := ⟨vaon, pwrok, rails, cold, cool⟩
    refine ⟨fun unmade => ⟨_, next_congr (boots.unmade unmade), State.mode_setMode unkept 3, rfl⟩,
      fun made noA noB => ⟨_, next_congr (boots.unrolled made noA noB),
        (State.mode_event ..).trans (State.mode_setMode unkept 3), rfl⟩,
      fun made stands => ⟨fun none' => ?_, fun n first => next_congr (boots.runs made stands first), ?_, ?_⟩⟩
    · have all : s.choosing.attempt.2.takeWhile (fun n => !s.choosing.attempt.1.accepts n) = s.choosing.attempt.2 :=
        List.takeWhile_eq_self_iff.2 fun n m => by
          have no : ¬ s.choosing.attempt.1.accepts n = true := List.find?_eq_none.1 none' n m
          simpa using no
      exact next_congr ((boots.recovers made stands none').trans (by rw [State.refused, all]; rfl))
    · intro settled bad
      have attempt : s.choosing.attempt = (s.choosing, [s.choosing.rollback.active]) := if_pos settled
      have refuses : s.choosing.accepts s.choosing.rollback.active = false := bad
      have none' : s.choosing.attempt.2.find? s.choosing.attempt.1.accepts = none := by simp [attempt, refuses]
      have counted : s.refused = s.choosing.event 0x9001 0 1 := by simp [State.refused, attempt, refuses]
      have alive : (s.supply.vaon && true && !false) = true := by rw [vaon]; rfl
      exact ⟨(s.choosing.event 0x9001 0 1).setMode 2, next_congr ((boots.recovers made stands none').trans (by rw [counted])),
        State.mode_setMode (s := s.choosing.event 0x9001 0 1) unkept 2, alive, rfl, rfl, rfl⟩
    · intro settled ok normal
      have attempt : s.choosing.attempt = (s.choosing, [s.choosing.rollback.active]) := if_pos settled
      have takes : s.choosing.accepts s.choosing.rollback.active = true := ok
      have first : s.choosing.attempt.2.find? s.choosing.attempt.1.accepts = some s.choosing.rollback.active := by
        simp [attempt, takes]
      have counted : s.refused = s.choosing := by simp [State.refused, attempt, takes, State.event]
      let v := s.choosing.runImage s.choosing.rollback.active
      have usual : v.entry 0x9000 2 ≠ 1 := by
        have other : entryKey 0x9000 6 ≠ entryKey 0x9000 2 := fun e => absurd (entryKey_inj.1 e) (by decide)
        have same : s.choosing.entry 0x9000 2 = r.entry 0x9000 2 := by
          simp only [State.entry, State.choosing, State.setEntry, tblFind_tblPut_ne _ _ other]
          rfl
        rw [State.runImage_entry, same]
        exact normal
      obtain ⟨mode, supply, trims, kept⟩ := State.bringUp_normal usual unkept
      have alive : v.bringUp.alive = true := by
        rw [State.alive, supply]
        show (s.supply.vaon && true && !false) = true
        rw [vaon]
        rfl
      exact ⟨v.bringUp, next_congr ((boots.runs made stands first).trans (by rw [counted])), mode, alive, trims, kept⟩
  · exact next_congr (by simp only [State.attestSigned, asked])

end Sys2Proof.Machine
end

section
/-! ### Media jobs (R379 to R384) -/

namespace Sys2Proof.Machine

variable {s : State} {h : SlotAt} {f : XFields} {c : W12}

/-! ### X.MEDIA -/

theorem State.exec_media (s : State) (h : SlotAt) (f : XFields) :
    exec (.mediaOpen h f) s = .next (s.stage h (.media f)) ∧ exec (.mediaFrame h f) s = .next (s.stage h (.media f))
      ∧ exec (.mediaClose h f) s = .next (s.stage h (.media f)) := ⟨rfl, rfl, rfl⟩

theorem State.effect_media (s : State) (n : Nat) (k : CoreState) (bundle : Nat) (h : SlotAt) (f : XFields) :
    s.effect n k bundle (slotOf h (.media f)) = s.doMedia n k (slotOf h (.media f)) f bundle := rfl

section
variable (holds : (s.core (coreOf h)).ctx = some c) (a : s.Acts h (.media f))
include holds a

/-- The read of a descriptor of a media job. -/
def State.mediaRead (s : State) (h : SlotAt) (f : XFields) : BytesRead :=
  (s.passed (coreOf h)).readView (coreFor (s.polderOn (coreOf h)) (coreOf h)) ((s.core (coreOf h)).getG f.gA) 64

/-- The words of a media job's descriptor. -/
def State.mediaWords (s : State) (h : SlotAt) (f : XFields) : List W64 :=
  (pieces 8 8 (s.mediaRead h f).data).map (fun b => BitVec.ofNat 64 (ofBytes b))

/-- The job that a bundle sends (R379). -/
def State.mediaJob (s : State) (h : SlotAt) (f : XFields) (c : W12) : MediaJob :=
  { id := (s.mediaRead h f).state.nextId, core := coreOf h, ctx := c, rank := (s.core (coreOf h)).rank, tag := f.tag.toNat
    polder := s.polderOn (coreOf h), descAddr := (s.core (coreOf h)).getG f.gA, words := s.mediaWords h f, dropped := false }

/-- The engine that a job's first word names. -/
def State.mediaEngine (s : State) (h : SlotAt) (f : XFields) : Nat := bits ((s.mediaWords h f).getD 0 0) 59 58

/-- The state in which a job's tag is held. -/
def State.mediaHeld (s : State) (h : SlotAt) (f : XFields) : State :=
  (s.mediaRead h f).state.begin (coreOf h) (slotOf h (.media f)) (s.core (coreOf h)).pc (some f.tag)
    (.media (s.mediaEngine h f) (s.mediaRead h f).state.nextId) (memRange ((s.core (coreOf h)).getG f.gA) 64)
    (memRange ((s.core (coreOf h)).getG f.gA) 64)

/-- The state in which a job is queued. -/
def State.mediaQueued (s : State) (h : SlotAt) (f : XFields) (c : W12) : State :=
  (s.mediaHeld h f).setEngine (s.mediaEngine h f)
    { (s.mediaHeld h f).engine (s.mediaEngine h f) with
      queue := ((s.mediaHeld h f).engine (s.mediaEngine h f)).queue ++ [s.mediaJob h f c] }

theorem State.stage_media (sound : (s.mediaRead h f).poison = none)
    (quiet : ((s.mediaQueued h f c).core (coreOf h)).quiet = true) : s.stage h (.media f) = s.mediaQueued h f c := by
  have effect : (s.passed (coreOf h)).effect (coreOf h) (s.core (coreOf h)) (s.core (coreOf h)).pc (slotOf h (.media f))
      = s.mediaQueued h f c := by
    have read : (s.passed (coreOf h)).readView (coreFor (s.polderOn (coreOf h)) (coreOf h)) ((s.core (coreOf h)).getG f.gA) 64
      = s.mediaRead h f := rfl
    rw [State.effect_media]
    simp only [State.doMedia, State.polderOn_passed, read, sound, holds, Option.getD_some]
    rfl
  rw [s.stage_acts h (.media f) a (effect ▸ quiet), effect]

end

/-! ### Engines -/

section
variable {e : Nat} {j : MediaJob} {rest : List MediaJob}

/-- The engine once it has taken the job at the head of its queue (R383). -/
def State.takesJob (s : State) (e : Nat) (j : MediaJob) (rest : List MediaJob) (other : Bool) : State :=
  (s.setEngine e { s.engine e with queue := rest, running := some j, switching := other, lastStream := some j.stream }).mark
    (engineIndex e + 2) 4

section
variable (free : (s.engine e).running = none) (head : (s.engine e).queue = j :: rest)
include free head

theorem State.startMedia_same (same : (s.engine e).lastStream = none ∨ (s.engine e).lastStream = some j.stream) :
    s.startMedia e = s.takesJob e j rest false := by
  rcases same with first | again
  · simp only [State.startMedia, free, head, first]
    rfl
  · simp only [State.startMedia, free, head, again, Option.any_some, bne_self_eq_false, if_true]
    rfl

theorem State.startMedia_other {n : Nat} (last : (s.engine e).lastStream = some n) (ne : n ≠ j.stream) :
    s.startMedia e
      = (((s.takesJob e j rest true).switchOut e n).switchIn e j.stream).bump (engineIndex e + 2) 3 1 := by
  have other : (n != j.stream) = true := bne_iff_ne.2 ne
  simp only [State.startMedia, free, head, last, Option.any_some, other, if_neg ne]
  rfl

end

/-! ### Calm states -/

/-- What a switch to a stream does, whatever the size of a stream's state: the size of `switchIn` is too great a number for
its body to be unfolded in a proof. -/
def State.switchedIn (size width : Nat) (s : State) (e n : Nat) : State :=
  match tblFind (s.engine e).streams n with
  | none => s
  | some x =>
    let r := s.readView (ioFor x.polder) (openOf x.words).stateAddr size
    match r.poison with
    | none => r.state.setStream e n { x with state := r.data }
    | some _ =>
      let v : BitVec width := r.state.freeVal width
      r.state.usedFree.setStream e n { x with state := toBytes size v.toNat }

theorem State.switchIn_eq (s : State) (e n : Nat) : s.switchIn e n = s.switchedIn 196608 1572864 e n := rfl

section
variable (calm : s.calm = true)
include calm

theorem State.calm_setEngine {g : Engine} (none' : g.waiters = []) : (s.setEngine e g).calm = true :=
  State.calm_iff.2 ⟨(State.calm_iff.1 calm).1, forall_mem_tblPut (P := fun x : Engine => x.waiters = []) none'
    (State.calm_iff.1 calm).2⟩

theorem State.calm_takesJob (other : Bool) : (s.takesJob e j rest other).calm = true :=
  State.calm_setEngine calm (State.waiters_of_calm calm e)

theorem State.calm_accessed {t : State} (h : s.Accessed t) : t.calm = true := by
  obtain ⟨_, _, _, _, _, _, rfl⟩ := h
  exact calm

theorem State.calm_switchOut (n : Nat) : (s.switchOut e n).calm = true := by
  unfold State.switchOut
  split
  · exact calm
  · exact State.calm_accessed calm ((State.Accessed.refl s).writeView ..)

theorem State.calm_setStream (n : Nat) (x : Stream) : (s.setStream e n x).calm = true :=
  State.calm_setEngine calm (State.waiters_of_calm calm e)

theorem State.calm_switchedIn (size width n : Nat) : (s.switchedIn size width e n).calm = true := by
  unfold State.switchedIn
  split
  · exact calm
  · next x _ =>
    have read : (s.readView (ioFor x.polder) (openOf x.words).stateAddr size).state.calm = true :=
      State.calm_accessed calm ((State.Accessed.refl s).readView ..)
    dsimp only
    split
    · exact State.calm_setStream read ..
    · exact State.calm_setStream (State.calm_accessed read (State.Accessed.refl _).usedFree) ..

theorem State.calm_switchIn (n : Nat) : (s.switchIn e n).calm = true := by
  rw [State.switchIn_eq]
  exact State.calm_switchedIn calm ..

theorem State.calm_freeWords (j : MediaJob) (decode : Bool) : (s.freeWords j decode).1.calm = true := by
  unfold State.freeWords
  dsimp only
  split
  · exact calm
  · split <;> exact calm

end

/-! ### The end of a job (R382) -/

/-- The engine's state once its running job has done its work. -/
def State.mediaCounted (s : State) (e : Nat) (j : MediaJob) : State :=
  ((s.setEngine e { s.engine e with running := none }).mediaEnds e j).state.bump (0x8010 + j.polder) 2 1

/-- The words that a job gives, and the state in which free ones are taken. -/
def State.mediaGives (s : State) (e : Nat) (j : MediaJob) : State × List (Nat × W64) :=
  if ((s.setEngine e { s.engine e with running := none }).mediaEnds e j).status = 0 then
    (s.mediaCounted e j, ((s.setEngine e { s.engine e with running := none }).mediaEnds e j).words)
  else (s.mediaCounted e j).freeWords j ((s.jobStream e j).any (fun x => !(openOf x.words).encode))

/-- A word of a job's descriptor as it is rewritten. -/
def State.mediaWord (s : State) (e : Nat) (j : MediaJob) (w : W64 × Nat) : W64 :=
  if w.2 = 0 then BitVec.ofNat 64
    ((j.word 0).toNat / 256 * 256 + ((s.setEngine e { s.engine e with running := none }).mediaEnds e j).status)
  else (((s.mediaGives e j).2.find? (fun y => y.1 == w.2)).map Prod.snd).getD w.1

section
variable (runs : (s.engine e).running = some j)
include runs

theorem State.endMedia_dropped (dropped : j.dropped = true) : s.endMedia e = s.mediaCounted e j := by
  simp only [State.endMedia, runs, dropped, if_true]
  rfl

theorem State.endMedia_kept (kept : j.dropped = false) :
    s.endMedia e = ((s.mediaGives e j).1.writeView (ioFor j.polder) j.descAddr
      (j.words.zipIdx.flatMap (fun w => toBytes 8 (s.mediaWord e j w).toNat))).atRank j.ctx.toNat j.rank
        (fun k => k.freeTag j.tag) := by
  simp only [State.endMedia, runs, kept, Bool.false_eq_true, if_false, List.flatMap_map]
  refine congrArg (fun g => ((s.mediaGives e j).1.writeView (ioFor j.polder) j.descAddr (j.words.zipIdx.flatMap g)).atRank
    j.ctx.toNat j.rank (fun k => k.freeTag j.tag)) (funext fun w => congrArg (fun x : W64 => toBytes 8 x.toNat) ?_)
  unfold State.mediaWord
  split
  · rfl
  · split
    · next y h =>
      have found : (s.mediaGives e j).2.find? (fun y => y.1 == w.2) = some y := h
      rw [found]
      rfl
    · next h =>
      have absent : (s.mediaGives e j).2.find? (fun y => y.1 == w.2) = none := h
      rw [absent]
      rfl

end

end

/-- Settles O25: a job is sent, an engine takes one, and one ends. -/
theorem mediaRuns : Obligations.MediaRuns := by
  unfold Obligations.MediaRuns
  refine ⟨?_, ?_⟩
  · intro s h f c n p k a r ws e j b t holds acts sound quiet
    have staged : s.stage h (.media f) = t := State.stage_media holds acts sound quiet
    obtain ⟨openEq, frameEq, closeEq⟩ := State.exec_media s h f
    exact ⟨staged ▸ openEq, staged ▸ frameEq, staged ▸ closeEq⟩
  · intro s engine j rest n e g takes idle r u f word calm
    refine ⟨fun free head same => ?_, fun free head last ne => ?_, fun runs dropped still => ?_, fun runs kept still => ?_⟩
    · exact next_congr ((congrArg State.pumpAll (State.startMedia_same free head same)).trans
        (State.pumpAll_of_calm (State.calm_takesJob calm false)))
    · refine next_congr ((congrArg State.pumpAll (State.startMedia_other free head last ne)).trans (State.pumpAll_of_calm ?_))
      refine State.calm_accessed ?_ ((State.Accessed.refl _).bump ..)
      exact State.calm_switchIn (State.calm_switchOut (State.calm_takesJob calm true) n) j.stream
    · exact next_congr ((congrArg State.pumpAll (State.endMedia_dropped runs dropped)).trans (State.pumpAll_of_calm still))
    · refine next_congr ((congrArg State.pumpAll (State.endMedia_kept runs kept)).trans (State.pumpAll_of_calm ?_))
      refine State.calm_atRank (fun _ => rfl) (State.calm_accessed ?_ ((State.Accessed.refl _).writeView ..))
      unfold State.mediaGives
      split
      · exact still
      · exact State.calm_freeWords still ..

end Sys2Proof.Machine
end

section
/-! ### Collective operations (R368 to R374) -/

namespace Sys2Proof.Machine

variable {s : State} {h : SlotAt} {f : XFields} {c : W12} {ws : List W64} {o : FabricOp} {n : Nat}

/-! ### X.FABRIC -/

theorem State.exec_fabric (s : State) (h : SlotAt) (f : XFields) :
    exec (.fabricPut h f) s = .next (s.stage h (.fabric f)) ∧ exec (.fabricAllreduce h f) s = .next (s.stage h (.fabric f))
      ∧ exec (.fabricReduce h f) s = .next (s.stage h (.fabric f))
      ∧ exec (.fabricBroadcast h f) s = .next (s.stage h (.fabric f)) := ⟨rfl, rfl, rfl, rfl⟩

theorem State.effect_fabric (s : State) (n : Nat) (k : CoreState) (bundle : Nat) (h : SlotAt) (f : XFields) :
    s.effect n k bundle (slotOf h (.fabric f)) = s.doFabric n k (slotOf h (.fabric f)) f bundle := rfl

/-- The operation that a bundle gives to the collective engine (R369). -/
def State.fabricBegun (s : State) (h : SlotAt) (f : XFields) (c : W12) (ws : List W64) : FabricOp :=
  { id := s.nextId, ctx := c, rank := (s.core (coreOf h)).rank, tag := f.tag.toNat
    descAt := ((s.core (coreOf h)).getG f.gA).toNat, func := bits (ws.getD 0 0) 63 60, words := ws, nodes := [], sums := []
    parts := [], results := [], closing := false, events := [], state := 0, fstatus := 0, slot := h.slot.toNat
    bundle := (s.core (coreOf h)).pc }

/-- The state once the engine has the operation. -/
def State.fabricGiven (s : State) (h : SlotAt) (f : XFields) (c : W12) (ws : List W64) : State :=
  ((s.passed (coreOf h)).begin (coreOf h) (slotOf h (.fabric f)) (s.core (coreOf h)).pc (some f.tag) (.fabric s.nextId)
    (fabricReads ws) (fabricWrites ws)).startFabric (s.fabricBegun h f c ws)

theorem State.stage_fabric (holds : (s.core (coreOf h)).ctx = some c) (read : (s.core (coreOf h)).fabricWords f = some ws)
    (quiet : ((s.fabricGiven h f c ws).core (coreOf h)).quiet = true) (a : s.Acts h (.fabric f)) :
    s.stage h (.fabric f) = s.fabricGiven h f c ws := by
  have number : (s.passed (coreOf h)).nextId = s.nextId := by simp [State.passed, State.coreBump]
  have effect : (s.passed (coreOf h)).effect (coreOf h) (s.core (coreOf h)) (s.core (coreOf h)).pc (slotOf h (.fabric f))
      = s.fabricGiven h f c ws := by
    rw [State.effect_fabric]
    simp only [State.doFabric, read, holds, Option.getD_some, number]
    rfl
  rw [s.stage_acts h (.fabric f) a (effect ▸ quiet), effect]

/-! ### The end of an operation (R370) -/

/-- The state once an operation has left the engine, before its core is told. -/
def State.fabricLeft (s : State) (o : FabricOp) : State :=
  let u := { s with fabricOps := s.fabricOps.filter (fun x => x.id != o.id) }
  let v := if o.func = 2 ∨ o.func = 3 ∨ o.func = 4 then
      u.onCtx o.ctx.toNat (fun c => { c with group := c.group.map (fun g => { g with ended := g.ended ++ [o.collId] }) })
    else u
  if o.fstatus = 2 then v.bump (0x6200 + polderOf o.ctx.toNat) 9 1 else v

/-- A core whose operation has ended: the status is the last byte of its descriptor, and its tag is free. -/
def FabricOp.tells (o : FabricOp) (k : CoreState) : CoreState :=
  (k.setScalar (o.descAt + 56)
    ((k.scalar (o.descAt + 56) >>> 8) <<< 8 ||| BitVec.ofNat 64 (o.fstatus % 256))).freeTag o.tag

theorem State.endFabric_eq (s : State) (o : FabricOp) :
    s.endFabric o = (s.fabricLeft o).atRank o.ctx.toNat o.rank o.tells := by
  have collective : (o.collective = true) = (o.func = 2 ∨ o.func = 3 ∨ o.func = 4) := by
    simp [FabricOp.collective, or_assoc]
  simp only [State.endFabric, collective]
  rfl

theorem State.fabricLeft_cores (s : State) (o : FabricOp) :
    (s.fabricLeft o).cores = s.cores ∧ (s.fabricLeft o).engines = s.engines := by
  unfold State.fabricLeft
  dsimp only
  split <;> split <;> simp

/-- The end of an operation changes no more of its context than its group. -/
theorem State.fabricLeft_stands (stands : s.Stands o.ctx o.rank n) : (s.fabricLeft o).Stands o.ctx o.rank n := by
  obtain ⟨cores, -⟩ := s.fabricLeft_cores o
  have same : (s.fabricLeft o).core n = s.core n := by simp only [State.core, cores]
  have ctx : ((s.fabricLeft o).ctx o.ctx.toNat).images = (s.ctx o.ctx.toNat).images
      ∧ ((s.fabricLeft o).ctx o.ctx.toNat).cores = (s.ctx o.ctx.toNat).cores := by
    have counted (u : State) : (if o.fstatus = 2 then u.bump (0x6200 + polderOf o.ctx.toNat) 9 1 else u).ctxs = u.ctxs := by
      split <;> simp
    unfold State.fabricLeft
    dsimp only
    rw [State.ctx_congr (counted _)]
    split
    · rw [State.ctx_onCtx_self]
      exact ⟨rfl, rfl⟩
    · exact ⟨rfl, rfl⟩
  exact ⟨ctx.1 ▸ stands.images, ctx.2 ▸ stands.rank, same ▸ stands.ctx⟩

/-- Settles O23: the four functions begin an operation, and one that is ready ends. -/
theorem fabricRuns : Obligations.FabricRuns := by
  unfold Obligations.FabricRuns
  refine ⟨?_, ?_⟩
  · intro s h f c ws n k o t holds read quiet acts
    have staged : s.stage h (.fabric f) = t := State.stage_fabric holds read quiet acts
    obtain ⟨putEq, allreduceEq, reduceEq, broadcastEq⟩ := State.exec_fabric s h f
    exact ⟨staged ▸ putEq, staged ▸ allreduceEq, staged ▸ reduceEq, staged ▸ broadcastEq⟩
  · intro s o n k a u v w found ready images rank holds calm
    have stands : s.Stands o.ctx o.rank n := ⟨images, rank, holds⟩
    obtain ⟨cores, engines⟩ := s.fabricLeft_cores o
    have same (m : Nat) : (s.fabricLeft o).core m = s.core m := by simp only [State.core, cores]
    have ends : s.endFabric o = (s.fabricLeft o).onCore n o.tells :=
      (s.endFabric_eq o).trans ((State.fabricLeft_stands stands).atRank_eq _)
    have still : ((s.fabricLeft o).onCore n o.tells).calm = true :=
      State.calm_onCore (fun _ => rfl) ((State.calm_congr cores engines).trans calm)
    have done : s.doneFabric o.id = (s.fabricLeft o).onCore n o.tells := by
      simp only [State.doneFabric, found, if_pos ready, ends, State.pumpAll_of_calm still]
    refine ⟨_, next_congr done, ?_, fun m ne => ?_, rfl⟩
    · rw [State.core_onCore_self, same]
      rfl
    · rw [State.core_onCore, if_neg (Ne.symm ne), same]

end Sys2Proof.Machine
end

section
/-! ### The mask of a polder while contexts end

Ending contexts counts and records in the dictionary, but never in the entry that holds a polder's mask (R320, R331). -/

namespace Sys2Proof.Machine

variable {s : State} {k : Nat} {v : Option Nat}

/-- Whether a key of the dictionary is the one of a polder's mask. -/
def isMaskKey (k : Nat) : Prop := ∃ p, p < 16 ∧ k = entryKey (polderIndex p 0) 1

theorem ne_maskKey (m : isMaskKey k) {i j : Nat} (other : i < 0x5100 ∨ 0x5200 ≤ i ∨ (j ≠ 1 ∧ j < 256)) (few : j < 256) :
    entryKey i j ≠ k := by
  obtain ⟨p, known, rfl⟩ := m
  unfold entryKey polderIndex
  omega

/-- What the dictionary holds under a key. -/
def State.shows (s : State) (k : Nat) (v : Option Nat) : Prop := tblFind s.dict k = v

theorem State.shows.event (h : s.shows k v) (i b n : Nat) : (s.event i b n).shows k v := by
  unfold State.event
  split <;> exact h

theorem State.shows.leaveCore (h : s.shows k v) (c n : Nat) : (s.leaveCore c n).shows k v := by
  unfold State.leaveCore
  dsimp only
  split
  · exact h
  · split <;> exact h

section
variable (m : isMaskKey k)
include m

section
variable (h : s.shows k v)
include h

theorem State.shows.setEntry {i j : Nat} (other : i < 0x5100 ∨ 0x5200 ≤ i ∨ (j ≠ 1 ∧ j < 256)) (few : j < 256) (x : Nat) :
    (s.setEntry i j x).shows k v := (tblFind_tblPut_ne _ _ (ne_maskKey m other few)).trans h

theorem State.shows.bumpW (w : Nat) {i j : Nat} (other : i < 0x5100 ∨ 0x5200 ≤ i ∨ (j ≠ 1 ∧ j < 256)) (few : j < 256)
    (n : Nat) : (s.bumpW w i j n).shows k v := (tblFind_tblPut_ne _ _ (ne_maskKey m other few)).trans h

theorem State.shows.bump {i j : Nat} (other : i < 0x5100 ∨ 0x5200 ≤ i ∨ (j ≠ 1 ∧ j < 256)) (few : j < 256) (n : Nat) :
    (s.bump i j n).shows k v := by
  unfold State.bump
  split
  · exact h
  · exact h.bumpW m 64 other few n

theorem State.shows.send (x : Tx) : (s.send x).shows k v := by
  unfold State.send
  split
  · split
    · exact ((State.shows.bump (s := { s with tx := s.tx ++ [x] }) m h (by omega) (by decide) 1)).bump m (by omega) (by decide) _
    · exact h
  · exact h

theorem State.shows.burst (a : Nat) : (s.burst a).shows k v := h.bump m (by omega) (by decide) 1

theorem State.shows.corrected (cw : Nat) (syms : List Nat) : (s.corrected cw syms).shows k v := by
  unfold State.corrected
  dsimp only
  have recorded (rep mask : Nat) : ((((((s.bump (channelIndex (64 * cw)) 4 1).bump (channelIndex (64 * cw)) 5
      syms.length).setEntry (channelIndex (64 * cw)) 7 (64 * cw)).setEntry (channelIndex (64 * cw)) 8 mask).setEntry
      (channelIndex (64 * cw)) 9 rep).event (0x3200 + 64 * cw / 2 ^ 34) 0 1).shows k v :=
    (((((h.bump m (by omega) (by decide) _).bump m (by omega) (by decide) _).setEntry m (by omega) (by decide) _).setEntry m
      (by omega) (by decide) _).setEntry m (by omega) (by decide) _).event ..
  have chosen (c : Prop) [Decidable c] {u : State} (held : u.shows k v) (i b n : Nat) :
      (if c then u.event i b n else u).shows k v := by
    split
    · exact held.event ..
    · exact held
  exact chosen _ (recorded _ _) ..

theorem State.shows.poisoned (cw : Nat) : (s.poisoned cw).shows k v :=
  ((h.bumpW m 32 (by omega) (by decide) 1).setEntry m (by omega) (by decide) _).event ..

theorem State.shows.readWord {r : Requester} (polder : r.polder < 16) {cw : Nat} (lt : 64 * cw < 2 ^ 40) :
    (s.readWord r cw).state.shows k v := by
  have channel : channelIndex (64 * cw) < 0x5100 := by unfold channelIndex; omega
  have counted : ((s.bump (channelIndex (64 * cw)) 1 1).bump (0x3020 + r.polder)
      (if r.near (64 * cw) then 1 else 2) 64).shows k v :=
    (h.bump m (.inl channel) (by decide) 1).bump m (by omega) (by split <;> decide) _
  unfold State.readWord
  dsimp only
  generalize (s.bump (channelIndex (64 * cw)) 1 1).bump (0x3020 + r.polder) (if r.near (64 * cw) then 1 else 2) 64 = c
    at counted ⊢
  split
  · exact counted
  split
  · exact counted.corrected m ..
  split
  · exact counted.poisoned m ..
  split
  · exact State.shows.poisoned (s := c.usedFree) m counted ..
  · exact State.shows.corrected (s := c.usedFree.usedFree.usedFree) m counted ..

theorem State.shows.writeWord (r : Requester) (polder : r.polder < 16) (cw : Nat) (data : List Byte) :
    (s.writeWord r cw data).shows k v := by
  have counted : ((s.bump (channelIndex (64 * cw)) 2 1).bump (0x3020 + r.polder)
      (if r.near (64 * cw) then 3 else 4) 64).shows k v :=
    (h.bump m (by omega) (by decide) 1).bump m (by omega) (by split <;> decide) _
  exact counted

theorem State.shows.readView {r : Requester} (polder : r.polder < 16) (a : W64) (n : Nat) :
    (s.readView r a n).state.shows k v := by
  unfold State.readView
  dsimp only
  refine foldl_keeps (fun acc : State × List (List Byte) × List Nat => acc.1.shows k v) (fun acc cw held => ?_) _ h
  split
  · exact held
  · next ph found =>
    have lt : 64 * (ph / 64) < 2 ^ 40 := Nat.lt_of_le_of_lt (Nat.mul_div_le ph 64) (State.resolve_lt found)
    have polder' : (r.entering (s.resolve r.polder a)).polder < 16 := by rwa [Requester.entering_polder]
    split
    · exact (held.burst m ph).readWord m polder' lt
    · exact held.readWord m polder' lt

theorem State.shows.writeView {r : Requester} (polder : r.polder < 16) (a : W64) (bs : List Byte) :
    (s.writeView r a bs).shows k v := by
  have polder' : (r.entering (s.resolve r.polder a)).polder < 16 := by rwa [Requester.entering_polder]
  unfold State.writeView
  refine foldl_keeps (State.shows · k v) (fun u cw held => ?_) _ h
  split
  · exact held
  · split
    · exact (held.burst m _).writeWord m _ polder' ..
    · exact held.writeWord m _ polder' ..

end

/-! ### The cache home -/

/-- A home of a polder whose state holds an entry. -/
def Home.shows (h : Home) (k : Nat) (v : Option Nat) : Prop := h.polder < 16 ∧ h.state.shows k v

section
variable {h : Home} (g : h.shows k v)
include g

theorem Home.shows.fetch (a : W64) : (h.fetch a).shows k v := by
  obtain ⟨polder, held⟩ := g
  unfold Home.fetch
  split
  · next ph _ found =>
    have lt : 64 * (ph / 64) < 2 ^ 40 := Nat.lt_of_le_of_lt (Nat.mul_div_le ph 64) (State.resolve_lt found)
    dsimp only
    split
    · exact ⟨polder, held⟩
    · refine ⟨polder, ?_⟩
      split
      · exact held.readWord m polder lt
      · exact (held.burst m ph).readWord m polder lt
  · exact ⟨polder, held⟩

theorem Home.shows.poke (a : W64) (n x : Nat) : (h.poke a n x).shows k v := by
  have read : (if (toBytes n x).length = 64 then h else h.fetch a).shows k v := by
    split
    · exact g
    · exact g.fetch m a
  unfold Home.poke Home.put
  dsimp only
  split <;> exact read

theorem Home.shows.push (n : Nat) : (h.push n).shows k v := g.poke m ..

theorem Home.shows.setMeta (n refs pins : Nat) : (h.setMeta n refs pins).shows k v := g.poke m ..

theorem Home.shows.lowered (n refs pins : Nat) : (h.lowered n refs pins).shows k v := by
  have set := g.setMeta m n refs pins
  unfold Home.lowered
  dsimp only
  split
  · exact set.push m n
  · exact set

theorem Home.shows.unpin (n : Nat) : (h.unpin n).shows k v := by
  have lowered := (g.fetch m (h.cfg.metaAddr n)).lowered m n
  exact lowered ((h.fetch (h.cfg.metaAddr n)).refs n) ((h.fetch (h.cfg.metaAddr n)).pins n - 1)

theorem Home.shows.close : h.close.shows k v := by
  obtain ⟨polder, held⟩ := g
  have rewritten : h.rewrite.shows k v := by
    unfold Home.rewrite
    refine foldl_keeps (fun acc : State × Option Nat => acc.1.shows k v) (fun acc n held => ?_) _ held
    dsimp only
    split
    · exact held.writeWord m _ polder ..
    · exact (held.burst m _).writeWord m _ polder ..
  have count {u : State} (c : Prop) [Decidable c] {sub : Nat} (few : sub < 256) (x : Nat) (held : u.shows k v) :
      (if c then u else u.setCacheCount h.polder sub x).shows k v := by
    split
    · exact held
    · exact held.setEntry m (by omega) few _
  have depth {u : State} (c : Prop) [Decidable c] (held : u.shows k v) :
      (if c then u else u.setStackDepth h.polder h.depth).shows k v := by
    split
    · exact held
    · have set : ((u.onPolder h.polder (fun x => { x with stackDepth := h.depth })).setCacheCount h.polder 2 h.depth).shows k v :=
        State.shows.setEntry (s := u.onPolder h.polder (fun x => { x with stackDepth := h.depth })) m held (by omega) (by decide) _
      unfold State.setStackDepth
      dsimp only
      split
      · exact set.event ..
      · exact set
  unfold Home.close
  split
  · exact held
  · exact ((depth _ (count _ (by decide) _ (count _ (by decide) _ rewritten))).bump m (by omega) (by decide) _).bump m (by omega)
      (by decide) _

end

/-! ### Contexts that end -/

section
variable (h : s.shows k v)
include h

theorem State.shows.servePosts (c : Nat) : (s.servePosts c).shows k v := by
  refine foldl_keeps (State.shows · k v) (fun u x held => ?_) _ h
  have read := State.shows.readView (s := u.bump (0x7120 + polderOf x.ctx.toNat) 6 1) m (held.bump m (by omega) (by decide) 1)
    (r := { polder := polderOf x.ctx.toNat, site := some (u.entry (0x7110 + polderOf x.ctx.toNat) 0 / 16) }) (polderOf_lt _)
    (x.addr - BitVec.ofNat 64 (x.addr.toNat % 64)) 64
  unfold State.setMapBit
  dsimp only
  split
  · exact read
  · exact read.writeView m (polderOf_lt _) ..

theorem State.shows.abandonFabric (c : Nat) : (s.abandonFabric c).shows k v := by
  refine foldl_keeps (State.shows · k v) (fun u o held => ?_) _ h
  split
  · exact foldl_keeps (State.shows · k v) (fun w d held => held.send m _) _ held
  · exact held

theorem State.shows.notifyReady (n slot tag : Nat) : (s.notifyReady n slot tag).shows k v :=
  foldl_keeps (State.shows · k v) (fun _ _ held => held.send m _) _ h

theorem State.shows.placeRecord (n : Nat) (u : Unplaced) : (s.placeRecord n u).shows k v := by
  have put {w : State} (held : w.shows k v) (i tag : Nat) (r : ResultSlot) :
      ((w.onCtx n (fun c => { c with slots := tblPut c.slots i r })).notifyReady n i tag).shows k v :=
    State.shows.notifyReady (s := w.onCtx n (fun c => { c with slots := tblPut c.slots i r })) m held ..
  have free {w : State} (b : Bool) (held : w.shows k v) : (if b = true then w.usedFree else w).shows k v := by
    split <;> exact held
  unfold State.placeRecord
  dsimp only
  split
  · exact put h ..
  · exact put (free _ (free _ (h.readView m (polderOf_lt n) ..))) ..

theorem State.shows.completePkg (n : Nat) (u : Unplaced) : (s.completePkg n u).shows k v := by
  unfold State.completePkg
  split
  · exact h.placeRecord m ..
  · exact h

theorem State.shows.dismantle (n code scope : Nat) : (s.dismantle n code scope).1.shows k v := by
  unfold State.dismantle
  dsimp only
  split
  · exact h
  refine State.shows.bump m (State.shows.bump m ?_ (by have := polderOf_lt n; omega) (by decide) _)
    (by unfold polderIndex; omega) (by decide) _
  refine foldl_keeps (State.shows · k v) (fun u x held => held.completePkg m n _) _ ?_
  suffices answered : (((s.ctx n).asm.flatMap Assembly.replies).foldl
      (fun (s : State) h => s.send (.host 0x85 h 0 [])) _).shows k v by
    split
    · exact answered.completePkg m ..
    · exact answered
  refine foldl_keeps (State.shows · k v) (fun u x held => held.send m _) _ ?_
  refine foldl_keeps (State.shows · k v) (fun u x held => held.leaveCore n x)
    (a := (State.abandonFabric (State.onPolder _ (polderOf n) _) n).dropMedia n) _ ?_
  refine State.shows.abandonFabric m (s := State.onPolder _ (polderOf n) _) ?_ n
  exact Home.shows.close m (foldl_keeps (Home.shows · k v) (fun u x held => held.unpin m x) _
    (a := (s.servePosts n).home (polderOf n)) ⟨polderOf_lt n, h.servePosts m n⟩)

end

end

end Sys2Proof.Machine
end

section
/-! ### A polder that is reset

Every context of it has ended, so that none is scheduled; and the work counters of its sites read 0 (R332). -/

namespace Sys2Proof.Machine

variable {s : State}

/-! ### Contexts that a reset ends -/

theorem State.dismantle_state {n : Nat} (code scope : Nat) : ((s.dismantle n code scope).1.ctx n).state = 0 := by
  by_cases closed : (s.ctx n).state = 0
  · rw [State.dismantle_of_closed code scope closed]
    exact closed
  · exact (State.dismantle_ctx code scope closed).1.1

/-- Once the contexts of a list are torn down they are CLOSED, and so are those that were CLOSED before. -/
theorem State.dismantleAll_state (code scope : Nat) {m : Nat} (l : List Nat) (r : rising s.ctxs = true)
    (h : m ∈ l ∨ (s.ctx m).state = 0) :
    rising (l.foldl (fun s c => (s.dismantle c code scope).1) s).ctxs = true
      ∧ ((l.foldl (fun s c => (s.dismantle c code scope).1) s).ctx m).state = 0 := by
  induction l generalizing s with
  | nil => exact ⟨r, h.resolve_left List.not_mem_nil⟩
  | cons n l ih =>
    refine ih ((State.dismantle_keeps (Keeps.refl s) n code scope).ctxs r) ?_
    rcases h with listed | closed
    · rcases List.mem_cons.1 listed with rfl | later
      · exact .inr (State.dismantle_state code scope)
      · exact .inl later
    · have kept := State.dismantle_holdsCtx (n := n) (code := code) (scope := scope) ⟨r, rfl⟩ closed
      exact .inr (by rw [kept.2]; exact closed)

/-- A context of a polder is among its open ones, or CLOSED. -/
theorem State.mem_openCtxs_or_closed {n p : Nat} (own : polderOf n = p) : n ∈ s.openCtxs p ∨ (s.ctx n).state = 0 := by
  cases found : tblFind s.ctxs n with
  | none => exact .inr (by simp [State.ctx, found, Ctx.closed])
  | some c =>
    have here : s.ctx n = c := by simp [State.ctx, found]
    rw [here]
    refine or_iff_not_imp_right.2 fun opened => ?_
    exact List.mem_map.2 ⟨(n, c), List.mem_filter.2 ⟨tblFind_mem found, by simpa [own] using opened⟩, rfl⟩

/-- Once the open contexts of a polder are torn down, none of its contexts is open. -/
theorem State.ctxsOf_dismantled (p code scope : Nat) (r : rising s.ctxs = true) :
    ((s.openCtxs p).foldl (fun s c => (s.dismantle c code scope).1) s).ctxsOf p = [] := by
  refine List.filter_eq_nil_iff.2 fun x listed stands => ?_
  obtain ⟨own, opened⟩ : polderOf x.1 = p ∧ x.2.state ≠ 0 := by simpa using stands
  obtain ⟨rises, closed⟩ := State.dismantleAll_state code scope _ r (State.mem_openCtxs_or_closed (s := s) own)
  rw [State.ctx_of_mem rises listed] at closed
  exact opened closed

theorem State.openCtxs_eq_nil {p : Nat} (empty : s.ctxsOf p = []) : s.openCtxs p = [] := congrArg (List.map Prod.fst) empty

theorem State.schedule_eq_self {p : Nat} (empty : s.ctxsOf p = []) : s.schedule p = s := by
  simp [State.schedule, empty, sortBy]

/-! ### The work counters of its sites -/

theorem State.zeroAll_counters (l : List Nat) {a : Nat} (h : (∃ site ∈ l, a / 256 = site) ∨ cell s.counters a = 0) :
    cell (l.foldl State.zeroCounters s).counters a = 0 := by
  induction l generalizing s with
  | nil => simpa using h
  | cons x l ih =>
    refine ih ?_
    have zeroed : cell (s.zeroCounters x).counters a = if 256 * x ≤ a ∧ a < 256 * x + 256 then 0 else cell s.counters a :=
      cell_clearCells ..
    rw [zeroed]
    split
    · exact .inr rfl
    · next off =>
      refine h.imp_left fun ⟨site, listed, own⟩ => ⟨site, ?_, own⟩
      exact (List.mem_cons.1 listed).resolve_left (by omega)

/-! ### The reset -/

/-- The polder's mask stands while its contexts end. -/
theorem State.polderMask_dismantled {p : Nat} (known : p < 16) (code scope : Nat) (l : List Nat) :
    (l.foldl (fun s c => (s.dismantle c code scope).1) s).polderMask p = s.polderMask p := by
  have kept := State.apart_kept (State.foldl_apart (fun u c => State.apart_dismantle (s := u) c code scope) l s)
  have shown := foldl_keeps (State.shows · (entryKey (polderIndex p 0) 1) (tblFind s.dict (entryKey (polderIndex p 0) 1)))
    (fun u c held => State.shows.dismantle ⟨p, known, rfl⟩ held c code scope) l (a := s) rfl
  unfold State.polderMask State.entry
  rw [kept, show tblFind _ _ = _ from shown]

/-- A polder after its contexts have ended: its counters zeroed, its cache initialised and its records written, its streams
closed and its seal slots erased. -/
def State.sweep (s : State) (p : Nat) : State :=
  let s := (sitesOf (s.polderMask p)).foldl State.zeroCounters s
  let s := if (s.polder p).cacheInit then s.initCache p else s
  let s := if s.recordsOk p then (List.range 256).foldl (fun s c => s.writeRecord (256 * p + c)) s else s
  ((s.closeStreams p).eraseSeals p |>.bump32 (polderIndex p 3) 5).event (polderIndex p 1) 1 1

theorem State.resetPolder_eq (p code : Nat) :
    s.resetPolder p code = (((s.openCtxs p).foldl (fun s c => (s.dismantle c code 2).1) s).sweep p).schedule p := rfl

theorem State.sweep_ctxs (p : Nat) : (s.sweep p).ctxs = s.ctxs := by
  have records (l : List Nat) (u : State) (b : Bool) :
      (if b = true then l.foldl (fun s c => s.writeRecord (256 * p + c)) u else u).ctxs = u.ctxs := by
    split
    · exact foldl_ctxs id (f := fun s c => s.writeRecord (256 * p + c)) (fun u i => State.writeRecord_ctxs u _) l u
    · rfl
  have cache (u : State) (b : Bool) : (if b = true then u.initCache p else u).ctxs = u.ctxs := by split <;> simp
  have zero (l : List Nat) (u : State) : (l.foldl State.zeroCounters u).ctxs = u.ctxs :=
    foldl_ctxs id (f := State.zeroCounters) (fun _ _ => rfl) l u
  simp only [State.sweep, State.event_ctxs, State.bump32_ctxs, State.eraseSeals, State.closeStreams, records, cache, zero]

theorem State.sweep_counters (p : Nat) :
    (s.sweep p).counters = ((sitesOf (s.polderMask p)).foldl State.zeroCounters s).counters := by
  have records (l : List Nat) (u : State) (b : Bool) :
      (if b = true then l.foldl (fun s c => s.writeRecord (256 * p + c)) u else u).apart = u.apart := by
    split
    · exact State.foldl_apart (fun u i => State.apart_writeRecord (s := u) _) l u
    · rfl
  have cache (u : State) (b : Bool) : (if b = true then u.initCache p else u).apart = u.apart := by
    split
    · exact State.apart_initCache ..
    · rfl
  refine State.apart_counters ?_
  simp only [State.sweep, State.apart_event, State.apart_bump32, State.apart_eraseSeals, State.apart_closeStreams, records, cache]

/-- Settles O41: the open contexts are torn down one by one, the mask of the polder stands meanwhile, and what follows
brings no context back and leaves the zeroed counters as they are. -/
theorem polderResetCloses : Obligations.PolderResetCloses := by
  unfold Obligations.PolderResetCloses
  intro s p code rises known _
  have ended := State.ctxsOf_dismantled (s := s) p code 2 rises
  have mask := State.polderMask_dismantled (s := s) known code 2 (s.openCtxs p)
  rw [State.resetPolder_eq]
  generalize (s.openCtxs p).foldl (fun s c => (s.dismantle c code 2).1) s = t at ended mask ⊢
  have empty : (t.sweep p).ctxsOf p = [] := by rw [State.ctxsOf, State.sweep_ctxs]; exact ended
  rw [State.schedule_eq_self empty]
  refine ⟨State.openCtxs_eq_nil empty, fun site i listed few => ?_⟩
  rw [State.sweep_counters, mask]
  exact State.zeroAll_counters _ (.inl ⟨site, listed, by omega⟩)

end Sys2Proof.Machine
end
